-- ==== Sys2Proof/Word.lean ====
section
/-! DEFINITION. The words of the Burjor: 32-bit register and message words (R14, R304), 64-bit item words (R177) and
bytes. -/

namespace Sys2Proof

/-- A register or message word (R14, R304). -/
abbrev Word := BitVec 32

/-- A word of an item (R177) or of a fault message (R450). -/
abbrev Word64 := BitVec 64

/-- A byte of memory or of a line. -/
abbrev Byte := BitVec 8

end Sys2Proof
end

