-- ==== Sys2Proof/Syntax.lean ====
section
/-! DEFINITION. The commands of the Burjor (spec/opcode_table.json) and the operands they carry. An operand holds what comes
from outside the model: an address and a value, a message, the characters of a lane, a level of a pin, a reading of an
analogue or clock circuit. -/

namespace Sys2Proof

/-- A full timestamp T73 (R10): turn, coarse tick and fine bin. -/
structure Stamp where
  /-- the 48-bit turn number (R10) -/
  turn : Nat := 0
  /-- coarse tick within the turn, 0 to 16 383 (R10) -/
  ct : Nat := 0
  /-- fine bin, 0 to 2 047 (R10) -/
  fb : Nat := 0
  deriving DecidableEq, Repr

/-- The character errors in what arrives on a lane (R271, R272). -/
structure CharErr where
  /-- codes that are not in the 8b/10b table -/
  code : Nat := 0
  /-- codes of the wrong disparity -/
  disp : Nat := 0
  /-- K-codes in another place than R272 gives them -/
  place : Nat := 0
  deriving DecidableEq, Repr

/-- Every character is valid. -/
def CharErr.none : CharErr := {}

/-- The path on which a request arrives (R300, R303). -/
inductive Path where
  /-- VL_1 of an upstream port: 0 UA, 1 UB -/
  | vl1 (p : Nat)
  /-- the I²C management target -/
  | i2c
  /-- the control core, for MBX_6 and MBX_7, and the DEBUG_CHALLENGE shifted in by SEC_MSG (R491) -/
  | core
  deriving DecidableEq, Repr

/-- What Horef knows of the request it executes (R302, R304): header fields and the outcome of the signature check. -/
structure MsgCtx where
  /-- mailbox m in which the request stands (R300) -/
  mbx : Nat := 0
  /-- SEQ of the request (R304) -/
  seq : Nat := 0
  /-- MSG_ID of the request (R304) -/
  id : Nat := 0
  /-- the request was sent to the broadcast ID (R13, R322) -/
  bcast : Bool := false
  /-- FWD was set (R220, R322) -/
  fwd : Bool := false
  /-- the request is signed and its checks of R313 passed; KEY is the trailer's key -/
  signed : Bool := false
  /-- KEY of the trailer (R312), 0 unsigned -/
  key : Nat := 0
  /-- STAMP was set (R306) -/
  stamp : Bool := false
  deriving DecidableEq, Repr

/-- What the outside world shows the Burjor at a turn boundary: readings of analogue and clock circuits. -/
structure BoundaryEnv where
  /-- mean photo-current of each channel over the turn that ends, in pA, out of the pin negative (R91) -/
  imon : List Int := []
  /-- channels whose V_node differed from OUT by more than 25 mV for the whole turn (R77) -/
  nodeDev : List Nat := []
  /-- REFCLK cycles in the turn that ends (R64) -/
  refclk : Nat := 4096
  /-- EYE_H and EYE_V of each lane, as the eye monitor measured them over the turn (R286) -/
  eyes : List (Nat × Nat) := []
  /-- lanes on which a window passed in the turn, with the adaptation values after it: CTLE, H1 to H4 (R285) -/
  adapt : List (Nat × List Nat) := []
  /-- character errors of each lane in the turn, beside those in units that arrived: in idle sets and between units (R271) -/
  chars : List (Nat × CharErr) := []
  deriving DecidableEq, Repr

/-- An access that arrives on the IEEE 1149.1 port (R490, R491, R509). -/
inductive DebugAccess where
  /-- IDCODE, BYPASS, SAMPLE: always available -/
  | basic
  /-- EXTEST or INTEST, with the levels shifted in for the driven pins -/
  | extest (pins : Word)
  /-- halt the control core, of the secure world or not -/
  | halt (secure : Bool)
  /-- single step of the control core -/
  | step (secure : Bool)
  /-- resume after a halt -/
  | resume
  /-- a fabric read -/
  | read (addr : Nat)
  /-- a fabric write -/
  | write (addr : Nat) (val : Word)
  deriving DecidableEq, Repr


/-- How the adaptation of a lane ended (R276): the five bytes of LANE_ADAPT, the characters of TS seen with bit and symbol lock, and
the calm windows in a row before it. -/
structure Adaptation where
  adapt : List Nat
  chars : Nat
  calm : Nat
  deriving DecidableEq, Repr

/-- What happens as the collector emits an item: the error its FIFO read finds (0 none, 1 corrected, 2 uncorrectable in a payload
word, 3 uncorrectable in the first word: R178, R385), the ct it was stalled before (R174), and whether the input FIFO of the
compressor pipe overflows as the item enters the own frame (R262). -/
structure Emission where
  err : Nat
  stall : Nat
  overflow : Bool
  deriving DecidableEq, Repr

/-- The commands and events of the Burjor: one constructor for each row of spec/opcode_table.json, in its order. -/
inductive Instr where
  /-- TURN_BOUNDARY (R22): At ct 0 of each turn the Burjor runs the ordered boundary steps: any pending step, TL latches, landing of due slots, budget refills, the slice restart and the frame close. -/
  | turnBoundary (env : BoundaryEnv)
  /-- GUARD_WINDOW_OPEN (R22): At ct 16 368 the guard window opens, and slots due at the next boundary become DUE and can no longer be cancelled. -/
  | guardWindowOpen
  /-- SLOT_FREEZE (R22): At ct 16 383 the set of slots to apply at the next boundary is frozen. -/
  | slotFreeze
  /-- PIP_BOUNDARY (R28): At the pip boundary after its verdict, a NOW slot is applied. -/
  | pipBoundary
  /-- SLICE_BOUNDARY (R153): At ct 0 of each slice, each slice engine chooses a record in owner order. -/
  | sliceBoundary
  /-- SHADOW_WRITE (R25): A write to an SH field stores the shadow value, marks the word dirty and may set DIRTY_OVF. -/
  | shadowWrite (secure : Bool) (off : Nat) (val : Word)
  /-- SEAL_NOW (R28): COMMIT_CTRL OP SEAL_NOW judges the dirty set under R515 and, if accepted, takes a slot to apply at the next pip boundary. -/
  | sealNow (tag : Nat)
  /-- SEAL_NEXT (R28): COMMIT_CTRL OP SEAL_NEXT judges the dirty set and, if accepted, takes a slot for the next turn boundary, or the one after it if the seal is deferred. -/
  | sealNext (tag : Nat)
  /-- SEAL_AT (R28): COMMIT_CTRL OP SEAL_AT judges the dirty set and the target N and, if accepted, takes a slot for the boundary that opens turn N. -/
  | sealAt (tag : Nat)
  /-- COMMIT_CTRL_BAD_OP (R28): A COMMIT_CTRL write with OP 6 or 7 is ignored and reported as BAD_ARG. -/
  | commitCtrlBadOp (op : Nat) (tag : Nat) (slot : Nat)
  /-- CANCEL (R33): Cancelling a slot, by the CANCEL message or by COMMIT_CTRL OP CANCEL, frees a pending NEXT or AT slot, or returns LATE or BAD_ARG. -/
  | cancel (req : Option MsgCtx) (slot : Nat) (tag : Nat)
  /-- DISCARD (R34): DISCARD, the message or DISCARD_SHADOW, reloads the shadows from the active or pending values and clears the dirty marks and DIRTY_OVF. -/
  | discard (req : Option MsgCtx) (tag : Nat)
  /-- COUNTER_CLEAR (R40): A write of 0 to a saturating counter clears its live part, its latched part and its SAT bit. -/
  | counterClear (off : Nat) (val : Word)
  /-- REGISTER_WRITE (R14): A write to a register that has no row of its own, including W1C, W1S, narrow, reserved and world-checked writes. -/
  | registerWrite (secure : Bool) (width : Nat) (off : Nat) (val : Word)
  /-- TURN_LO_READ (R15): A read of TURN_LO returns turn bits 31:0 and latches TURN_HI. -/
  | turnLoRead
  /-- ST_LO_READ (R66): A read of ST_LO returns ST bits 31:0 and latches ST_HI. -/
  | stLoRead
  /-- MARK_LO_READ (R234): A read of MARK_LO returns the mark in force and latches MARK_HI. -/
  | markLoRead
  /-- TXTS_FINE_READ (R67): A read of TXTS_FINE returns the head timestamp entry and pops it. -/
  | txtsFineRead (p : Nat)
  /-- TABLE_DATA_READ (R103): A read of TABLE_DATA returns the selected table, alignment or histogram entry and advances ENTRY. -/
  | tableDataRead
  /-- LIN_DATA_ACCESS (R156): A read or write of LIN_DATA accesses a linearisation or WALK entry, ignores writes to the active bank and advances ENTRY. -/
  | linDataAccess (wr : Option Word)
  /-- ADJ_DATA_ACCESS (R214): An access to ADJ_DATA reads or writes an adjacency half-entry, toggles WORD, advances PIXEL and ignores protected writes with ADJ_WR_ERR. -/
  | adjDataAccess (wr : Option Word)
  /-- DESC_SEL_WRITE (R225): A write of DESC_SEL snapshots the selected queue descriptor into DESC_DATA. -/
  | descSelWrite (val : Word)
  /-- FLT_POP (R455): A read of FLT_POP_HI pops the head fault-queue entry into the latch. -/
  | fltPop (bad : Bool)
  /-- BUDGET_GRANT (R42): An idle resource grants a background burst to the next activity, in round-robin order, that has allowance left. -/
  | budgetGrant (r : Nat)
  /-- BURST_COMPLETE (R42): A granted background burst ends, and any overrun of the allowance becomes debt. -/
  | burstComplete (r : Nat) (held : Nat)
  /-- BUDGET_BURST (R461): A background burst that still holds its resource 32 ct after its grant is aborted and reported. -/
  | budgetBurst (r : Nat)
  /-- BEACON_RECEIVE (R48): A beacon arrives on a timing port; it is stamped and checked, θ is computed and the servo of that port is updated. -/
  | beaconReceive (p : Nat) (chars : List Byte) (err : CharErr) (k : List Nat)
  /-- STEER_APPLY (R52): At ct 256 STEER takes the value computed from the turn's beacon. -/
  | steerApply
  /-- DELAY_REQ_SEND (R50): At ct 8 192 of each exchange turn, a Delay_Req leaves on a timing port and t3 is stamped. -/
  | delayReqSend (p : Nat) (t3fb : Nat)
  /-- DELAY_RESP_RECEIVE (R50): A Delay_Resp arrives; it is matched, t4 is formed and d and D are computed. -/
  | delayRespReceive (p : Nat) (chars : List Byte) (err : CharErr)
  /-- EXCHANGE_TIMEOUT (R50): A Delay_Resp that has not arrived within 4 turns is counted, and the exchange is dropped. -/
  | exchangeTimeout (p : Nat)
  /-- TIME_STEP_EXPLICIT (R55): TIME_STEP in EXPLICIT mode schedules a step of δ fb at turn N. -/
  | timeStepExplicit (req : MsgCtx) (n : Nat) (delta : Int)
  /-- TIME_STEP_ADOPT (R55): TIME_STEP in ADOPT_TPA or ADOPT_TPB mode schedules a step to the named port's time at turn N. -/
  | timeStepAdopt (req : MsgCtx) (p : Nat) (n : Nat)
  /-- TIME_STEP_CANCEL (R56): TIME_STEP in CANCEL mode cancels the pending step, or returns LATE or BAD_ARG. -/
  | timeStepCancel (req : MsgCtx)
  /-- STEP_STRETCH_END (R58): The stretched interval of a STEPPED turn ends, and the chip-level GAP of cause STEP_STRETCH is placed. -/
  | stepStretchEnd
  /-- ST_TICK (R66): Every 160 000 000 REFCLK cycles, ST advances by one second. -/
  | stTick
  /-- ST_PERSIST (R66): Every 3 600 s, Horef writes ST to MRAM. -/
  | stPersist
  /-- BLANKING_END (R83): A comparator blanking period expires. -/
  | blankingEnd (ch : Nat)
  /-- TEST_PULSE_LAUNCH (R87): At a schedule occurrence, charge is injected on the enabled channels and the TEST trigger source is offered. -/
  | testPulseLaunch
  /-- COMPARATOR_EDGE (R80): A channel comparator produces a leading or trailing edge, which its TDC unit stamps and pairs. -/
  | comparatorEdge (ch : Nat) (high : Bool) (trailing : Bool) (ct : Nat) (k : List Nat)
  /-- PULSE_CLOSE (R115): Once its trailing edge is stamped and 1.6 ns have passed, a pulse is emitted as HIT or EDGE into the hit FIFO. -/
  | pulseClose (u : Nat)
  /-- LONG_PULSE_TIMEOUT (R115): 256 ct after a leading edge with no trailing edge, a HIT with TOT 0xFFF is emitted. -/
  | longPulseTimeout (u : Nat)
  /-- DICE_COLLECT_DONE (R99): A calibrating chain has histogrammed 2^18 random edges and moves to INTEGRATE. -/
  | diceCollectDone (u : Nat) (q : Nat) (hist : List Nat)
  /-- DICE_INTEGRATE_DONE (R99): The new table is computed once CAL pips are granted, and the chain moves to ALIGN. -/
  | diceIntegrateDone (u : Nat) (q : Nat)
  /-- DICE_ALIGN_DONE (R99): 1 024 reference edges have been stamped, and A_q is formed. -/
  | diceAlignDone (u : Nat) (q : Nat) (dist : List Int)
  /-- DICE_CHECK (R104): The run's checks are made, and the chain becomes READY or FAILED. -/
  | diceCheck (u : Nat) (q : Nat)
  /-- TDC_FULL_CAL (R111): TDC_FULL_CAL requests a full foreground calibration, or returns DENIED or BUSY. -/
  | tdcFullCal (req : Option MsgCtx)
  /-- INITIAL_CAL_DONE (R109): The initial or full calibration completes; INIT_DONE is set and FULL_RUNNING clears. -/
  | initialCalDone
  /-- TRIG_IN_EDGE (R119): An edge on TRIG_IN is stamped by AUX_TRIG for triggers, items and the frequency engines. -/
  | trigInEdge (trailing : Bool) (ct : Nat) (k : List Nat)
  /-- FREQ_IN_EDGE (R119): An edge of the divided FREQ_IN is stamped by AUX_FREQ for the frequency engines. -/
  | freqInEdge (trailing : Bool) (ct : Nat) (k : List Nat)
  /-- GATE_IN_EDGE (R120): GATE_IN is sampled changing, which opens or closes an EXTERNAL gate or arms an EXT_TURN gate. -/
  | gateInEdge (level : Bool)
  /-- FREQ_RESULT (R121): A frequency engine's result is computed and emitted as a FREQ item within 2 048 ct of the gate close. -/
  | freqResult (e : Nat)
  /-- WARMUP_DONE (R126): A channel has written W valid samples and leaves WARMUP for RUN. -/
  | warmupDone (ch : Nat)
  /-- ITRIM_UPDATE (R127): The interleave trim of the next channel is updated once a CAL pip is granted. -/
  | itrimUpdate (ch : Nat) (corr : List Int)
  /-- LEVEL_CROSSING (R133): The filtered HG signal crosses baseline plus THR, giving a LEVEL trigger or primitive event. -/
  | levelCrossing (ch : Nat) (sample : Nat) (f : Int × Int) (low : Int)
  /-- SW_TRIGGER (R132): SW_TRIGGER writes SW_MASK and fires a software trigger at the next pip boundary. -/
  | swTrigger (req : Option MsgCtx) (lo : Word) (hi : Word)
  /-- ACCEPT_RECEIVE (R138): A cluster ACCEPT is decoded by capture and judged timely, early, late or ignored. -/
  | acceptReceive (p : Nat) (body : List Word) (crcOk : Bool) (err : CharErr)
  /-- ACCEPT_HOLD_RELEASE (R138): An early accept is released 8 ct after its tick ends and handled as timely. -/
  | acceptHoldRelease
  /-- COPY_START (R140): The copy unit starts the next WAITING segment once its start condition holds, or abandons it as COPY_LATE. -/
  | copyStart (ch : Nat)
  /-- COPY_DONE (R140): A copy finishes, and the segment becomes READY. -/
  | copyDone (ch : Nat) (hg : List Int) (lg : List Int) (bad : List Nat)
  /-- RECUT_COMPLETE (R131): A channel has released its old segments and filled its new ring, and enters RUN or OFF. -/
  | recutComplete (ch : Nat)
  /-- PRIMITIVE_FORM (R148): 24 ct after a tick ends, its bitmap closes and is sent or held under the credit bucket. -/
  | primitiveForm (turn : Nat) (pip : Nat)
  /-- TRIG_OUT_PULSE_START (R149): 64 ct after a selected event, TRIG_OUT goes high. -/
  | trigOutPulseStart
  /-- TRIG_OUT_PULSE_END (R149): TRIG_OUT returns low 16 ct after the last event that extended it. -/
  | trigOutPulseEnd
  /-- GET_CAPTURE (R321): GET_CAPTURE returns CAP_STATUS and every CAP_CH_STATUS. -/
  | getCapture (req : MsgCtx) (w : List Word)
  /-- RECORD_DONE (R166): An engine finishes a record's reductions, applies the weirs, writes its items and frees the segment. -/
  | recordDone (k : Nat) (found : Nat × List Nat)
  /-- SE_FIFO_ROOM (R155): A waiting engine finds room in the output FIFO and writes its item, possibly overrunning its slice. -/
  | seFifoRoom (k : Nat)
  /-- GAIN_RATIO_UPDATE (R159): A new gain-ratio estimate lands at a boundary once a CAL pip is free. -/
  | gainRatioUpdate (ch : Nat)
  /-- COLLECTOR_EMIT (R171): The collector emits the entry with the smallest key below all horizons into the frame. -/
  | collectorEmit (e : Emission)
  /-- COLLECTOR_DRAIN_START (R173): At ct 15 360, the collector starts draining turn n without regard to horizons. -/
  | collectorDrainStart
  /-- FRAME_TAIL_EMIT (R198): Once any started item is finished, the TURN_TAIL of the closing frame and the next TURN_HEAD are emitted. -/
  | frameTailEmit
  /-- CAPABILITY_RECEIVE (R282): A capability ordered set arrives; EXCHANGE may pass or new values are adopted. -/
  | capabilityReceive (lane : Nat) (bytes : List Byte) (err : CharErr)
  /-- FRAME_HEAD_RECEIVE (R209): A downstream TURN_HEAD arrives and is checked for origin, attach, future, closed and duplicate. -/
  | frameHeadReceive (j : Nat)
  /-- FRAME_TAIL_RECEIVE (R209): A downstream TURN_TAIL arrives, and the frame is checked and spliced or discarded. -/
  | frameTailReceive (j : Nat)
  /-- OWN_FRAME_SPLICE (R212): The concentrator's own closed frame is spliced within 2 048 ct. -/
  | ownFrameSplice
  /-- PRIMITIVE_RECEIVE (R213): A PRIMITIVE arrives on a downstream port and is ORed into its slot, or counted PRIM_LATE. -/
  | primitiveReceive (j : Nat) (body : List Word) (crcOk : Bool) (err : CharErr)
  /-- SUMMARY_RECEIVE (R218): A SUMMARY arriving on a downstream port is discarded. -/
  | summaryReceive (j : Nat) (body : List Word) (crcOk : Bool) (err : CharErr)
  /-- CLUSTER_EVALUATE (R215): At the collection deadline of a tick, the cluster rules are evaluated. -/
  | clusterEvaluate (turn : Nat) (pip : Nat)
  /-- CLUSTER_ACCEPT_SEND (R216): At tick + D_CT a cluster ACCEPT leaves on the ports and reaches the concentrator's own capture. -/
  | clusterAcceptSend
  /-- ACCEPT_DELAYED_SEND (R216): A cluster ACCEPT held behind an earlier VL_0 message leaves when that message ends. -/
  | acceptDelayedSend (j : Nat)
  /-- ARRAY_ACCEPT_RECEIVE (R217): An array ACCEPT from upstream is delivered to capture and relayed down, or discarded as a duplicate. -/
  | arrayAcceptReceive (p : Nat) (body : List Word) (crcOk : Bool) (err : CharErr)
  /-- VL1_MESSAGE_ROUTE (R220): A VL_1 message from upstream is delivered, forwarded by chip ID or refused with NO_ROUTE. -/
  | vl1MessageRoute (p : Nat)
  /-- DOWNSTREAM_MESSAGE_RELAY (R221): A message from a downstream port is relayed upstream, or dropped when its relay buffer is full. -/
  | downstreamMessageRelay (j : Nat)
  /-- PORT_FORWARD (R326): PORT_FORWARD forwards an inner message on a named downstream port with FWD set. -/
  | portForward (req : MsgCtx) (w : List Word)
  /-- FRAME_SEND_START (R231): A free upstream port starts sending the waiting replay, first send or stub with the lowest turn. -/
  | frameSendStart (p : Nat)
  /-- FRAME_SEND_DONE (R231): A frame finishes leaving on VL_2, and its queue becomes SENT. -/
  | frameSendDone (p : Nat)
  /-- TURN_ACK_RECEIVE (R230): A TURN_ACK body releases SENT turns to HELD or FREE, or counts ACK_STRAY. -/
  | turnAckReceive (p : Nat) (body : List Word) (crcOk : Bool) (err : CharErr)
  /-- VERDICT_ACCEPT_RECEIVE (R230): An ACCEPT body records ACCEPT for the covered turns, or counts VERDICT_STRAY. -/
  | verdictAcceptReceive (p : Nat) (body : List Word) (crcOk : Bool) (err : CharErr)
  /-- VERDICT_REJECT_RECEIVE (R230): A REJECT body records REJECT for the covered turns, or counts VERDICT_STRAY. -/
  | verdictRejectReceive (p : Nat) (body : List Word) (crcOk : Bool) (err : CharErr)
  /-- GIVE_UP_RECEIVE (R243): A GIVE_UP body makes the port on which it arrives give up. -/
  | giveUpReceive (p : Nat) (body : List Word) (crcOk : Bool) (err : CharErr)
  /-- ACK_TIMEOUT (R230): A SENT frame with no TURN_ACK for ACK_WAIT turns is released. -/
  | ackTimeout (turn : Nat)
  /-- VERDICT_TIMEOUT (R228): A turn without a verdict for VERDICT_LIMIT turns takes the default action. -/
  | verdictTimeout (turn : Nat)
  /-- RECLAIM (R232): With fewer than 256 pages free, the oldest unpinned closed turn is reclaimed. -/
  | reclaim
  /-- MARK_SET (R234): SET_MARK with OP SET schedules a rewind mark at M for the next boundary. -/
  | markSet (req : Option MsgCtx) (target : Nat)
  /-- MARK_CLEAR (R234): SET_MARK with OP CLEAR clears the mark at the next boundary. -/
  | markClear (req : Option MsgCtx)
  /-- REWIND (R238): REWIND queues a request for turns F to F + C − 1, or returns BAD_ARG or BUSY. -/
  | rewind (req : Option MsgCtx) (first : Nat) (count : Nat)
  /-- REWIND_SEND (R239): Under the REWIND budget, the next rewound turn is sent as a replay or a GONE stub. -/
  | rewindSend
  /-- GET_QUEUE (R321): GET_QUEUE returns the descriptor of the queue that holds a turn, or GONE. -/
  | getQueue (req : MsgCtx) (w : List Word)
  /-- GET_QUEUES (R321): GET_QUEUES returns the turn-queue status words. -/
  | getQueues (req : MsgCtx) (w : List Word)
  /-- GIVE_UP (R243): GIVE_UP forces UA or UB to give up. -/
  | giveUp (req : Option MsgCtx) (force : Nat)
  /-- CREDIT_TIMEOUT (R243): A frame has waited 4 turns without credit, and the port gives up. -/
  | creditTimeout (p : Nat)
  /-- RECODE_DONE (R262): A compressor pipe finishes recoding a checked frame, and the chosen chain is spliced. -/
  | recodeDone (j : Nat) (overflow : Bool)
  /-- JOB_START (R264): A START operation, by DECOMPRESS or JOB_CMD, starts a decompressor job, or returns BUSY. -/
  | jobStart (req : Option MsgCtx) (w : List Word)
  /-- JOB_RESUME (R266): A RESUME operation continues a STOPPED job, optionally skipping the failing block. -/
  | jobResume (req : Option MsgCtx) (w : List Word) (skip : Bool)
  /-- JOB_ABORT (R264): An ABORT operation stops the job with result ABORTED. -/
  | jobAbort (req : Option MsgCtx) (w : List Word)
  /-- JOB_BLOCK_DONE (R265): The decompressor finishes checking and decoding one block, and the job continues, stops or ends DONE. -/
  | jobBlockDone (corr : List Nat) (unc : List Nat)
  /-- LANE_DETECT_PROBE (R275): Every 100 µs a DETECT probe times the line charge and may detect a receiver. -/
  | laneDetectProbe (l : Nat) (found : Bool)
  /-- LANE_TRAIN_DONE (R276): Adaptation has converged, and the lane leaves TRAIN for LOCK. -/
  | laneTrainDone (l : Nat) (a : Adaptation)
  /-- LANE_TRAIN_TIMEOUT (R276): TRAIN has not ended within 2 ms, a failed attempt. -/
  | laneTrainTimeout (l : Nat)
  /-- LANE_LOCK_DONE (R277): 8 consecutive TS with LOCKED = 1 have arrived, and the lane enters EXCHANGE. -/
  | laneLockDone (l : Nat)
  /-- LANE_LOCK_TIMEOUT (R277): LOCK has not ended within 1 ms, a failed attempt. -/
  | laneLockTimeout (l : Nat)
  /-- LANE_RETRY (R280): After 100 µs of electrical idle, a failed lane starts TRAIN again. -/
  | laneRetry (l : Nat)
  /-- LINK_FAIL (R280): After 100 ms of retries at 3.2 Gbaud, the lane enters FAILED and reports LINK_FAIL. -/
  | linkFail (l : Nat)
  /-- LANE_FAILED_RESTART (R274): 100 ms after entering FAILED, the lane restarts from DETECT at MAX_RATE. -/
  | laneFailedRestart (l : Nat)
  /-- EXCHANGE_FAIL_TICK (R279): Each 1 ms without an EXCHANGE pass counts in EXCH_FAIL. -/
  | exchangeFailTick (l : Nat)
  /-- LOCK_LOSS (R284): An ACTIVE lane sees too many character errors or loses lock, and enters a warm retrain. -/
  | lockLoss (l : Nat)
  /-- TS_RECEIVE_ACTIVE (R287): Two TS arrive on an ACTIVE lane, which joins the partner's retrain. -/
  | tsReceiveActive (l : Nat)
  /-- BLOCK_RECEIVE (R288): A data block arrives; it is checked, delivered in SEQ order and its credit is taken. -/
  | blockReceive (lane : Nat) (hdr : Word) (payload : List Word64) (crcOk : Bool) (err : CharErr) (aborted : Bool)
  /-- BLOCK_LOST_TIMEOUT (R289): 256 ct after a later block, a missing SEQ is declared lost. -/
  | blockLostTimeout (p : Nat) (vl : Nat)
  /-- BLOCK_SEND (R291): A free lane sends the next waiting unit in priority order. -/
  | blockSend (lane : Nat) (fb : Nat)
  /-- CREDIT_RETURN (R290): A VL's credit has not been returned for 256 ct, so a block with LEN 0 is sent. -/
  | creditReturn (p : Nat) (vl : Nat)
  /-- LP_DEEP_ENTRY_RECEIVE (R295): LP_DEEP entry ordered sets arrive, and the partner lane enters LP_DEEP. -/
  | lpDeepEntryReceive (l : Nat)
  /-- LP_DEEP_WAKE (R295): The squelch detector sees TS with LP_EXIT, and the lane starts a warm retrain. -/
  | lpDeepWake (l : Nat)
  /-- LINK_RETRAIN (R287): LINK_CMD RETRAIN requests a warm retrain of a port at the next boundary. -/
  | linkRetrain (req : Option MsgCtx) (p : Nat)
  /-- LINK_RESTART (R280): LINK_CMD RESTART requests a cold restart of a port at the next boundary. -/
  | linkRestart (req : Option MsgCtx) (p : Nat)
  /-- PRBS_START (R296): LINK_CMD PRBS_START starts a near-end loopback on a lane that is not ACTIVE. -/
  | prbsStart (req : Option MsgCtx) (l : Nat) (len : Nat)
  /-- PRBS_STOP (R296): LINK_CMD PRBS_STOP aborts a loopback test. -/
  | prbsStop (req : Option MsgCtx) (l : Nat)
  /-- PRBS_DONE (R296): A loopback test has checked its bits and ends with PASS or FAIL. -/
  | prbsDone (l : Nat) (errors : Nat)
  /-- GET_PORT (R321): GET_PORT returns the status of a port and of its lanes. -/
  | getPort (req : MsgCtx) (w : List Word)
  /-- MAILBOX_REQUEST (R301): A request arrives for a mailbox and is taken, answered BUSY or answered with the held response. -/
  | mailboxRequest (path : Path) (words : List Word)
  /-- I2C_MESSAGE_WRITE (R308): An I²C write to pointer 0x00 + m delivers a message at STOP. -/
  | i2cMessageWrite (m : Nat) (bytes : List Byte)
  /-- I2C_RESPONSE_READ (R308): An I²C read at pointer 0x10 + m returns the held response. -/
  | i2cResponseRead (m : Nat)
  /-- I2C_READY_READ (R308): An I²C read at pointer 0x20 returns the READY and event-queue bits. -/
  | i2cReadyRead
  /-- I2C_EVENT_POP (R308): An I²C read at pointer 0x21 pops the oldest queued event message. -/
  | i2cEventPop
  /-- REQUEST_EXECUTE (R302): Horef takes the oldest request in REQUEST, checks its header and signature, and executes it. -/
  | requestExecute
  /-- RESPONSE_SEND (R302): A DOORBELL_OUT SEND sends the mailbox response on its path. -/
  | responseSend (m : Nat)
  /-- USER_MESSAGE (R331): A message of MSG_ID 0x8000 or above is passed to a user-firmware handler. -/
  | userMessage (req : MsgCtx) (id : Nat) (w : List Word)
  /-- HANDLER_RETURN (R332): A user handler returns its status and payload, and leftover dirty words are discarded. -/
  | handlerReturn (m : Nat) (status : Nat) (payload : List Word)
  /-- HANDLER_TIMEOUT (R332): A handler still running 500 µs after its request is answered BUSY. -/
  | handlerTimeout (m : Nat)
  /-- OPEN_SET_EXPIRE (R316): An open set with no message from its owner for 4 096 turns is discarded. -/
  | openSetExpire
  /-- EVENT_INTERVAL_END (R319): The 256-turn interval of an event bit ends, and one message carries the raises counted. -/
  | eventIntervalEnd (block : Nat) (bit : Nat)
  /-- TELEM_RECORD (R330): A due telemetry record is read in one TELEM pip and emitted. -/
  | telemRecord (id : Nat)
  /-- EVENT (R321): A request carrying the EVENT identifier returns BAD_ARG. -/
  | event (req : MsgCtx) (w : List Word)
  /-- GET_FEATURES (R321): GET_FEATURES returns FEATURES, chip ID, mode, role and firmware version. -/
  | getFeatures (req : MsgCtx) (w : List Word)
  /-- SET_CHIP_ID (R321): SET_CHIP_ID sets the chip ID in STANDBY and announces it. -/
  | setChipId (req : MsgCtx) (w : List Word)
  /-- PING (R321): PING returns its words. -/
  | ping (req : MsgCtx) (w : List Word)
  /-- GET_EVENT_LOG (R321): GET_EVENT_LOG returns up to 20 logged events. -/
  | getEventLog (req : MsgCtx) (w : List Word)
  /-- SAFE_ACK (R350): SAFE_ACK requests the exit from SAFE, or returns DENIED or NOT_CONFIRMED. -/
  | safeAck (req : MsgCtx) (w : List Word)
  /-- SET_MODE (R337): SET_MODE writes MODE_CTRL and seals it under its commit block. -/
  | setMode (req : MsgCtx) (w : List Word)
  /-- SEAL (R321): SEAL seals the mailbox's open set under its commit block. -/
  | seal (req : MsgCtx) (w : List Word)
  /-- GET_SLOTS (R321): GET_SLOTS returns the slot states, target turns and TRN_STATUS. -/
  | getSlots (req : MsgCtx) (w : List Word)
  /-- SET_BUDGET (R43): SET_BUDGET writes budget entries and seals them under R43. -/
  | setBudget (req : MsgCtx) (w : List Word)
  /-- SET_CHANNEL (R323): SET_CHANNEL writes masked field values into a register of every selected channel and seals them. -/
  | setChannel (req : MsgCtx) (w : List Word)
  /-- GET_CHANNEL (R324): GET_CHANNEL returns one register word for each channel of a range. -/
  | getChannel (req : MsgCtx) (w : List Word)
  /-- SET_TEST_PULSE (R87): SET_TEST_PULSE writes the test-pulse schedule and seals it. -/
  | setTestPulse (req : MsgCtx) (w : List Word)
  /-- GET_UNIT (R321): GET_UNIT returns the status, age and quality words of TDC units. -/
  | getUnit (req : MsgCtx) (w : List Word)
  /-- GET_TABLE (R321): GET_TABLE returns calibration table or histogram entries. -/
  | getTable (req : MsgCtx) (w : List Word)
  /-- GET_TIME (R321): GET_TIME returns AT, LT, ST and the time status. -/
  | getTime (req : MsgCtx) (w : List Word)
  /-- MON_INJECT (R417): MON_INJECT queues an injected monitor conversion, or returns BUSY or BAD_ARG. -/
  | monInject (req : Option MsgCtx) (w : List Word)
  /-- CAL_ZERO (R410): System calibration step ZERO measures the pending offset of a gain. -/
  | calZero (req : Option MsgCtx) (w : List Word)
  /-- CAL_FULL (R410): System calibration step FULL measures full scale and adopts the offset and gain if in range. -/
  | calFull (req : Option MsgCtx) (w : List Word)
  /-- CAL_STORE (R410): System calibration step STORE writes the active offset and gain of a gain code to MRAM. -/
  | calStore (req : Option MsgCtx) (w : List Word)
  /-- CAL_ABORT (R410): System calibration step ABORT stops a running step and discards the pending offset. -/
  | calAbort (req : Option MsgCtx) (w : List Word)
  /-- CAL_STEP_DONE (R411): A calibration step ends, CAL_DONE is raised and the sequencer resumes. -/
  | calStepDone (raw : Int)
  /-- MON_READ (R419): MON_READ returns the last result of an entry. -/
  | monRead (req : MsgCtx) (w : List Word)
  /-- GUARD_LOAD_GPB (R446): GUARD_LOAD_GPB checks a GPB and makes it pending, returning its check value. -/
  | guardLoadGpb (req : Option MsgCtx) (w : List Word)
  /-- GUARD_CONFIRM (R447): GUARD_CONFIRM schedules adoption of the pending GPB if CHECK and SERIAL match. -/
  | guardConfirm (req : Option MsgCtx) (w : List Word)
  /-- GUARD_CLEAR (R448): GUARD_CLEAR clears the latched trip causes if none is active. -/
  | guardClear (req : Option MsgCtx) (w : List Word)
  /-- GET_FAULTS (R468): GET_FAULTS pops up to MAX fault-queue entries. -/
  | getFaults (req : MsgCtx) (w : List Word)
  /-- GET_FIRST_ERROR (R469): GET_FIRST_ERROR returns a class's first-error capture and optionally clears it. -/
  | getFirstError (req : MsgCtx) (w : List Word)
  /-- SET_REACTION (R470): SET_REACTION writes reaction masks and severity counts and seals them. -/
  | setReaction (req : MsgCtx) (w : List Word)
  /-- GET_ATTESTATION (R489): GET_ATTESTATION returns a signed attestation report or the identity certificate. -/
  | getAttestation (req : MsgCtx) (w : List Word)
  /-- SET_TIME (R492): SET_TIME sets and persists ST, or returns REFUSED for a lower value. -/
  | setTime (req : MsgCtx) (w : List Word)
  /-- CLAIM_OWNERSHIP (R484): CLAIM_OWNERSHIP writes the new owner key and blows the next bank. -/
  | claimOwnership (req : MsgCtx) (w : List Word)
  /-- FW_BEGIN (R485): FW_BEGIN opens an update session and prepares slot B and slot A. -/
  | fwBegin (req : MsgCtx) (w : List Word)
  /-- FW_SLOT_PREPARED (R485): The slot copy and invalidation end, and FW_READY is raised. -/
  | fwSlotPrepared
  /-- FW_CHUNK (R492): FW_CHUNK writes image words into slot A. -/
  | fwChunk (req : MsgCtx) (w : List Word)
  /-- FW_VERIFY (R486): FW_ACTIVATE with OP VERIFY checks slot A and marks it TRIAL, optionally followed by a reset. -/
  | fwVerify (req : MsgCtx) (w : List Word)
  /-- FW_COMMIT (R487): FW_ACTIVATE with OP COMMIT raises the rollback counter, clears TRIAL and starts the copy to slot B. -/
  | fwCommit (req : MsgCtx) (w : List Word)
  /-- FW_COMMIT_COPY_DONE (R487): The copy of slot A into slot B ends, and FW_COMMITTED is raised. -/
  | fwCommitCopyDone
  /-- ACTIVATE_RESET (R486): 1 ms after an applied FW_ACTIVATE response, the Burjor resets as by RESET_N. -/
  | activateReset
  /-- DEBUG_CHALLENGE (R490): DEBUG_CHALLENGE unlocks or relocks debug scopes after its checks. -/
  | debugChallenge (req : MsgCtx) (w : List Word)
  /-- JTAG_SEC_MSG (R491): A DEBUG_CHALLENGE shifted in through SEC_MSG is executed as if it came from MBX_4. -/
  | jtagSecMsg (words : List Word)
  /-- PEEK (R327): PEEK reads consecutive register words with their side effects. -/
  | peek (req : MsgCtx) (w : List Word)
  /-- POKE (R328): POKE checks and then writes register pairs, sealing SH fields. -/
  | poke (req : MsgCtx) (w : List Word)
  /-- TELEM_DEFINE (R329): TELEM_DEFINE defines, replaces or deletes a telemetry record. -/
  | telemDefine (req : MsgCtx) (w : List Word)
  /-- TELEM_LIST (R329): TELEM_LIST returns the defined records. -/
  | telemList (req : MsgCtx) (w : List Word)
  /-- SCAN_WINDOW_OPEN (R340): A scan step's count window opens, for BTRIM once OUT reaches the target. -/
  | scanWindowOpen
  /-- SCAN_STEP_END (R340): A count window of STEP_TURNS ends, the step's histogram is emitted and the next step or DONE follows. -/
  | scanStepEnd
  /-- POWER_ON_RESET (R343): A monitored rail falls below its threshold for more than 2 µs, and power-on reset is asserted. -/
  | powerOnReset
  /-- POR_RELEASE (R343): 1 ms after every rail is back in range, power-on reset releases. -/
  | porRelease
  /-- RESET_N_ASSERT (R344): RESET_N held low for 1 µs resets the Burjor and drives the guard outputs low. -/
  | resetNAssert
  /-- RESET_RELEASE (R345): Reset releases, and BOOT starts the boot ROM in local turns. -/
  | resetRelease
  /-- NO_REFCLK_TIMEOUT (R345): With no REFCLK after 10 ms, BOOT stays with BOOT_ERR NO_REFCLK. -/
  | noRefclkTimeout
  /-- BOOT_PLL_LOCK (R345): The PLLs lock, and the ROM reads the fuses. -/
  | bootPllLock
  /-- BOOT_SRAM_INIT_DONE (R383): The initialisation engine has written every SRAM with zero and valid check bits. -/
  | bootSramInitDone
  /-- BOOT_MONITOR_VERIFY (R483): The ROM verifies monitor slot A, then slot B. -/
  | bootMonitorVerify
  /-- BOOT_HOREF_VERIFY (R483): The monitor verifies the Horef slots, or the Burjor enters recovery. -/
  | bootHorefVerify
  /-- BOOT_USER_VERIFY (R483): The monitor verifies the user-firmware slots. -/
  | bootUserVerify
  /-- BOOT_SDRAM_TRAIN_DONE (R395): SDRAM training and pattern test end, and SDRAM_GIB is set. -/
  | bootSdramTrainDone (gib : Nat) (info : Word)
  /-- BOOT_END (R345): BOOT ends and STANDBY (or SAFE) begins; calibration, lanes and I²C start. -/
  | bootEnd
  /-- WATCHDOG_EXPIRE (R467): Without a kick within PERIOD turns, the watchdog resets the Burjor. -/
  | watchdogExpire (pc : Word)
  /-- WDOG_KICK (R467): A write of KICK restarts the watchdog period. -/
  | wdogKick (val : Word)
  /-- LOCKSTEP_MISMATCH (R467): The lockstep cores disagree, and a lockstep reset follows within 1 µs. -/
  | lockstepMismatch (pc : Word)
  /-- DMA_KICK (R355): CH_CMD KICK makes an IDLE channel fetch at HEAD. -/
  | dmaKick (c : Nat)
  /-- DMA_RESUME (R369): CH_CMD RESUME refetches the descriptor of a HALTED channel. -/
  | dmaResume (c : Nat)
  /-- DMA_ABORT (R369): CH_CMD ABORT ends the running descriptor with ABORTED. -/
  | dmaAbort (c : Nat)
  /-- DMA_RESET (R369): CH_CMD RESET sets HEAD to 0 on an IDLE or HALTED channel. -/
  | dmaReset (c : Nat)
  /-- DESCRIPTOR_FETCH (R354): A channel reads the descriptor at HEAD, idles, halts with BAD_DESC or starts moving data. -/
  | descriptorFetch (c : Nat) (corr : List Nat) (unc : List Nat)
  /-- DMA_BURST (R358): A burst is issued once budget, sluice and request allow, and is checked first. -/
  | dmaBurst (c : Nat) (corr : List Nat) (unc : List Nat)
  /-- DESCRIPTOR_COMPLETE (R362): After the last burst and any barrier, status and OWN are written and HEAD advances or the channel halts. -/
  | descriptorComplete (c : Nat)
  /-- SCRUB_STEP (R388): A scrubber reads and checks its next unit under its SCRUB grant. -/
  | scrubStep (m : Nat) (corr : List Nat) (unc : List Nat)
  /-- BUCKET_LEAK (R387): Every 2^LEAK_LOG2 turns, each bucket level falls by one. -/
  | bucketLeak (f : Nat)
  /-- SWEEP_LATE (R389): An SRAM sweep not complete within 10 s raises SWEEP_LATE. -/
  | sweepLate
  /-- ROW_COPY_DONE (R391): An SDRAM row copy into a spare slot ends. -/
  | rowCopyDone
  /-- FLIP_ARM (R393): Setting FLIP_CTRL.ARM arms the flip mask for the next matching write. -/
  | flipArm (val : Word)
  /-- FIFO_FLUSH (R382): After a FIFO_PROT change, each changed FIFO is flushed once its producer finishes the current item. -/
  | fifoFlush (cls : Nat)
  /-- FREE_LIST_REBUILD (R385): Once per round, Horef rebuilds the free-page list from the descriptors. -/
  | freeListRebuild
  /-- MON_ENTRY_START (R403): At an entry boundary, the next injection or sequencer entry starts its multiplexer and excitation. -/
  | monEntryStart
  /-- MON_SETTLE_DONE (R403): The settling time ends, and conversions begin. -/
  | monSettleDone
  /-- MON_CONVERSION_DONE (R398): A conversion ends; its result is corrected, stored, emitted and passed to the guard. -/
  | monConversionDone (raw : Int)
  /-- MON_ENTRY_END (R403): An entry's delay ends, which is the next entry boundary. -/
  | monEntryEnd
  /-- EXCITATION_TRIP (R409): The compliance comparator trips, the excitation stops and an OPEN result is produced. -/
  | excitationTrip
  /-- REF_READY (R399): 5 ms after REF_EN lands, REF_READY becomes 1 at a boundary. -/
  | refReady
  /-- BIAS_LOOP_POST (R415): The run ends and posts a BTRIM code for each served channel. -/
  | biasLoopPost
  /-- OPEN_HOLD_EXPIRE (R416): OPEN_HOLD turns after entry the hold expires, and the group goes to the safe level. -/
  | openHoldExpire (k : Nat)
  /-- GUARD_DATA_LOSS (R428): A lane gets no snapshot for 1 ms and trips DATA_LOSS. -/
  | guardDataLoss (l : Nat)
  /-- GUARD_HV_STALE (R428): No usable HV result for HV_AGE trips HV_STALE. -/
  | guardHvStale (ch : Nat)
  /-- HV_SETTLE_END (R426): HV_SETTLE after the outputs came on, the HV_MIN check begins to apply. -/
  | hvSettleEnd
  /-- GUARD_IN_CHANGE (R429): GUARD_IN_A or GUARD_IN_B changes level, which may be a demand trip. -/
  | guardInChange (a : Bool) (b : Bool)
  /-- GUARD_EQUIV_TIMEOUT (R429): Inputs that differ for 20 ms trip EQUIV. -/
  | guardEquivTimeout
  /-- CHAIN_EDGE (R430): An edge on GUARD_CHAIN_IN restarts the chain interval check. -/
  | chainEdge (interval : Nat)
  /-- CHAIN_LOSS (R430): A chain interval outside 30 to 120 µs is chain loss, which trips or is reported. -/
  | chainLoss
  /-- GUARD_VOTE (R433): Every 1 ms each lane compares its state word with the vote and may exclude itself. -/
  | guardVote (words : List Word)
  /-- OUTPUT_TEST_START (R434): An output test interval expires, and the output is driven low for T_OFF. -/
  | outputTestStart (b : Bool)
  /-- TEST_FEEDBACK_CHECK (R434): 20 µs after the output goes low, or 50 µs after it returns, the feedback is checked. -/
  | testFeedbackCheck
  /-- OUTPUT_TEST_END (R434): T_OFF ends, and the tested output is driven high again. -/
  | outputTestEnd
  /-- FEEDBACK_CHANGE (R436): GUARD_FB_A or GUARD_FB_B changes level. -/
  | feedbackChange (a : Bool) (b : Bool)
  /-- FEEDBACK_MISMATCH (R436): A feedback mismatch that lasts more than 50 µs trips FEEDBACK. -/
  | feedbackMismatch (b : Bool)
  /-- SELFTEST_START (R462): The next queued self-test starts once its element can be taken. -/
  | selftestStart
  /-- SELFTEST_DONE (R464): A self-test run ends, and is repeated or classes its element TRANSIENT or LASTING. -/
  | selftestDone (pass : Bool)
  /-- FAULT_ACCEPT (R460): FLT_CMD ACCEPT ends every safety hold except a LASTING core. -/
  | faultAccept
  /-- FAULT_FLUSH (R455): FLT_CMD FLUSH empties the fault queue and counts the entries as DROPPED. -/
  | faultFlush
  /-- FE_CLEAR (R457): A write of FE_CLEAR clears the first-error capture of the selected classes. -/
  | feClear (mask : Word)
  /-- WORLD_MAP_WRITE (R475): Secure firmware writes a world bit or region descriptor, ignored with LOCKED_WRITE if locked. -/
  | worldMapWrite (off : Nat) (val : Word)
  /-- SYMBOL_LOCK (R277): In LOCK, the lane's receiver reaches bit lock and symbol lock on the incoming stream, and the lane starts sending TS with LOCKED = 1. -/
  | symbolLock (l : Nat)
  /-- DEBUG_PORT_ACCESS (R490): An instruction or access arrives on the IEEE 1149.1 port, such as EXTEST, or a halt, step or fabric access under NS_DEBUG or S_DEBUG; it is executed if its scope is unlocked, and under R477 a world violation returns zero and reports WORLD. -/
  | debugPortAccess (acc : DebugAccess)
  /-- PARITY_ALERT (R394): A registered SDRAM module raises a command/address parity alert on DDR_ALERT_N, and the port retries the command. -/
  | parityAlert
  deriving DecidableEq, Repr

end Sys2Proof
end

