-- ==== Sys2Proof/Config.lean ====
section
/-! DEFINITION. What one Burjor fixes for good (its variant, its fuses, straps and MRAM contents as delivered) and the
values that the spec leaves open. -/

namespace Sys2Proof.Config

/-- The n-th free value: a value some rule of the spec leaves open. Nothing is known of it. -/
opaque freeWord : Nat → Word64

/-- SHA-384 of a sequence of bytes as 12 words, most significant first (R312). -/
opaque sha384 : List Byte → List Word

/-- Does the ECDSA P-384 signature `sig` (r then s, 24 words) over the hash verify under a public key of 24 words (R312,
R479)? -/
opaque ecdsaVerify : (key hash sig : List Word) → Bool

/-- The vendor public key in the vendor area, 24 words (R479). -/
opaque vendorKey : List Word

/-- VENDOR_KEY_HASH of the fuses, 12 words (R478). -/
opaque vendorKeyHash : List Word

/-- The public key derived from the PUF matches the identity certificate (R488). -/
opaque identityOk : Bool

/-- The running user firmware declares a handler for a MSG_ID (R331). -/
opaque hasHandler : Nat → Bool

/-- The ECDSA P-384 signature of the chip's attestation key over a hash, 24 words (R489). -/
opaque ecdsaSign : (hash : List Word) → List Word

/-- The identity certificate's word at an index (R488). -/
opaque certWord : Nat → Word

/-- The byte of the boot ROM at an offset; the spec gives no contents (R371). -/
opaque romByte : Nat → Byte

/-- The byte of the MRAM at an offset as delivered, until it is written; the spec gives no contents (R376). -/
opaque mramByte : Nat → Byte

/-- What the factory measured of the excitation current, as steps of 1 nA above 247.5 µA; the value lies within the limits of
R420 (R407). -/
opaque excCurrent : Nat

/-- TX_DELAY (0) and RX_DELAY (1) of a timing port as the factory measured them (PORT_CAL, R345); the spec gives no numbers. -/
opaque factoryPortCal : (port which : Nat) → Nat

/-- OFFSET and GAIN of the factory set of a gain code (R410); the spec gives no numbers. -/
opaque factoryCal : Nat → Int × Nat

/-- The upper 48 bits of clockIdentity in the Burjor's portIdentity; the spec gives the low 16, the chip ID (R50). -/
opaque clockIdentityHigh : Nat

/-- The bytes of a Delay_Req that the spec does not give, by their place in the message: majorSdoId, minorSdoId, flagField,
correctionField, messageTypeSpecific, controlField, logMessageInterval and originTimestamp (R50). -/
opaque delayReqByte : Nat → Byte

/-- The SDRAM row of a 4 KiB page, as REMAP_DATA designates rows; the spec gives no mapping (R391). -/
opaque rowOf : Nat → Nat

/-- The pages of an SDRAM row (R392); the spec gives no mapping. -/
opaque rowPages : Nat → List Nat

/-- FEATURES of this Burjor: a BJ64-X with 16 GiB fitted (R6). DESIGN CHOICE: the spec gives three variants. -/
def features : Word := 0x1424001F

/-- 64-bit DIE_ID of the fuses, an open value of each die (DIE_ID_LO, DIE_ID_HI). -/
def dieId : Word64 := 0

/-- The strap inputs I2C_ADDR[2:0] (R308). -/
def i2cStrap : Nat := 0

end Sys2Proof.Config
end

