-- ==== Sys2Proof/Machine/RegMap.lean ====
section
/-! DEFINITION. The register map of the Burjor, register block by register block, as the register tables of spec/ give
it (R14, R15; the blocks in the order of R196): one row for each register, its offset and index strides, its world, the
bits of each access code of R15 and the reset word. The key of a register is its byte offset from 0x00_1000_0000. -/

namespace Sys2Proof.Machine

/-- One register (or indexed family of registers) of a block. -/
structure RegRow where
  /-- byte offset within the block, of index (0, 0) -/
  off : Nat
  /-- count and stride of the first index (count 1 where there is none) -/
  n0 : Nat
  s0 : Nat
  /-- count and stride of the second index -/
  n1 : Nat
  s1 : Nat
  /-- secure page (R15, *Worlds*) -/
  secure : Bool
  /-- a CUR_* mirror: the offset of the SH register whose active value it shows -/
  cur : Option Nat
  /-- a saturating TL counter (R38 to R40) -/
  cnt : Bool
  rw : Nat
  w1c : Nat
  w1s : Nat
  sh : Nat
  tl : Nat
  rst : Nat
  deriving DecidableEq, Repr

/-- A bit field of a register: the register's key and the field's highest and lowest bit. -/
structure FRef where
  key : Nat
  hi : Nat
  lo : Nat
  deriving DecidableEq, Repr

/-- The registers of the TRN block, in the order of the chapter. -/
def regsTRN : List RegRow := [
  ⟨0x0, 1, 0, 1, 0, false, none, false, 0x0, 0x0, 0x0, 0x0, 0x0, 0x0⟩,
  ⟨0x4, 1, 0, 1, 0, false, none, false, 0x0, 0x0, 0x0, 0x0, 0x0, 0x0⟩,
  ⟨0x8, 1, 0, 1, 0, false, none, false, 0x0, 0x0, 0x0, 0x0, 0x0, 0x0⟩,
  ⟨0xC, 1, 0, 1, 0, false, none, false, 0x0, 0x0, 0x0, 0x0, 0x0, 0x0⟩,
  ⟨0x10, 1, 0, 1, 0, false, none, false, 0xFFFFFFFF, 0x0, 0x0, 0x0, 0x0, 0x0⟩,
  ⟨0x14, 1, 0, 1, 0, false, none, false, 0xFFFF, 0x0, 0x0, 0x0, 0x0, 0x0⟩,
  ⟨0x18, 1, 0, 1, 0, false, none, false, 0x0, 0x0, 0x0, 0x0, 0x0, 0x0⟩,
  ⟨0x1C, 1, 0, 1, 0, false, none, false, 0x0, 0xC0000000, 0x0, 0x0, 0x0, 0x0⟩,
  ⟨0x20, 1, 0, 1, 0, false, none, false, 0x0, 0x0, 0x0, 0x0, 0x0, 0x0⟩,
  ⟨0x28, 1, 0, 1, 0, false, none, false, 0x0, 0x3FF, 0x0, 0x0, 0x0, 0x0⟩,
  ⟨0x2C, 1, 0, 1, 0, false, none, false, 0x3FF, 0x0, 0x0, 0x0, 0x0, 0x33C⟩,
  ⟨0x40, 8, 8, 1, 0, false, none, false, 0x0, 0x0, 0x0, 0x0, 0x0, 0x0⟩,
  ⟨0x44, 8, 8, 1, 0, false, none, false, 0x0, 0x0, 0x0, 0x0, 0x0, 0x0⟩,
  ⟨0x100, 3, 32, 7, 4, false, none, false, 0x3FF, 0x0, 0x0, 0x3FF, 0x0, 0x0⟩,
  ⟨0x160, 3, 4, 1, 0, false, none, false, 0x0, 0x0, 0x0, 0x0, 0x0, 0x0⟩,
  ⟨0x200, 3, 32, 7, 4, false, (some 0x100), false, 0x0, 0x0, 0x0, 0x0, 0x0, 0x0⟩,
  ⟨0x300, 3, 32, 7, 4, false, none, false, 0x0, 0x0, 0x0, 0x0, 0x1F3FFF, 0x0⟩,
  ⟨0x400, 3, 32, 7, 4, false, none, true, 0x7FFFFFFF, 0x0, 0x0, 0x0, 0xFFFFFFFF, 0x0⟩,
  ⟨0x500, 3, 32, 7, 4, false, none, true, 0x7FFFFFFF, 0x0, 0x0, 0x0, 0xFFFFFFFF, 0x0⟩]

/-- The registers of the TIME block, in the order of the chapter. -/
def regsTIME : List RegRow := [
  ⟨0x0, 1, 0, 1, 0, false, none, false, 0x0, 0x0, 0x0, 0x0, 0x0, 0x0⟩,
  ⟨0x4, 1, 0, 1, 0, false, none, false, 0x3FFFF9FF, 0x0, 0x0, 0x3FFFF9FF, 0x0, 0x4004010⟩,
  ⟨0x8, 1, 0, 1, 0, false, none, false, 0x1F1F, 0x0, 0x0, 0x1F1F, 0x0, 0x811⟩,
  ⟨0xC, 1, 0, 1, 0, false, none, false, 0xFFFFFFFF, 0x0, 0x0, 0xFFFFFFFF, 0x0, 0x1F404010⟩,
  ⟨0x10, 1, 0, 1, 0, false, none, false, 0x0, 0x0, 0x0, 0x0, 0xFFFFFFFF, 0x0⟩,
  ⟨0x14, 1, 0, 1, 0, false, none, false, 0x0, 0x0, 0x0, 0x0, 0x0, 0x0⟩,
  ⟨0x20, 2, 4, 1, 0, false, none, false, 0x0, 0x0, 0x0, 0x0, 0xFFFFFFFF, 0x0⟩,
  ⟨0x28, 2, 4, 1, 0, false, none, false, 0x0, 0x0, 0x0, 0x0, 0xFFFFFFFF, 0x0⟩,
  ⟨0x30, 1, 0, 1, 0, false, none, false, 0x0, 0x0, 0x0, 0x0, 0xFFFFFFFF, 0x0⟩,
  ⟨0x40, 2, 16, 3, 4, false, none, false, 0xFFFFFFFF, 0x0, 0x0, 0xFFFFFFFF, 0x0, 0x0⟩,
  ⟨0x60, 1, 0, 1, 0, false, none, false, 0x0, 0x0, 0x0, 0x0, 0x0, 0x0⟩,
  ⟨0x64, 1, 0, 1, 0, false, none, false, 0x0, 0x0, 0x0, 0x0, 0x0, 0x0⟩,
  ⟨0x68, 1, 0, 1, 0, false, none, false, 0x0, 0x0, 0x0, 0x0, 0x0, 0x0⟩,
  ⟨0x70, 1, 0, 1, 0, false, none, false, 0x0, 0x7FF, 0x0, 0x0, 0x0, 0x0⟩,
  ⟨0x74, 1, 0, 1, 0, false, none, false, 0x7FF, 0x0, 0x0, 0x0, 0x0, 0x7FF⟩,
  ⟨0x80, 13, 4, 1, 0, false, none, true, 0x7FFFFFFF, 0x0, 0x0, 0x0, 0xFFFFFFFF, 0x0⟩,
  ⟨0x100, 4, 32, 1, 0, false, none, false, 0x0, 0x80000000, 0x0, 0x0, 0x0, 0x0⟩,
  ⟨0x104, 4, 32, 1, 0, false, none, false, 0x0, 0x0, 0x0, 0x0, 0x0, 0x0⟩,
  ⟨0x108, 4, 32, 1, 0, false, none, false, 0x0, 0x0, 0x0, 0x0, 0x0, 0x0⟩,
  ⟨0x10C, 4, 32, 1, 0, false, none, false, 0x0, 0x0, 0x0, 0x0, 0x0, 0x0⟩,
  ⟨0x110, 4, 32, 1, 0, false, none, false, 0x0, 0x0, 0x0, 0x0, 0x0, 0x0⟩]

/-- The registers of the AFE block, in the order of the chapter. -/
def regsAFE : List RegRow := [
  ⟨0x0, 1, 0, 1, 0, false, none, false, 0x0, 0x0, 0x0, 0x0, 0x0, 0x10000000⟩,
  ⟨0x10, 1, 0, 1, 0, false, none, false, 0x8000FFFF, 0x0, 0x0, 0x8000FFFF, 0x0, 0x0⟩,
  ⟨0x14, 1, 0, 1, 0, false, none, false, 0xFFFFFFFF, 0x0, 0x0, 0xFFFFFFFF, 0x0, 0x0⟩,
  ⟨0x18, 1, 0, 1, 0, false, none, false, 0xFFFF, 0x0, 0x0, 0xFFFF, 0x0, 0x0⟩,
  ⟨0x1C, 1, 0, 1, 0, false, none, false, 0x3FFF, 0x0, 0x0, 0x3FFF, 0x0, 0x0⟩,
  ⟨0x30, 1, 0, 1, 0, false, (some 0x10), false, 0x0, 0x0, 0x0, 0x0, 0x0, 0x0⟩,
  ⟨0x34, 1, 0, 1, 0, false, (some 0x14), false, 0x0, 0x0, 0x0, 0x0, 0x0, 0x0⟩,
  ⟨0x38, 1, 0, 1, 0, false, (some 0x18), false, 0x0, 0x0, 0x0, 0x0, 0x0, 0x0⟩,
  ⟨0x3C, 1, 0, 1, 0, false, (some 0x1C), false, 0x0, 0x0, 0x0, 0x0, 0x0, 0x0⟩,
  ⟨0x40, 1, 0, 1, 0, false, none, false, 0x0, 0x1F, 0x0, 0x0, 0x0, 0x0⟩,
  ⟨0x44, 1, 0, 1, 0, false, none, false, 0x1F, 0x0, 0x0, 0x0, 0x0, 0x1B⟩,
  ⟨0x80, 4, 4, 1, 0, false, none, true, 0x7FFFFFFF, 0x0, 0x0, 0x0, 0xFFFFFFFF, 0x0⟩,
  ⟨0x200, 8, 4, 1, 0, false, none, false, 0x0, 0x0, 0x0, 0x0, 0x7FFFF, 0x0⟩,
  ⟨0x1000, 64, 64, 1, 0, false, none, false, 0xFFFFF3FF, 0x0, 0x0, 0xFFFFF3FF, 0x0, 0x48410000⟩,
  ⟨0x1004, 64, 64, 1, 0, false, none, false, 0x80000FFF, 0x0, 0x0, 0x80000FFF, 0x0, 0xFFF⟩,
  ⟨0x1008, 64, 64, 1, 0, false, none, false, 0xFFFF03FF, 0x0, 0x0, 0xFFFF03FF, 0x0, 0x4BFF0014⟩,
  ⟨0x100C, 64, 64, 1, 0, false, none, false, 0x3FF03FF, 0x0, 0x0, 0x3FF03FF, 0x0, 0x0⟩,
  ⟨0x1010, 64, 64, 1, 0, false, none, false, 0xFFFF, 0x0, 0x0, 0xFFFF, 0x0, 0x0⟩,
  ⟨0x1014, 64, 64, 1, 0, false, none, false, 0x0, 0x0, 0x0, 0x0, 0x0, 0xFFF0FFF⟩,
  ⟨0x1018, 64, 64, 1, 0, false, none, false, 0x0, 0x0, 0x0, 0x0, 0x8000FFFF, 0x0⟩,
  ⟨0x101C, 64, 64, 1, 0, false, none, true, 0x7FFFFFFF, 0x0, 0x0, 0x0, 0xFFFFFFFF, 0x0⟩,
  ⟨0x1020, 64, 64, 1, 0, false, (some 0x1000), false, 0x0, 0x0, 0x0, 0x0, 0x0, 0x48410000⟩,
  ⟨0x1024, 64, 64, 1, 0, false, (some 0x1004), false, 0x0, 0x0, 0x0, 0x0, 0x0, 0xFFF⟩,
  ⟨0x1028, 64, 64, 1, 0, false, (some 0x1008), false, 0x0, 0x0, 0x0, 0x0, 0x0, 0x4BFF0014⟩,
  ⟨0x102C, 64, 64, 1, 0, false, (some 0x100C), false, 0x0, 0x0, 0x0, 0x0, 0x0, 0x0⟩,
  ⟨0x1030, 64, 64, 1, 0, false, (some 0x1010), false, 0x0, 0x0, 0x0, 0x0, 0x0, 0x0⟩]

/-- The registers of the TDC block, in the order of the chapter. -/
def regsTDC : List RegRow := [
  ⟨0x0, 1, 0, 1, 0, false, none, false, 0x0, 0x0, 0x0, 0x0, 0x0, 0x84⟩,
  ⟨0x4, 1, 0, 1, 0, false, none, false, 0xFF, 0x0, 0x0, 0xFF, 0x0, 0x8D⟩,
  ⟨0x8, 1, 0, 1, 0, false, none, false, 0xFFFFFFFF, 0x0, 0x0, 0xFFFFFFFF, 0x0, 0x18200020⟩,
  ⟨0x10, 1, 0, 1, 0, false, (some 0x4), false, 0x0, 0x0, 0x0, 0x0, 0x0, 0x8D⟩,
  ⟨0x14, 1, 0, 1, 0, false, (some 0x8), false, 0x0, 0x0, 0x0, 0x0, 0x0, 0x18200020⟩,
  ⟨0x20, 1, 0, 1, 0, false, none, false, 0x0, 0x0, 0x0, 0x0, 0x0, 0x0⟩,
  ⟨0x24, 1, 0, 1, 0, false, none, false, 0x0, 0x0, 0x0, 0x0, 0x0, 0x0⟩,
  ⟨0x30, 1, 0, 1, 0, false, none, false, 0x0, 0x3F, 0x0, 0x0, 0x0, 0x0⟩,
  ⟨0x34, 1, 0, 1, 0, false, none, false, 0x3F, 0x0, 0x0, 0x0, 0x0, 0x3B⟩,
  ⟨0x40, 1, 0, 1, 0, false, none, false, 0xC03FCFFF, 0x0, 0x0, 0x0, 0x0, 0x0⟩,
  ⟨0x44, 1, 0, 1, 0, false, none, false, 0x0, 0x0, 0x0, 0x0, 0x0, 0x0⟩,
  ⟨0x80, 1, 0, 1, 0, false, none, false, 0xFF, 0x0, 0x0, 0xFF, 0x0, 0x0⟩,
  ⟨0x84, 1, 0, 1, 0, false, (some 0x80), false, 0x0, 0x0, 0x0, 0x0, 0x0, 0x0⟩,
  ⟨0x400, 64, 4, 1, 0, false, none, false, 0x3F, 0x0, 0x0, 0x3F, 0x0, 0x3⟩,
  ⟨0x500, 64, 4, 1, 0, false, (some 0x400), false, 0x0, 0x0, 0x0, 0x0, 0x0, 0x3⟩,
  ⟨0x800, 4, 64, 1, 0, false, none, false, 0xF000FFFF, 0x0, 0x0, 0xF000FFFF, 0x0, 0x81⟩,
  ⟨0x804, 4, 64, 1, 0, false, none, false, 0xC000FFFF, 0x0, 0x0, 0xC000FFFF, 0x0, 0x400⟩,
  ⟨0x808, 4, 64, 1, 0, false, none, false, 0x3FFFF, 0x0, 0x0, 0x0, 0x0, 0x0⟩,
  ⟨0x80C, 4, 64, 1, 0, false, none, false, 0x0, 0x0, 0x0, 0x0, 0x0, 0x0⟩,
  ⟨0x810, 4, 64, 1, 0, false, none, false, 0x0, 0x0, 0x0, 0x0, 0x0, 0x0⟩,
  ⟨0x814, 4, 64, 1, 0, false, none, false, 0x0, 0x0, 0x0, 0x0, 0x0, 0x0⟩,
  ⟨0x818, 4, 64, 1, 0, false, none, false, 0x0, 0x0, 0x0, 0x0, 0x0, 0x0⟩,
  ⟨0x81C, 4, 64, 1, 0, false, none, false, 0x0, 0x0, 0x0, 0x0, 0x0, 0x0⟩,
  ⟨0x820, 4, 64, 1, 0, false, none, false, 0x0, 0x0, 0x0, 0x0, 0x0, 0x0⟩,
  ⟨0x830, 4, 64, 1, 0, false, (some 0x800), false, 0x0, 0x0, 0x0, 0x0, 0x0, 0x81⟩,
  ⟨0x834, 4, 64, 1, 0, false, (some 0x804), false, 0x0, 0x0, 0x0, 0x0, 0x0, 0x400⟩,
  ⟨0x2000, 132, 16, 1, 0, false, none, false, 0x0, 0x0, 0x0, 0x0, 0x0, 0x20072000⟩,
  ⟨0x2004, 132, 16, 1, 0, false, none, false, 0x0, 0x0, 0x0, 0x0, 0xFFFFFFFF, 0x0⟩,
  ⟨0x2008, 132, 16, 1, 0, false, none, false, 0x0, 0x0, 0x0, 0x0, 0x0, 0x0⟩,
  ⟨0x4000, 132, 32, 6, 4, false, none, true, 0x7FFFFFFF, 0x0, 0x0, 0x0, 0xFFFFFFFF, 0x0⟩]

/-- The registers of the CAP block, in the order of the chapter. -/
def regsCAP : List RegRow := [
  ⟨0x0, 1, 0, 1, 0, false, none, false, 0x0, 0x0, 0x0, 0x0, 0x0, 0x2800⟩,
  ⟨0x4, 1, 0, 1, 0, false, none, false, 0xF000F, 0x0, 0x0, 0xF000F, 0x0, 0x80006⟩,
  ⟨0x8, 1, 0, 1, 0, false, none, false, 0x3FFF3FFF, 0x0, 0x0, 0x3FFF3FFF, 0x0, 0xC00040⟩,
  ⟨0xC, 1, 0, 1, 0, false, none, false, 0xF000FFF, 0x0, 0x0, 0xF000FFF, 0x0, 0x8000500⟩,
  ⟨0x10, 1, 0, 1, 0, false, none, false, 0xFFFFFF80, 0x0, 0x0, 0xFFFFFF80, 0x0, 0xD04080⟩,
  ⟨0x20, 8, 4, 1, 0, false, none, false, 0xF0000000, 0x0, 0x0, 0xF0000000, 0x0, 0x90000000⟩,
  ⟨0x40, 1, 0, 1, 0, false, none, false, 0xFFFFFFFF, 0x0, 0x0, 0x0, 0x0, 0x0⟩,
  ⟨0x44, 1, 0, 1, 0, false, none, false, 0xFFFFFFFF, 0x0, 0x0, 0x0, 0x0, 0x0⟩,
  ⟨0x48, 1, 0, 1, 0, false, none, false, 0x0, 0x0, 0x0, 0x0, 0x0, 0x0⟩,
  ⟨0x80, 1, 0, 1, 0, false, (some 0x4), false, 0x0, 0x0, 0x0, 0x0, 0x0, 0x80006⟩,
  ⟨0x84, 1, 0, 1, 0, false, (some 0x8), false, 0x0, 0x0, 0x0, 0x0, 0x0, 0xC00040⟩,
  ⟨0x88, 1, 0, 1, 0, false, (some 0xC), false, 0x0, 0x0, 0x0, 0x0, 0x0, 0x8000500⟩,
  ⟨0x8C, 1, 0, 1, 0, false, (some 0x10), false, 0x0, 0x0, 0x0, 0x0, 0x0, 0xD04080⟩,
  ⟨0xA0, 8, 4, 1, 0, false, (some 0x20), false, 0x0, 0x0, 0x0, 0x0, 0x0, 0x90000000⟩,
  ⟨0xC0, 1, 0, 1, 0, false, none, false, 0x0, 0x3F, 0x0, 0x0, 0x0, 0x0⟩,
  ⟨0xC4, 1, 0, 1, 0, false, none, false, 0x3F, 0x0, 0x0, 0x0, 0x0, 0x23⟩,
  ⟨0x100, 6, 4, 1, 0, false, none, true, 0x7FFFFFFF, 0x0, 0x0, 0x0, 0xFFFFFFFF, 0x0⟩,
  ⟨0x1000, 64, 64, 1, 0, false, none, false, 0xFFE00FFF, 0x0, 0x0, 0xFFE00FFF, 0x0, 0x200064⟩,
  ⟨0x1004, 64, 64, 1, 0, false, none, false, 0x0, 0x0, 0x0, 0x0, 0x0, 0x280000⟩,
  ⟨0x1008, 64, 64, 1, 0, false, (some 0x1000), false, 0x0, 0x0, 0x0, 0x0, 0x0, 0x200064⟩,
  ⟨0x1010, 64, 64, 6, 4, false, none, true, 0x7FFFFFFF, 0x0, 0x0, 0x0, 0xFFFFFFFF, 0x0⟩]

/-- The registers of the SE block, in the order of the chapter. -/
def regsSE : List RegRow := [
  ⟨0x0, 1, 0, 1, 0, false, none, false, 0x0, 0x0, 0x0, 0x0, 0x0, 0x0⟩,
  ⟨0x4, 1, 0, 1, 0, false, none, false, 0x1, 0x0, 0x0, 0x1, 0x0, 0x0⟩,
  ⟨0x8, 1, 0, 1, 0, false, (some 0x4), false, 0x0, 0x0, 0x0, 0x0, 0x0, 0x0⟩,
  ⟨0x10, 1, 0, 1, 0, false, none, false, 0x0, 0xF, 0x0, 0x0, 0x0, 0x0⟩,
  ⟨0x14, 1, 0, 1, 0, false, none, false, 0xF, 0x0, 0x0, 0x0, 0x0, 0xD⟩,
  ⟨0x20, 1, 0, 1, 0, false, none, false, 0xB03F007F, 0x0, 0x0, 0x0, 0x0, 0x0⟩,
  ⟨0x24, 1, 0, 1, 0, false, none, false, 0xFFFF, 0x0, 0x0, 0x0, 0x0, 0x0⟩,
  ⟨0x100, 8, 32, 5, 4, false, none, true, 0x7FFFFFFF, 0x0, 0x0, 0x0, 0xFFFFFFFF, 0x0⟩,
  ⟨0x1000, 64, 64, 1, 0, false, none, false, 0xFFFFFFFF, 0x0, 0x0, 0xFFFFFFFF, 0x0, 0x81045032⟩,
  ⟨0x1004, 64, 64, 1, 0, false, none, false, 0x3FFF3FFF, 0x0, 0x0, 0x3FFF3FFF, 0x0, 0x3FF80040⟩,
  ⟨0x1008, 64, 64, 1, 0, false, none, false, 0xFFFFFF, 0x0, 0x0, 0xFFFFFF, 0x0, 0x0⟩,
  ⟨0x100C, 64, 64, 1, 0, false, none, false, 0x1FFFF, 0x0, 0x0, 0x1FFFF, 0x0, 0x1FFFF⟩,
  ⟨0x1010, 64, 64, 1, 0, false, none, false, 0x8001FFFF, 0x0, 0x0, 0x8001FFFF, 0x0, 0x10000⟩,
  ⟨0x1014, 64, 64, 1, 0, false, (some 0x1000), false, 0x0, 0x0, 0x0, 0x0, 0x0, 0x81045032⟩,
  ⟨0x1018, 64, 64, 1, 0, false, (some 0x1004), false, 0x0, 0x0, 0x0, 0x0, 0x0, 0x3FF80040⟩,
  ⟨0x101C, 64, 64, 1, 0, false, (some 0x1008), false, 0x0, 0x0, 0x0, 0x0, 0x0, 0x0⟩,
  ⟨0x1020, 64, 64, 1, 0, false, (some 0x100C), false, 0x0, 0x0, 0x0, 0x0, 0x0, 0x1FFFF⟩,
  ⟨0x1024, 64, 64, 1, 0, false, (some 0x1010), false, 0x0, 0x0, 0x0, 0x0, 0x0, 0x10000⟩,
  ⟨0x1028, 64, 64, 1, 0, false, none, false, 0x0, 0x0, 0x0, 0x0, 0x0, 0x10000⟩,
  ⟨0x102C, 64, 64, 1, 0, false, none, false, 0x0, 0x0, 0x0, 0x0, 0x0, 0x8000800⟩,
  ⟨0x1030, 64, 64, 4, 4, false, none, true, 0x7FFFFFFF, 0x0, 0x0, 0x0, 0xFFFFFFFF, 0x0⟩]

/-- The registers of the COL block, in the order of the chapter. -/
def regsCOL : List RegRow := [
  ⟨0x0, 1, 0, 1, 0, false, none, false, 0x0, 0x0, 0x0, 0x0, 0x0, 0x0⟩,
  ⟨0x10, 1, 0, 1, 0, false, none, false, 0x0, 0xF, 0x0, 0x0, 0x0, 0x0⟩,
  ⟨0x14, 1, 0, 1, 0, false, none, false, 0xF, 0x0, 0x0, 0x0, 0x0, 0xF⟩,
  ⟨0x100, 5, 4, 1, 0, false, none, true, 0x7FFFFFFF, 0x0, 0x0, 0x0, 0xFFFFFFFF, 0x0⟩,
  ⟨0x1000, 65, 4, 1, 0, false, none, true, 0x7FFFFFFF, 0x0, 0x0, 0x0, 0xFFFFFFFF, 0x0⟩,
  ⟨0x1200, 65, 4, 1, 0, false, none, false, 0x0, 0x0, 0x0, 0x0, 0x0, 0x0⟩]

/-- The registers of the CAS block, in the order of the chapter. -/
def regsCAS : List RegRow := [
  ⟨0x0, 1, 0, 1, 0, false, none, false, 0x0, 0x0, 0x0, 0x0, 0x0, 0x0⟩,
  ⟨0x4, 1, 0, 1, 0, false, none, false, 0x87FF0300, 0x0, 0x0, 0x87FF0300, 0x0, 0x1000000⟩,
  ⟨0x8, 1, 0, 1, 0, false, none, false, 0xC3FF07FF, 0x0, 0x0, 0xC3FF07FF, 0x0, 0x10400⟩,
  ⟨0x10, 4, 4, 1, 0, false, none, false, 0xFFE003FF, 0x0, 0x0, 0xFFE003FF, 0x0, 0x3⟩,
  ⟨0x20, 1, 0, 1, 0, false, (some 0x4), false, 0x0, 0x0, 0x0, 0x0, 0x0, 0x1000000⟩,
  ⟨0x24, 1, 0, 1, 0, false, (some 0x8), false, 0x0, 0x0, 0x0, 0x0, 0x0, 0x10400⟩,
  ⟨0x30, 4, 4, 1, 0, false, (some 0x10), false, 0x0, 0x0, 0x0, 0x0, 0x0, 0x3⟩,
  ⟨0x40, 1, 0, 1, 0, false, none, false, 0x80000BFF, 0x0, 0x0, 0x0, 0x0, 0x0⟩,
  ⟨0x44, 1, 0, 1, 0, false, none, false, 0xBFFFFFFF, 0x0, 0x0, 0x0, 0x0, 0xBFFFFFFF⟩,
  ⟨0x60, 1, 0, 1, 0, false, none, false, 0x0, 0x3FF, 0x0, 0x0, 0x0, 0x0⟩,
  ⟨0x64, 1, 0, 1, 0, false, none, false, 0x3FF, 0x0, 0x0, 0x0, 0x0, 0x3BF⟩,
  ⟨0x100, 10, 4, 1, 0, false, none, true, 0x7FFFFFFF, 0x0, 0x0, 0x0, 0xFFFFFFFF, 0x0⟩,
  ⟨0x1000, 8, 64, 1, 0, false, none, false, 0xFFFFF000, 0x0, 0x0, 0xFFFFF000, 0x0, 0x0⟩,
  ⟨0x1004, 8, 64, 1, 0, false, none, false, 0xFFFFFFFF, 0x0, 0x0, 0xFFFFFFFF, 0x0, 0x0⟩,
  ⟨0x1008, 8, 64, 1, 0, false, (some 0x1000), false, 0x0, 0x0, 0x0, 0x0, 0x0, 0x0⟩,
  ⟨0x100C, 8, 64, 1, 0, false, (some 0x1004), false, 0x0, 0x0, 0x0, 0x0, 0x0, 0x0⟩,
  ⟨0x1010, 8, 64, 1, 0, false, none, false, 0x0, 0x0, 0x0, 0x0, 0x0, 0x0⟩,
  ⟨0x1014, 8, 64, 1, 0, false, none, false, 0x0, 0x0, 0x0, 0x0, 0x1FFFF, 0x1FFFF⟩,
  ⟨0x1020, 8, 64, 8, 4, false, none, true, 0x7FFFFFFF, 0x0, 0x0, 0x0, 0xFFFFFFFF, 0x0⟩]

/-- The registers of the TQ block, in the order of the chapter. -/
def regsTQ : List RegRow := [
  ⟨0x0, 1, 0, 1, 0, false, none, false, 0x0, 0x0, 0x0, 0x0, 0x0, 0x0⟩,
  ⟨0x4, 1, 0, 1, 0, false, none, false, 0xFE00FFFF, 0x0, 0x0, 0xFE00FFFF, 0x0, 0x6000040⟩,
  ⟨0x8, 1, 0, 1, 0, false, none, false, 0xFFFFFFFF, 0x0, 0x0, 0xFFFFFFFF, 0x0, 0x7C001000⟩,
  ⟨0xC, 1, 0, 1, 0, false, none, false, 0x7FFFFF, 0x0, 0x0, 0x7FFFFF, 0x0, 0x0⟩,
  ⟨0x10, 1, 0, 1, 0, false, none, false, 0xFFFFFF, 0x0, 0x0, 0xFFFFFF, 0x0, 0x0⟩,
  ⟨0x20, 1, 0, 1, 0, false, (some 0x4), false, 0x0, 0x0, 0x0, 0x0, 0x0, 0x6000040⟩,
  ⟨0x24, 1, 0, 1, 0, false, (some 0x8), false, 0x0, 0x0, 0x0, 0x0, 0x0, 0x7C001000⟩,
  ⟨0x28, 1, 0, 1, 0, false, (some 0xC), false, 0x0, 0x0, 0x0, 0x0, 0x0, 0x0⟩,
  ⟨0x2C, 1, 0, 1, 0, false, (some 0x10), false, 0x0, 0x0, 0x0, 0x0, 0x0, 0x0⟩,
  ⟨0x40, 1, 0, 1, 0, false, none, false, 0xFFFFFFFF, 0x0, 0x0, 0x0, 0x0, 0x0⟩,
  ⟨0x44, 1, 0, 1, 0, false, none, false, 0xFFFF, 0x0, 0x0, 0x0, 0x0, 0x0⟩,
  ⟨0x48, 1, 0, 1, 0, false, none, false, 0x0, 0x0, 0x0, 0x0, 0x0, 0x0⟩,
  ⟨0x4C, 1, 0, 1, 0, false, none, false, 0x0, 0x0, 0x0, 0x0, 0x0, 0x0⟩,
  ⟨0x50, 1, 0, 1, 0, false, none, false, 0x0, 0x0, 0x0, 0x0, 0x0, 0x0⟩,
  ⟨0x54, 1, 0, 1, 0, false, none, false, 0x0, 0x0, 0x0, 0x0, 0x0, 0x0⟩,
  ⟨0x60, 1, 0, 1, 0, false, none, false, 0xFFFFFFFF, 0x0, 0x0, 0x0, 0x0, 0x0⟩,
  ⟨0x64, 1, 0, 1, 0, false, none, false, 0xFFFF, 0x0, 0x0, 0x0, 0x0, 0x0⟩,
  ⟨0x68, 1, 0, 1, 0, false, none, false, 0xFFFF, 0x0, 0x0, 0x0, 0x0, 0x1⟩,
  ⟨0x6C, 1, 0, 1, 0, false, none, false, 0x0, 0x0, 0x0, 0x0, 0x0, 0x0⟩,
  ⟨0x70, 1, 0, 1, 0, false, none, false, 0x0, 0x0, 0x0, 0x0, 0x0, 0x0⟩,
  ⟨0x80, 1, 0, 1, 0, false, none, false, 0x0, 0x0, 0x0, 0x0, 0x0, 0x0⟩,
  ⟨0x90, 1, 0, 1, 0, false, none, false, 0x0, 0x0, 0x0, 0x0, 0xFFFFFFFF, 0x0⟩,
  ⟨0x94, 1, 0, 1, 0, false, none, false, 0x0, 0x0, 0x0, 0x0, 0xFFFFFFFF, 0x0⟩,
  ⟨0x98, 1, 0, 1, 0, false, none, false, 0x0, 0x0, 0x0, 0x0, 0xFFFFFFFF, 0x0⟩,
  ⟨0x9C, 1, 0, 1, 0, false, none, false, 0x0, 0x0, 0x0, 0x0, 0xFFFFFFFF, 0x0⟩,
  ⟨0xA0, 1, 0, 1, 0, false, none, false, 0x0, 0x0, 0x0, 0x0, 0xFFFFFF, 0x0⟩,
  ⟨0xB0, 1, 0, 1, 0, false, none, false, 0x7FFF, 0x0, 0x0, 0x0, 0x0, 0x0⟩,
  ⟨0xB4, 4, 4, 1, 0, false, none, false, 0x0, 0x0, 0x0, 0x0, 0x0, 0x0⟩,
  ⟨0xD0, 1, 0, 1, 0, false, none, false, 0x0, 0x1FF, 0x0, 0x0, 0x0, 0x0⟩,
  ⟨0xD4, 1, 0, 1, 0, false, none, false, 0x1FF, 0x0, 0x0, 0x0, 0x0, 0x1DF⟩,
  ⟨0x100, 19, 4, 1, 0, false, none, true, 0x7FFFFFFF, 0x0, 0x0, 0x0, 0xFFFFFFFF, 0x0⟩]

/-- The registers of the CMP block, in the order of the chapter. -/
def regsCMP : List RegRow := [
  ⟨0x0, 1, 0, 1, 0, false, none, false, 0x0, 0x0, 0x0, 0x0, 0x0, 0x0⟩,
  ⟨0x4, 1, 0, 1, 0, false, none, false, 0xE0000000, 0x0, 0x0, 0xE0000000, 0x0, 0x0⟩,
  ⟨0x8, 1, 0, 1, 0, false, (some 0x4), false, 0x0, 0x0, 0x0, 0x0, 0x0, 0x0⟩,
  ⟨0x40, 1, 0, 1, 0, false, none, false, 0xFFFFFFF8, 0x0, 0x0, 0x0, 0x0, 0x0⟩,
  ⟨0x44, 1, 0, 1, 0, false, none, false, 0xFF, 0x0, 0x0, 0x0, 0x0, 0x0⟩,
  ⟨0x48, 1, 0, 1, 0, false, none, false, 0xFFFFFFF8, 0x0, 0x0, 0x0, 0x0, 0x0⟩,
  ⟨0x4C, 1, 0, 1, 0, false, none, false, 0xFFFFFFF8, 0x0, 0x0, 0x0, 0x0, 0x0⟩,
  ⟨0x50, 1, 0, 1, 0, false, none, false, 0xFF, 0x0, 0x0, 0x0, 0x0, 0x0⟩,
  ⟨0x54, 1, 0, 1, 0, false, none, false, 0xFFFFFFF8, 0x0, 0x0, 0x0, 0x0, 0x0⟩,
  ⟨0x58, 1, 0, 1, 0, false, none, false, 0x1FFF, 0x0, 0x0, 0x0, 0x0, 0x1000⟩,
  ⟨0x5C, 1, 0, 1, 0, false, none, false, 0x0, 0x0, 0x0, 0x0, 0x0, 0x0⟩,
  ⟨0x60, 1, 0, 1, 0, false, none, false, 0x0, 0x0, 0x0, 0x0, 0x0, 0x0⟩,
  ⟨0x64, 1, 0, 1, 0, false, none, false, 0x0, 0x0, 0x0, 0x0, 0x0, 0x0⟩,
  ⟨0x68, 1, 0, 1, 0, false, none, false, 0x0, 0x0, 0x0, 0x0, 0x0, 0x0⟩,
  ⟨0x6C, 1, 0, 1, 0, false, none, false, 0x0, 0x0, 0x0, 0x0, 0x0, 0x0⟩,
  ⟨0x80, 1, 0, 1, 0, false, none, false, 0x0, 0x0, 0x0, 0x0, 0xFFFFFFFF, 0x0⟩,
  ⟨0xC0, 1, 0, 1, 0, false, none, false, 0x0, 0xF, 0x0, 0x0, 0x0, 0x0⟩,
  ⟨0xC4, 1, 0, 1, 0, false, none, false, 0xF, 0x0, 0x0, 0x0, 0x0, 0xF⟩,
  ⟨0x100, 8, 4, 1, 0, false, none, true, 0x7FFFFFFF, 0x0, 0x0, 0x0, 0xFFFFFFFF, 0x0⟩]

/-- The registers of the LNK block, in the order of the chapter. -/
def regsLNK : List RegRow := [
  ⟨0x0, 1, 0, 1, 0, false, none, false, 0x0, 0x0, 0x0, 0x0, 0x0, 0x0⟩,
  ⟨0x10, 1, 0, 1, 0, false, none, false, 0x0, 0x1FF, 0x0, 0x0, 0x0, 0x0⟩,
  ⟨0x14, 1, 0, 1, 0, false, none, false, 0x1FF, 0x0, 0x0, 0x0, 0x0, 0x1FE⟩,
  ⟨0x20, 1, 0, 1, 0, false, none, false, 0x0, 0x0, 0x0, 0x0, 0x0, 0x0⟩,
  ⟨0x24, 1, 0, 1, 0, false, none, false, 0x0, 0x0, 0x0, 0x0, 0x0, 0x0⟩,
  ⟨0x100, 12, 16, 1, 0, false, none, false, 0xFDFFFFFF, 0x0, 0x0, 0xFDFFFFFF, 0x0, 0x84C81448⟩,
  ⟨0x104, 12, 16, 1, 0, false, (some 0x100), false, 0x0, 0x0, 0x0, 0x0, 0x0, 0x84C81448⟩,
  ⟨0x108, 12, 16, 1, 0, false, none, false, 0x0, 0x0, 0x0, 0x0, 0x0, 0x0⟩,
  ⟨0x10C, 12, 16, 1, 0, false, none, false, 0x0, 0x0, 0x0, 0x0, 0x0, 0x0⟩,
  ⟨0x400, 12, 32, 8, 4, false, none, true, 0x7FFFFFFF, 0x0, 0x0, 0x0, 0xFFFFFFFF, 0x0⟩,
  ⟨0x1000, 18, 64, 1, 0, false, none, false, 0x0, 0x0, 0x0, 0x0, 0x0, 0x0⟩,
  ⟨0x1004, 18, 64, 1, 0, false, none, false, 0x0, 0x0, 0x0, 0x0, 0xFF03FF, 0x0⟩,
  ⟨0x1008, 18, 64, 1, 0, false, none, false, 0x0, 0x0, 0x0, 0x0, 0x0, 0x0⟩,
  ⟨0x100C, 18, 64, 1, 0, false, none, false, 0x0, 0x0, 0x0, 0x0, 0x0, 0x0⟩,
  ⟨0x1010, 18, 64, 9, 4, false, none, true, 0x7FFFFFFF, 0x0, 0x0, 0x0, 0xFFFFFFFF, 0x0⟩,
  ⟨0x1034, 18, 64, 1, 0, false, none, false, 0x0, 0x0, 0x0, 0x0, 0x0, 0x0⟩,
  ⟨0x1038, 18, 64, 1, 0, false, none, false, 0x0, 0x0, 0x0, 0x0, 0x0, 0x0⟩]

/-- The registers of the MBX block, in the order of the chapter. -/
def regsMBX : List RegRow := [
  ⟨0x0, 1, 0, 1, 0, false, none, false, 0x0, 0x0, 0x0, 0x0, 0x0, 0x0⟩,
  ⟨0x4, 1, 0, 1, 0, false, none, false, 0x0, 0x0, 0x0, 0x0, 0x0, 0xF000⟩,
  ⟨0x8, 1, 0, 1, 0, false, none, false, 0x0, 0xFF, 0x0, 0x0, 0x0, 0x0⟩,
  ⟨0xC, 1, 0, 1, 0, false, none, false, 0x0, 0x0, 0xFF, 0x0, 0x0, 0x0⟩,
  ⟨0x10, 1, 0, 1, 0, false, none, false, 0x80000000, 0x0, 0x0, 0x0, 0x0, 0x80000000⟩,
  ⟨0x20, 1, 0, 1, 0, false, none, false, 0x0, 0x1F, 0x0, 0x0, 0x0, 0x0⟩,
  ⟨0x24, 1, 0, 1, 0, false, none, false, 0x1F, 0x0, 0x0, 0x0, 0x0, 0x1E⟩,
  ⟨0x100, 9, 4, 1, 0, false, none, true, 0x7FFFFFFF, 0x0, 0x0, 0x0, 0xFFFFFFFF, 0x0⟩,
  ⟨0x1000, 4, 512, 128, 4, false, none, false, 0xFFFFFFFF, 0x0, 0x0, 0x0, 0x0, 0x0⟩,
  ⟨0x1C00, 2, 512, 128, 4, false, none, false, 0xFFFFFFFF, 0x0, 0x0, 0x0, 0x0, 0x0⟩,
  ⟨0x8000, 2, 512, 128, 4, true, none, false, 0xFFFFFFFF, 0x0, 0x0, 0x0, 0x0, 0x0⟩]

/-- The registers of the DMA block, in the order of the chapter. -/
def regsDMA : List RegRow := [
  ⟨0x0, 1, 0, 1, 0, false, none, false, 0x0, 0x0, 0x0, 0x0, 0x0, 0x0⟩,
  ⟨0x4, 1, 0, 1, 0, false, none, false, 0x0, 0xFFFF, 0x0, 0x0, 0x0, 0x0⟩,
  ⟨0x8, 1, 0, 1, 0, false, none, false, 0xFFFF, 0x0, 0x0, 0x0, 0x0, 0x0⟩,
  ⟨0x10, 1, 0, 1, 0, false, none, false, 0x0, 0x7, 0x0, 0x0, 0x0, 0x0⟩,
  ⟨0x14, 1, 0, 1, 0, false, none, false, 0x7, 0x0, 0x0, 0x0, 0x0, 0x7⟩,
  ⟨0x1000, 16, 64, 1, 0, false, none, false, 0xFFFFFFE0, 0x0, 0x0, 0x0, 0x0, 0x0⟩,
  ⟨0x1004, 16, 64, 1, 0, false, none, false, 0xFFF, 0x0, 0x0, 0x0, 0x0, 0x400⟩,
  ⟨0x1008, 16, 64, 1, 0, false, none, false, 0x1FF030F, 0x0, 0x0, 0x0, 0x0, 0x9⟩,
  ⟨0x100C, 16, 64, 1, 0, false, none, false, 0x0, 0x0, 0x0, 0x0, 0x0, 0x0⟩,
  ⟨0x1010, 16, 64, 1, 0, false, none, false, 0x0, 0x0, 0x0, 0x0, 0x0, 0x0⟩,
  ⟨0x1020, 16, 64, 5, 4, false, none, true, 0x7FFFFFFF, 0x0, 0x0, 0x0, 0xFFFFFFFF, 0x0⟩]

/-- The registers of the MEM block, in the order of the chapter. -/
def regsMEM : List RegRow := [
  ⟨0x0, 1, 0, 1, 0, false, none, false, 0x0, 0x0, 0x0, 0x0, 0x0, 0x0⟩,
  ⟨0x4, 1, 0, 1, 0, false, none, false, 0x0, 0x0, 0x0, 0x0, 0x0, 0x0⟩,
  ⟨0x8, 1, 0, 1, 0, false, none, false, 0x7, 0x0, 0x0, 0x7, 0x0, 0x0⟩,
  ⟨0xC, 1, 0, 1, 0, false, none, false, 0x7, 0x0, 0x0, 0x7, 0x0, 0x7⟩,
  ⟨0x10, 1, 0, 1, 0, false, (some 0x8), false, 0x0, 0x0, 0x0, 0x0, 0x0, 0x0⟩,
  ⟨0x14, 1, 0, 1, 0, false, (some 0xC), false, 0x0, 0x0, 0x0, 0x0, 0x0, 0x7⟩,
  ⟨0x20, 3, 4, 1, 0, false, none, false, 0x0, 0x0, 0x0, 0x0, 0xFFFFFFFF, 0x0⟩,
  ⟨0x40, 4, 4, 1, 0, false, none, false, 0xFFF, 0x0, 0x0, 0x0, 0x0, 0x0⟩,
  ⟨0x60, 1, 0, 1, 0, false, none, false, 0x7FFFFF, 0x0, 0x0, 0x0, 0x0, 0x0⟩,
  ⟨0x64, 1, 0, 1, 0, false, none, false, 0x0, 0x0, 0x0, 0x0, 0x0, 0x0⟩,
  ⟨0x80, 1, 0, 1, 0, false, none, false, 0x0, 0xFF, 0x0, 0x0, 0x0, 0x0⟩,
  ⟨0x84, 1, 0, 1, 0, false, none, false, 0xFF, 0x0, 0x0, 0x0, 0x0, 0xFD⟩,
  ⟨0x100, 10, 4, 1, 0, false, none, false, 0xFFFFFF, 0x0, 0x0, 0xFFFFFF, 0x0, 0xC10040⟩,
  ⟨0x140, 10, 4, 1, 0, false, (some 0x100), false, 0x0, 0x0, 0x0, 0x0, 0x0, 0xC10040⟩,
  ⟨0x180, 10, 4, 1, 0, false, none, false, 0x0, 0x0, 0x0, 0x0, 0xFFFF, 0x0⟩,
  ⟨0x200, 10, 16, 4, 4, false, none, true, 0x7FFFFFFF, 0x0, 0x0, 0x0, 0xFFFFFFFF, 0x0⟩,
  ⟨0x300, 4, 4, 1, 0, false, none, true, 0x7FFFFFFF, 0x0, 0x0, 0x0, 0xFFFFFFFF, 0x0⟩,
  ⟨0x400, 1, 0, 1, 0, false, none, false, 0xF000000F, 0x0, 0x0, 0x0, 0x0, 0x0⟩,
  ⟨0x404, 1, 0, 1, 0, false, none, false, 0x0, 0x0, 0x0, 0x0, 0x0, 0x0⟩,
  ⟨0x420, 1, 0, 1, 0, false, none, false, 0x0, 0x0, 0x0, 0x0, 0xFFFFFFFF, 0x0⟩,
  ⟨0x424, 1, 0, 1, 0, false, none, false, 0x0, 0x0, 0x0, 0x0, 0x0, 0x0⟩,
  ⟨0x8000, 1, 0, 1, 0, true, none, false, 0x4000000F, 0x0, 0x80000000, 0x0, 0x0, 0x0⟩,
  ⟨0x8004, 1, 0, 1, 0, true, none, false, 0xFFFFFFFF, 0x0, 0x0, 0x0, 0x0, 0x0⟩,
  ⟨0x8008, 1, 0, 1, 0, true, none, false, 0xFF, 0x0, 0x0, 0x0, 0x0, 0x0⟩,
  ⟨0x8010, 4, 4, 1, 0, true, none, false, 0xFFFFFFFF, 0x0, 0x0, 0x0, 0x0, 0x0⟩,
  ⟨0x8020, 1, 0, 1, 0, true, none, false, 0xFFFF, 0x0, 0x0, 0x0, 0x0, 0x0⟩,
  ⟨0x8040, 4, 4, 1, 0, true, none, false, 0xFFF, 0x0, 0x0, 0x0, 0x0, 0x0⟩]

/-- The registers of the MON block, in the order of the chapter. -/
def regsMON : List RegRow := [
  ⟨0x0, 1, 0, 1, 0, false, none, false, 0x0, 0x0, 0x0, 0x0, 0x0, 0x0⟩,
  ⟨0x4, 1, 0, 1, 0, false, none, false, 0xFF000000, 0x0, 0x0, 0xFF000000, 0x0, 0x40000000⟩,
  ⟨0x8, 1, 0, 1, 0, false, none, false, 0x8000FFFF, 0x0, 0x0, 0x8000FFFF, 0x0, 0x1000⟩,
  ⟨0xC, 1, 0, 1, 0, false, none, false, 0xFFFFFFFF, 0x0, 0x0, 0xFFFFFFFF, 0x0, 0x20009C40⟩,
  ⟨0x10, 1, 0, 1, 0, false, (some 0x4), false, 0x0, 0x0, 0x0, 0x0, 0x0, 0x40000000⟩,
  ⟨0x14, 1, 0, 1, 0, false, (some 0x8), false, 0x0, 0x0, 0x0, 0x0, 0x0, 0x1000⟩,
  ⟨0x18, 1, 0, 1, 0, false, (some 0xC), false, 0x0, 0x0, 0x0, 0x0, 0x0, 0x20009C40⟩,
  ⟨0x20, 1, 0, 1, 0, false, none, false, 0x0, 0xFF, 0x0, 0x0, 0x0, 0x0⟩,
  ⟨0x24, 1, 0, 1, 0, false, none, false, 0xFF, 0x0, 0x0, 0x0, 0x0, 0xBE⟩,
  ⟨0x40, 1, 0, 1, 0, false, none, false, 0xFFFFFFFF, 0x0, 0x0, 0x0, 0x0, 0x0⟩,
  ⟨0x44, 1, 0, 1, 0, false, none, false, 0xFFFFFFFF, 0x0, 0x0, 0x0, 0x0, 0x0⟩,
  ⟨0x48, 1, 0, 1, 0, false, none, false, 0x0, 0x0, 0x0, 0x0, 0x0, 0x0⟩,
  ⟨0x4C, 1, 0, 1, 0, false, none, false, 0x0, 0x0, 0x0, 0x0, 0x0, 0x0⟩,
  ⟨0x50, 1, 0, 1, 0, false, none, false, 0xFFFC0000, 0x0, 0x0, 0x0, 0x0, 0x300C0000⟩,
  ⟨0x54, 1, 0, 1, 0, false, none, false, 0xFFFFFFFF, 0x0, 0x0, 0x0, 0x0, 0x0⟩,
  ⟨0x58, 1, 0, 1, 0, false, none, false, 0x0, 0x0, 0x0, 0x0, 0x0, 0x0⟩,
  ⟨0x80, 8, 8, 1, 0, false, none, false, 0x0, 0x0, 0x0, 0x0, 0x0, 0x0⟩,
  ⟨0x84, 8, 8, 1, 0, false, none, false, 0x0, 0x0, 0x0, 0x0, 0x0, 0x0⟩,
  ⟨0x400, 64, 8, 1, 0, false, none, false, 0xFFFE0000, 0x0, 0x0, 0xFFFE0000, 0x0, 0x700C0000⟩,
  ⟨0x404, 64, 8, 1, 0, false, none, false, 0xFF00FFFF, 0x0, 0x0, 0xFF00FFFF, 0x0, 0x1000000⟩,
  ⟨0x600, 64, 8, 1, 0, false, (some 0x400), false, 0x0, 0x0, 0x0, 0x0, 0x0, 0x700C0000⟩,
  ⟨0x604, 64, 8, 1, 0, false, (some 0x404), false, 0x0, 0x0, 0x0, 0x0, 0x0, 0x1000000⟩,
  ⟨0x800, 8, 64, 1, 0, false, none, false, 0xF800FFFF, 0x0, 0x0, 0xF800FFFF, 0x0, 0xA0000000⟩,
  ⟨0x804, 8, 64, 6, 4, false, none, false, 0xFFFFFFFF, 0x0, 0x0, 0xFFFFFFFF, 0x0, 0x0⟩,
  ⟨0x820, 8, 64, 1, 0, false, (some 0x800), false, 0x0, 0x0, 0x0, 0x0, 0x0, 0xA0000000⟩,
  ⟨0x824, 8, 64, 6, 4, false, (some 0x804), false, 0x0, 0x0, 0x0, 0x0, 0x0, 0x0⟩,
  ⟨0xA00, 8, 4, 1, 0, false, none, false, 0xFFFFFFFF, 0x0, 0x0, 0xFFFFFFFF, 0x0, 0x100000⟩,
  ⟨0xA20, 8, 4, 1, 0, false, (some 0xA00), false, 0x0, 0x0, 0x0, 0x0, 0x0, 0x100000⟩,
  ⟨0xC00, 8, 128, 1, 0, false, none, false, 0x8000000F, 0x0, 0x0, 0x8000000F, 0x0, 0x0⟩,
  ⟨0xC04, 8, 128, 12, 4, false, none, false, 0xFFFFFFFF, 0x0, 0x0, 0xFFFFFFFF, 0x0, 0x0⟩,
  ⟨0xC40, 8, 128, 1, 0, false, (some 0xC00), false, 0x0, 0x0, 0x0, 0x0, 0x0, 0x0⟩,
  ⟨0xC44, 8, 128, 12, 4, false, (some 0xC04), false, 0x0, 0x0, 0x0, 0x0, 0x0, 0x0⟩,
  ⟨0x1000, 64, 16, 4, 4, false, none, false, 0x0, 0x0, 0x0, 0x0, 0x0, 0x0⟩,
  ⟨0x1400, 8, 4, 1, 0, false, none, false, 0x0, 0x0, 0x0, 0x0, 0x0, 0x0⟩,
  ⟨0x1420, 1, 0, 1, 0, false, none, false, 0x0, 0x0, 0x0, 0x0, 0x0, 0x0⟩,
  ⟨0x2000, 64, 4, 1, 0, false, none, false, 0xFFFF, 0x0, 0x0, 0xFFFF, 0x0, 0x100⟩,
  ⟨0x2100, 64, 4, 1, 0, false, (some 0x2000), false, 0x0, 0x0, 0x0, 0x0, 0x0, 0x100⟩,
  ⟨0x100, 7, 4, 1, 0, false, none, true, 0x7FFFFFFF, 0x0, 0x0, 0x0, 0xFFFFFFFF, 0x0⟩]

/-- The registers of the GRD block, in the order of the chapter. -/
def regsGRD : List RegRow := [
  ⟨0x0, 1, 0, 1, 0, false, none, false, 0x0, 0x0, 0x0, 0x0, 0x0, 0x1C000000⟩,
  ⟨0x4, 1, 0, 1, 0, false, none, false, 0x0, 0x0, 0x0, 0x0, 0x0, 0x0⟩,
  ⟨0x8, 1, 0, 1, 0, false, none, false, 0x0, 0x0, 0x0, 0x0, 0x0, 0x0⟩,
  ⟨0xC, 1, 0, 1, 0, false, none, false, 0x0, 0x0, 0x0, 0x0, 0x0, 0x0⟩,
  ⟨0x10, 1, 0, 1, 0, false, none, false, 0x0, 0x0, 0x0, 0x0, 0x0, 0x0⟩,
  ⟨0x14, 1, 0, 1, 0, false, none, false, 0x0, 0x0, 0x0, 0x0, 0x0, 0x0⟩,
  ⟨0x20, 1, 0, 1, 0, false, none, false, 0x0, 0x1FF, 0x0, 0x0, 0x0, 0x0⟩,
  ⟨0x24, 1, 0, 1, 0, false, none, false, 0x1FF, 0x0, 0x0, 0x0, 0x0, 0x17E⟩,
  ⟨0x40, 3, 4, 1, 0, false, none, false, 0x0, 0x0, 0x0, 0x0, 0x0, 0x80000000⟩,
  ⟨0x100, 32, 4, 1, 0, false, none, false, 0x0, 0x0, 0x0, 0x0, 0x0, 0x0⟩,
  ⟨0x200, 8, 4, 1, 0, false, none, true, 0x7FFFFFFF, 0x0, 0x0, 0x0, 0xFFFFFFFF, 0x0⟩,
  ⟨0x300, 1, 0, 1, 0, false, none, false, 0x3F, 0x0, 0x0, 0x0, 0x0, 0x0⟩,
  ⟨0x304, 4, 4, 1, 0, false, none, false, 0x0, 0x0, 0x0, 0x0, 0x0, 0x0⟩,
  ⟨0x8000, 1, 0, 1, 0, true, none, false, 0x0, 0x0, 0x0, 0x0, 0x0, 0x0⟩,
  ⟨0x8004, 1, 0, 1, 0, true, none, false, 0xFFFFFFFF, 0x0, 0x0, 0x0, 0x0, 0x0⟩,
  ⟨0x8008, 1, 0, 1, 0, true, none, false, 0xFFFFFFFF, 0x0, 0x0, 0x0, 0x0, 0x0⟩,
  ⟨0x800C, 1, 0, 1, 0, true, none, false, 0x0, 0x0, 0x0, 0x0, 0x0, 0x0⟩,
  ⟨0x8100, 32, 4, 1, 0, true, none, false, 0xFFFFFFFF, 0x0, 0x0, 0x0, 0x0, 0x0⟩]

/-- The registers of the FLT block, in the order of the chapter. -/
def regsFLT : List RegRow := [
  ⟨0x0, 1, 0, 1, 0, false, none, false, 0x0, 0xE0000000, 0x0, 0x0, 0x0, 0x0⟩,
  ⟨0x4, 1, 0, 1, 0, false, none, false, 0x1F, 0x0, 0x0, 0x1F, 0x0, 0xF⟩,
  ⟨0x8, 1, 0, 1, 0, false, (some 0x4), false, 0x0, 0x0, 0x0, 0x0, 0x0, 0xF⟩,
  ⟨0x10, 1, 0, 1, 0, false, none, false, 0x0, 0x0, 0x0, 0x0, 0x0, 0x0⟩,
  ⟨0x14, 1, 0, 1, 0, false, none, false, 0x0, 0x0, 0x0, 0x0, 0x0, 0x0⟩,
  ⟨0x18, 1, 0, 1, 0, false, none, false, 0x0, 0x0, 0x0, 0x0, 0x0, 0x0⟩,
  ⟨0x20, 1, 0, 1, 0, false, none, false, 0x0, 0x0, 0x0, 0x0, 0x0, 0x0⟩,
  ⟨0x30, 1, 0, 1, 0, false, none, false, 0x0, 0x7F, 0x0, 0x0, 0x0, 0x0⟩,
  ⟨0x34, 1, 0, 1, 0, false, none, false, 0x7F, 0x0, 0x0, 0x0, 0x0, 0x7F⟩,
  ⟨0x100, 64, 4, 1, 0, false, none, false, 0x1F1FFF, 0x0, 0x0, 0x1F1FFF, 0x0, 0x0⟩,
  ⟨0x200, 64, 4, 1, 0, false, (some 0x100), false, 0x0, 0x0, 0x0, 0x0, 0x0, 0x0⟩,
  ⟨0x400, 8, 32, 7, 4, false, none, false, 0x0, 0x0, 0x0, 0x0, 0x0, 0x0⟩,
  ⟨0x500, 1, 0, 1, 0, false, none, false, 0x0, 0x0, 0x0, 0x0, 0x0, 0x0⟩,
  ⟨0x600, 1, 0, 1, 0, false, none, false, 0x0, 0x0, 0x0, 0x0, 0x0, 0x0⟩,
  ⟨0x604, 1, 0, 1, 0, false, none, false, 0x0, 0x0, 0x0, 0x0, 0x0, 0x0⟩,
  ⟨0x610, 1, 0, 1, 0, false, none, false, 0x0, 0x0, 0x0, 0x0, 0x0, 0x0⟩,
  ⟨0x614, 1, 0, 1, 0, false, none, false, 0x0, 0x0, 0x0, 0x0, 0x0, 0x0⟩,
  ⟨0x618, 1, 0, 1, 0, false, none, false, 0x0, 0x0, 0x0, 0x0, 0x0, 0x0⟩,
  ⟨0x700, 8, 4, 1, 0, false, none, true, 0x7FFFFFFF, 0x0, 0x0, 0x0, 0xFFFFFFFF, 0x0⟩,
  ⟨0x1000, 1024, 4, 1, 0, false, none, false, 0x0, 0x0, 0x0, 0x0, 0x0, 0x0⟩,
  ⟨0x8000, 1, 0, 1, 0, true, none, false, 0x8000FFFF, 0x0, 0x0, 0x0, 0x0, 0x80001000⟩,
  ⟨0x8004, 1, 0, 1, 0, true, none, false, 0x0, 0x0, 0x0, 0x0, 0x0, 0x0⟩]

/-- The registers of the SEC block, in the order of the chapter. -/
def regsSEC : List RegRow := [
  ⟨0x0, 1, 0, 1, 0, false, none, false, 0x0, 0x0, 0x0, 0x0, 0x0, 0x0⟩,
  ⟨0x4, 1, 0, 1, 0, false, none, false, 0x0, 0x0, 0x0, 0x0, 0x0, 0x0⟩,
  ⟨0x8, 1, 0, 1, 0, false, none, false, 0x0, 0x0, 0x0, 0x0, 0x0, 0x0⟩,
  ⟨0xC, 1, 0, 1, 0, false, none, false, 0x0, 0x0, 0x0, 0x0, 0x0, 0x0⟩,
  ⟨0x10, 8, 4, 1, 0, false, none, false, 0x0, 0x0, 0x0, 0x0, 0x0, 0x0⟩,
  ⟨0x40, 1, 0, 1, 0, false, none, false, 0x0, 0xFF, 0x0, 0x0, 0x0, 0x0⟩,
  ⟨0x44, 1, 0, 1, 0, false, none, false, 0xFF, 0x0, 0x0, 0x0, 0x0, 0xFF⟩,
  ⟨0x100, 4, 4, 1, 0, false, none, true, 0x7FFFFFFF, 0x0, 0x0, 0x0, 0xFFFFFFFF, 0x0⟩,
  ⟨0x8000, 1, 0, 1, 0, true, none, false, 0xFFFFFFFF, 0x0, 0x0, 0x0, 0x0, 0x0⟩,
  ⟨0x8004, 1, 0, 1, 0, true, none, false, 0xFFFFFFFF, 0x0, 0x0, 0x0, 0x0, 0x0⟩,
  ⟨0x8100, 64, 16, 1, 0, true, none, false, 0xFFFFFFF, 0x0, 0x0, 0x0, 0x0, 0x0⟩,
  ⟨0x8104, 64, 16, 1, 0, true, none, false, 0xFFFFFFF, 0x0, 0x0, 0x0, 0x0, 0x0⟩,
  ⟨0x8108, 64, 16, 1, 0, true, none, false, 0xE0000000, 0x0, 0x10000000, 0x0, 0x0, 0x0⟩]

/-- The registers of the PWR block, in the order of the chapter. -/
def regsPWR : List RegRow := [
  ⟨0x0, 1, 0, 1, 0, false, none, false, 0x0, 0x0, 0x0, 0x0, 0x0, 0x0⟩,
  ⟨0x4, 1, 0, 1, 0, false, none, false, 0x0, 0x0, 0x0, 0x0, 0x0, 0x1F000000⟩,
  ⟨0x8, 1, 0, 1, 0, false, none, false, 0x0, 0xF, 0x0, 0x0, 0x0, 0x0⟩,
  ⟨0xC, 1, 0, 1, 0, false, none, false, 0x0, 0x0, 0x0, 0x0, 0x0, 0x0⟩,
  ⟨0x10, 1, 0, 1, 0, false, none, false, 0xF, 0x0, 0x0, 0xF, 0x0, 0x1⟩,
  ⟨0x20, 1, 0, 1, 0, false, none, false, 0xE3FFFFFF, 0x0, 0x0, 0xE3FFFFFF, 0x0, 0x100040⟩,
  ⟨0x24, 1, 0, 1, 0, false, none, false, 0xFFF0FFF, 0x0, 0x0, 0xFFF0FFF, 0x0, 0x1⟩,
  ⟨0x28, 1, 0, 1, 0, false, none, false, 0xFFFFFFFF, 0x0, 0x0, 0xFFFFFFFF, 0x0, 0xFFFFFFFF⟩,
  ⟨0x2C, 1, 0, 1, 0, false, none, false, 0xFFFFFFFF, 0x0, 0x0, 0xFFFFFFFF, 0x0, 0xFFFFFFFF⟩,
  ⟨0x30, 1, 0, 1, 0, false, (some 0x10), false, 0x0, 0x0, 0x0, 0x0, 0x0, 0x1⟩,
  ⟨0x34, 1, 0, 1, 0, false, (some 0x20), false, 0x0, 0x0, 0x0, 0x0, 0x0, 0x100040⟩,
  ⟨0x38, 1, 0, 1, 0, false, (some 0x24), false, 0x0, 0x0, 0x0, 0x0, 0x0, 0x1⟩,
  ⟨0x3C, 1, 0, 1, 0, false, (some 0x28), false, 0x0, 0x0, 0x0, 0x0, 0x0, 0xFFFFFFFF⟩,
  ⟨0x40, 1, 0, 1, 0, false, (some 0x2C), false, 0x0, 0x0, 0x0, 0x0, 0x0, 0xFFFFFFFF⟩,
  ⟨0x48, 1, 0, 1, 0, false, none, false, 0x0, 0x0, 0x0, 0x0, 0x0, 0x0⟩,
  ⟨0x50, 1, 0, 1, 0, false, none, false, 0x0, 0x3F, 0x0, 0x0, 0x0, 0x0⟩,
  ⟨0x54, 1, 0, 1, 0, false, none, false, 0x3F, 0x0, 0x0, 0x0, 0x0, 0x3F⟩,
  ⟨0x100, 3, 4, 1, 0, false, none, true, 0x7FFFFFFF, 0x0, 0x0, 0x0, 0xFFFFFFFF, 0x0⟩]

/-- The register rows of block `b` (R196 numbering). -/
def blockRows (b : Nat) : List RegRow :=
  match b with
  | 0 => regsTRN
  | 1 => regsTIME
  | 2 => regsAFE
  | 3 => regsTDC
  | 4 => regsCAP
  | 5 => regsSE
  | 6 => regsCOL
  | 7 => regsCAS
  | 8 => regsTQ
  | 9 => regsCMP
  | 10 => regsLNK
  | 11 => regsMBX
  | 12 => regsDMA
  | 13 => regsMEM
  | 14 => regsMON
  | 15 => regsGRD
  | 16 => regsFLT
  | 17 => regsSEC
  | 18 => regsPWR
  | _ => []

/-- Offset of the *_EVENT register of block `b` (its *_EVENT_EN register follows at + 4). -/
def eventOff (b : Nat) : Nat :=
  match b with
  | 0 => 0x28
  | 1 => 0x70
  | 2 => 0x40
  | 3 => 0x30
  | 4 => 0xC0
  | 5 => 0x10
  | 6 => 0x10
  | 7 => 0x60
  | 8 => 0xD0
  | 9 => 0xC0
  | 10 => 0x10
  | 11 => 0x20
  | 12 => 0x10
  | 13 => 0x80
  | 14 => 0x20
  | 15 => 0x20
  | 16 => 0x30
  | 17 => 0x40
  | 18 => 0x50
  | _ => 0

/-- Bit of COUNTER_SAT in the *_EVENT register of block `b`. -/
def satBit (b : Nat) : Nat :=
  match b with
  | 0 => 8
  | 1 => 10
  | 2 => 4
  | 3 => 5
  | 4 => 5
  | 5 => 3
  | 6 => 3
  | 7 => 9
  | 8 => 8
  | 9 => 3
  | 10 => 8
  | 11 => 4
  | 12 => 2
  | 13 => 7
  | 14 => 7
  | 15 => 8
  | 16 => 6
  | 17 => 7
  | 18 => 5
  | _ => 0

end Sys2Proof.Machine

/-! Register keys, by the names of spec/. -/
namespace Sys2Proof.Machine.R

/-- FEATURES, PWR (spec/00_scope.md) -/
def PWR_FEATURES : Nat := 0x120000
/-- TURN_LO, TRN (spec/01_turns.md) -/
def TRN_TURN_LO : Nat := 0x000004
/-- TURN_HI, TRN (spec/01_turns.md) -/
def TRN_TURN_HI : Nat := 0x000008
/-- COMMIT_TARGET_LO, TRN (spec/01_turns.md) -/
def TRN_COMMIT_TARGET_LO : Nat := 0x000010
/-- COMMIT_TARGET_HI, TRN (spec/01_turns.md) -/
def TRN_COMMIT_TARGET_HI : Nat := 0x000014
/-- COMMIT_CTRL, TRN (spec/01_turns.md) -/
def TRN_COMMIT_CTRL : Nat := 0x000018
/-- BUDGET, TRN (spec/01_turns.md) -/
def TRN_BUDGET (r a : Nat) : Nat := 0x000100 + 32 * r + 4 * a
/-- BUDGET_USED, TRN (spec/01_turns.md) -/
def TRN_BUDGET_USED (r a : Nat) : Nat := 0x000300 + 32 * r + 4 * a
/-- BUDGET_STALL, TRN (spec/01_turns.md) -/
def TRN_BUDGET_STALL (r a : Nat) : Nat := 0x000400 + 32 * r + 4 * a
/-- BUDGET_OVERRUN, TRN (spec/01_turns.md) -/
def TRN_BUDGET_OVERRUN (r a : Nat) : Nat := 0x000500 + 32 * r + 4 * a
/-- TIME_STATUS, TIME (spec/02_array_time.md) -/
def TIME_STATUS : Nat := 0x010000
/-- STEER, TIME (spec/02_array_time.md) -/
def TIME_STEER : Nat := 0x010010
/-- OFFSET, TIME (spec/02_array_time.md) -/
def TIME_OFFSET (p : Nat) : Nat := 0x010020 + 4 * p
/-- DELAY, TIME (spec/02_array_time.md) -/
def TIME_DELAY (p : Nat) : Nat := 0x010028 + 4 * p
/-- PT_OFFSET, TIME (spec/02_array_time.md) -/
def TIME_PT_OFFSET : Nat := 0x010030
/-- PORT_CAL, TIME (spec/02_array_time.md) -/
def TIME_PORT_CAL (p q : Nat) : Nat := 0x010040 + 16 * p + 4 * q
/-- ST_LO, TIME (spec/02_array_time.md) -/
def TIME_ST_LO : Nat := 0x010064
/-- ST_HI, TIME (spec/02_array_time.md) -/
def TIME_ST_HI : Nat := 0x010068
/-- COUNT, TIME (spec/02_array_time.md) -/
def TIME_COUNT (i : Nat) : Nat := 0x010080 + 4 * i
/-- TXTS_STATUS, TIME (spec/02_array_time.md) -/
def TIME_TXTS_STATUS (p : Nat) : Nat := 0x010100 + 32 * p
/-- TXTS_FINE, TIME (spec/02_array_time.md) -/
def TIME_TXTS_FINE (p : Nat) : Nat := 0x010110 + 32 * p
/-- TP_CTRL, AFE (spec/03_front_end.md) -/
def AFE_TP_CTRL : Nat := 0x020010
/-- TP_START_LO, AFE (spec/03_front_end.md) -/
def AFE_TP_START_LO : Nat := 0x020014
/-- TP_START_HI, AFE (spec/03_front_end.md) -/
def AFE_TP_START_HI : Nat := 0x020018
/-- TP_POS, AFE (spec/03_front_end.md) -/
def AFE_TP_POS : Nat := 0x02001C
/-- COUNT, AFE (spec/03_front_end.md) -/
def AFE_COUNT (i : Nat) : Nat := 0x020080 + 4 * i
/-- GROUP_IMON, AFE (spec/03_front_end.md) -/
def AFE_GROUP_IMON (k : Nat) : Nat := 0x020200 + 4 * k
/-- CH_CFG, AFE (spec/03_front_end.md) -/
def AFE_CH_CFG (n : Nat) : Nat := 0x021000 + 64 * n
/-- THR, AFE (spec/03_front_end.md) -/
def AFE_THR (n : Nat) : Nat := 0x021008 + 64 * n
/-- IMON, AFE (spec/03_front_end.md) -/
def AFE_IMON (n : Nat) : Nat := 0x021018 + 64 * n
/-- BLANKED, AFE (spec/03_front_end.md) -/
def AFE_BLANKED (n : Nat) : Nat := 0x02101C + 64 * n
/-- TDC_CMD, TDC (spec/04_tdc.md) -/
def TDC_CMD : Nat := 0x030020
/-- TABLE_DATA, TDC (spec/04_tdc.md) -/
def TDC_TABLE_DATA : Nat := 0x030044
/-- FR_STATUS, TDC (spec/04_tdc.md) -/
def TDC_FR_STATUS (e : Nat) : Nat := 0x030808 + 64 * e
/-- FR_N, TDC (spec/04_tdc.md) -/
def TDC_FR_N (e : Nat) : Nat := 0x03080C + 64 * e
/-- FR_PERIOD_LO, TDC (spec/04_tdc.md) -/
def TDC_FR_PERIOD_LO (e : Nat) : Nat := 0x030810 + 64 * e
/-- FR_PERIOD_HI, TDC (spec/04_tdc.md) -/
def TDC_FR_PERIOD_HI (e : Nat) : Nat := 0x030814 + 64 * e
/-- FR_FREQ_LO, TDC (spec/04_tdc.md) -/
def TDC_FR_FREQ_LO (e : Nat) : Nat := 0x030818 + 64 * e
/-- FR_FREQ_HI, TDC (spec/04_tdc.md) -/
def TDC_FR_FREQ_HI (e : Nat) : Nat := 0x03081C + 64 * e
/-- FR_RESID, TDC (spec/04_tdc.md) -/
def TDC_FR_RESID (e : Nat) : Nat := 0x030820 + 64 * e
/-- UNIT_STATUS, TDC (spec/04_tdc.md) -/
def TDC_UNIT_STATUS (u : Nat) : Nat := 0x032000 + 16 * u
/-- UNIT_AGE, TDC (spec/04_tdc.md) -/
def TDC_UNIT_AGE (u : Nat) : Nat := 0x032004 + 16 * u
/-- UNIT_QUAL, TDC (spec/04_tdc.md) -/
def TDC_UNIT_QUAL (u : Nat) : Nat := 0x032008 + 16 * u
/-- COUNT, TDC (spec/04_tdc.md) -/
def TDC_COUNT (u i : Nat) : Nat := 0x034000 + 32 * u + 4 * i
/-- CAP_GEOM, CAP (spec/05_capture.md) -/
def CAP_GEOM : Nat := 0x040004
/-- CAP_REC, CAP (spec/05_capture.md) -/
def CAP_REC : Nat := 0x040008
/-- CAP_DEC, CAP (spec/05_capture.md) -/
def CAP_DEC : Nat := 0x04000C
/-- CAP_CFG, CAP (spec/05_capture.md) -/
def CAP_CFG : Nat := 0x040010
/-- SW_MASK_LO, CAP (spec/05_capture.md) -/
def CAP_SW_MASK_LO : Nat := 0x040040
/-- SW_MASK_HI, CAP (spec/05_capture.md) -/
def CAP_SW_MASK_HI : Nat := 0x040044
/-- CAP_CMD, CAP (spec/05_capture.md) -/
def CAP_CMD : Nat := 0x040048
/-- COUNT, CAP (spec/05_capture.md) -/
def CAP_COUNT (i : Nat) : Nat := 0x040100 + 4 * i
/-- CH_COUNT, CAP (spec/05_capture.md) -/
def CAP_CH_COUNT (n i : Nat) : Nat := 0x041010 + 64 * n + 4 * i
/-- LIN_DATA, SE (spec/06_slice_engines.md) -/
def SE_LIN_DATA : Nat := 0x050024
/-- SE_COUNT, SE (spec/06_slice_engines.md) -/
def SE_COUNT (k i : Nat) : Nat := 0x050100 + 32 * k + 4 * i
/-- SE_CH_GAIN, SE (spec/06_slice_engines.md) -/
def SE_CH_GAIN (n : Nat) : Nat := 0x051010 + 64 * n
/-- SE_CH_COUNT, SE (spec/06_slice_engines.md) -/
def SE_CH_COUNT (n i : Nat) : Nat := 0x051030 + 64 * n + 4 * i
/-- COL_STATUS, COL (spec/06_slice_engines.md) -/
def COL_STATUS : Nat := 0x060000
/-- COL_COUNT, COL (spec/06_slice_engines.md) -/
def COL_COUNT (i : Nat) : Nat := 0x060100 + 4 * i
/-- SPILL, COL (spec/06_slice_engines.md) -/
def COL_SPILL (s : Nat) : Nat := 0x061000 + 4 * s
/-- CAS_CFG, CAS (spec/08_cascade.md) -/
def CAS_CFG : Nat := 0x070004
/-- TRIG_CFG, CAS (spec/08_cascade.md) -/
def CAS_TRIG_CFG : Nat := 0x070008
/-- ADJ_DATA, CAS (spec/08_cascade.md) -/
def CAS_ADJ_DATA : Nat := 0x070044
/-- COUNT, CAS (spec/08_cascade.md) -/
def CAS_COUNT (i : Nat) : Nat := 0x070100 + 4 * i
/-- PORT_CFG, CAS (spec/08_cascade.md) -/
def CAS_PORT_CFG (j : Nat) : Nat := 0x071000 + 64 * j
/-- PORT_STATUS, CAS (spec/08_cascade.md) -/
def CAS_PORT_STATUS (j : Nat) : Nat := 0x071010 + 64 * j
/-- PORT_COUNT, CAS (spec/08_cascade.md) -/
def CAS_PORT_COUNT (j i : Nat) : Nat := 0x071020 + 64 * j + 4 * i
/-- TQ_STATUS, TQ (spec/09_turn_queues.md) -/
def TQ_STATUS : Nat := 0x080000
/-- TQ_AREA_BASE, TQ (spec/09_turn_queues.md) -/
def TQ_AREA_BASE : Nat := 0x08000C
/-- TQ_AREA_PAGES, TQ (spec/09_turn_queues.md) -/
def TQ_AREA_PAGES : Nat := 0x080010
/-- MARK_TARGET_LO, TQ (spec/09_turn_queues.md) -/
def TQ_MARK_TARGET_LO : Nat := 0x080040
/-- MARK_TARGET_HI, TQ (spec/09_turn_queues.md) -/
def TQ_MARK_TARGET_HI : Nat := 0x080044
/-- MARK_CMD, TQ (spec/09_turn_queues.md) -/
def TQ_MARK_CMD : Nat := 0x080048
/-- MARK_LO, TQ (spec/09_turn_queues.md) -/
def TQ_MARK_LO : Nat := 0x080050
/-- MARK_HI, TQ (spec/09_turn_queues.md) -/
def TQ_MARK_HI : Nat := 0x080054
/-- REWIND_FIRST_LO, TQ (spec/09_turn_queues.md) -/
def TQ_REWIND_FIRST_LO : Nat := 0x080060
/-- REWIND_FIRST_HI, TQ (spec/09_turn_queues.md) -/
def TQ_REWIND_FIRST_HI : Nat := 0x080064
/-- REWIND_COUNT, TQ (spec/09_turn_queues.md) -/
def TQ_REWIND_COUNT : Nat := 0x080068
/-- REWIND_CMD, TQ (spec/09_turn_queues.md) -/
def TQ_REWIND_CMD : Nat := 0x08006C
/-- UP_CMD, TQ (spec/09_turn_queues.md) -/
def TQ_UP_CMD : Nat := 0x080080
/-- OLDEST_LO, TQ (spec/09_turn_queues.md) -/
def TQ_OLDEST_LO : Nat := 0x080090
/-- OLDEST_HI, TQ (spec/09_turn_queues.md) -/
def TQ_OLDEST_HI : Nat := 0x080094
/-- NEWEST_ACK_LO, TQ (spec/09_turn_queues.md) -/
def TQ_NEWEST_ACK_LO : Nat := 0x080098
/-- NEWEST_ACK_HI, TQ (spec/09_turn_queues.md) -/
def TQ_NEWEST_ACK_HI : Nat := 0x08009C
/-- FREE_PAGES, TQ (spec/09_turn_queues.md) -/
def TQ_FREE_PAGES : Nat := 0x0800A0
/-- DESC_SEL, TQ (spec/09_turn_queues.md) -/
def TQ_DESC_SEL : Nat := 0x0800B0
/-- DESC_DATA, TQ (spec/09_turn_queues.md) -/
def TQ_DESC_DATA (w : Nat) : Nat := 0x0800B4 + 4 * w
/-- COUNT, TQ (spec/09_turn_queues.md) -/
def TQ_COUNT (i : Nat) : Nat := 0x080100 + 4 * i
/-- CMP_STATUS, CMP (spec/10_compression.md) -/
def CMP_STATUS : Nat := 0x090000
/-- JOB_IN_LO, CMP (spec/10_compression.md) -/
def CMP_JOB_IN_LO : Nat := 0x090040
/-- JOB_IN_HI, CMP (spec/10_compression.md) -/
def CMP_JOB_IN_HI : Nat := 0x090044
/-- JOB_IN_LEN, CMP (spec/10_compression.md) -/
def CMP_JOB_IN_LEN : Nat := 0x090048
/-- JOB_OUT_LO, CMP (spec/10_compression.md) -/
def CMP_JOB_OUT_LO : Nat := 0x09004C
/-- JOB_OUT_HI, CMP (spec/10_compression.md) -/
def CMP_JOB_OUT_HI : Nat := 0x090050
/-- JOB_OUT_SPACE, CMP (spec/10_compression.md) -/
def CMP_JOB_OUT_SPACE : Nat := 0x090054
/-- JOB_CAP, CMP (spec/10_compression.md) -/
def CMP_JOB_CAP : Nat := 0x090058
/-- JOB_CMD, CMP (spec/10_compression.md) -/
def CMP_JOB_CMD : Nat := 0x09005C
/-- JOB_IN_DONE, CMP (spec/10_compression.md) -/
def CMP_JOB_IN_DONE : Nat := 0x090064
/-- JOB_OUT_DONE, CMP (spec/10_compression.md) -/
def CMP_JOB_OUT_DONE : Nat := 0x090068
/-- JOB_BLOCKS, CMP (spec/10_compression.md) -/
def CMP_JOB_BLOCKS : Nat := 0x09006C
/-- CMP_RATE, CMP (spec/10_compression.md) -/
def CMP_RATE : Nat := 0x090080
/-- COUNT, CMP (spec/10_compression.md) -/
def CMP_COUNT (i : Nat) : Nat := 0x090100 + 4 * i
/-- LNK_CMD, LNK (spec/11_ports.md) -/
def LNK_CMD : Nat := 0x0A0020
/-- PORT_CFG, LNK (spec/11_ports.md) -/
def LNK_PORT_CFG (p : Nat) : Nat := 0x0A0100 + 16 * p
/-- PORT_STATUS, LNK (spec/11_ports.md) -/
def LNK_PORT_STATUS (p : Nat) : Nat := 0x0A0108 + 16 * p
/-- PEER_CAP, LNK (spec/11_ports.md) -/
def LNK_PEER_CAP (p : Nat) : Nat := 0x0A010C + 16 * p
/-- PORT_COUNT, LNK (spec/11_ports.md) -/
def LNK_PORT_COUNT (p i : Nat) : Nat := 0x0A0400 + 32 * p + 4 * i
/-- LANE_STATUS, LNK (spec/11_ports.md) -/
def LNK_LANE_STATUS (l : Nat) : Nat := 0x0A1000 + 64 * l
/-- LANE_EYE, LNK (spec/11_ports.md) -/
def LNK_LANE_EYE (l : Nat) : Nat := 0x0A1004 + 64 * l
/-- LANE_ADAPT, LNK (spec/11_ports.md) -/
def LNK_LANE_ADAPT (l : Nat) : Nat := 0x0A1008 + 64 * l
/-- LANE_COUNT, LNK (spec/11_ports.md) -/
def LNK_LANE_COUNT (l i : Nat) : Nat := 0x0A1010 + 64 * l + 4 * i
/-- LANE_PRBS_ERR, LNK (spec/11_ports.md) -/
def LNK_LANE_PRBS_ERR (l : Nat) : Nat := 0x0A1034 + 64 * l
/-- LANE_PRBS_BITS, LNK (spec/11_ports.md) -/
def LNK_LANE_PRBS_BITS (l : Nat) : Nat := 0x0A1038 + 64 * l
/-- MBX_STATE, MBX (spec/12_mailbox.md) -/
def MBX_STATE : Nat := 0x0B0000
/-- MBX_PATH, MBX (spec/12_mailbox.md) -/
def MBX_PATH : Nat := 0x0B0004
/-- DOORBELL_IN, MBX (spec/12_mailbox.md) -/
def MBX_DOORBELL_IN : Nat := 0x0B0008
/-- DOORBELL_OUT, MBX (spec/12_mailbox.md) -/
def MBX_DOORBELL_OUT : Nat := 0x0B000C
/-- I2C_CFG, MBX (spec/12_mailbox.md) -/
def MBX_I2C_CFG : Nat := 0x0B0010
/-- COUNT, MBX (spec/12_mailbox.md) -/
def MBX_COUNT (i : Nat) : Nat := 0x0B0100 + 4 * i
/-- MBX_RAM, MBX (spec/12_mailbox.md) -/
def MBX_RAM (m w : Nat) : Nat := 0x0B1000 + 512 * m + 4 * w
/-- MBX_RAM_U, MBX (spec/12_mailbox.md) -/
def MBX_RAM_U (m w : Nat) : Nat := 0x0B1C00 + 512 * m + 4 * w
/-- MBX_RAM_S, MBX (spec/12_mailbox.md) -/
def MBX_RAM_S (m w : Nat) : Nat := 0x0B8000 + 512 * m + 4 * w
/-- RESET_CAUSE, PWR (spec/13_modes.md) -/
def PWR_RESET_CAUSE : Nat := 0x120008
/-- BOOT_TURNS, PWR (spec/13_modes.md) -/
def PWR_BOOT_TURNS : Nat := 0x12000C
/-- MODE_CTRL, PWR (spec/13_modes.md) -/
def PWR_MODE_CTRL : Nat := 0x120010
/-- SCAN_MASK_LO, PWR (spec/13_modes.md) -/
def PWR_SCAN_MASK_LO : Nat := 0x120028
/-- SCAN_MASK_HI, PWR (spec/13_modes.md) -/
def PWR_SCAN_MASK_HI : Nat := 0x12002C
/-- COUNT, PWR (spec/13_modes.md) -/
def PWR_COUNT (i : Nat) : Nat := 0x120100 + 4 * i
/-- DMA_DONE, DMA (spec/14_dma.md) -/
def DMA_DONE : Nat := 0x0C0004
/-- CH_COUNT, DMA (spec/14_dma.md) -/
def DMA_CH_COUNT (c i : Nat) : Nat := 0x0C1020 + 64 * c + 4 * i
/-- MEM_STATUS, MEM (spec/15_memory.md) -/
def MEM_STATUS : Nat := 0x0D0000
/-- SDRAM_INFO, MEM (spec/15_memory.md) -/
def MEM_SDRAM_INFO : Nat := 0x0D0004
/-- FIFO_PROT, MEM (spec/15_memory.md) -/
def MEM_FIFO_PROT : Nat := 0x0D0008
/-- SCRUB_LAST, MEM (spec/15_memory.md) -/
def MEM_SCRUB_LAST (m : Nat) : Nat := 0x0D0020 + 4 * m
/-- COUNT, MEM (spec/15_memory.md) -/
def MEM_FAM_COUNT (f i : Nat) : Nat := 0x0D0200 + 16 * f + 4 * i
/-- MEM_COUNT, MEM (spec/15_memory.md) -/
def MEM_COUNT (i : Nat) : Nat := 0x0D0300 + 4 * i
/-- WEAR_MAX, MEM (spec/15_memory.md) -/
def MEM_WEAR_MAX : Nat := 0x0D0420
/-- FLIP_CTRL, MEM (spec/15_memory.md) -/
def MEM_FLIP_CTRL : Nat := 0x0D8000
/-- FLIP_ADDR_LO, MEM (spec/15_memory.md) -/
def MEM_FLIP_ADDR_LO : Nat := 0x0D8004
/-- FLIP_ADDR_HI, MEM (spec/15_memory.md) -/
def MEM_FLIP_ADDR_HI : Nat := 0x0D8008
/-- FLIP_DATA, MEM (spec/15_memory.md) -/
def MEM_FLIP_DATA (i : Nat) : Nat := 0x0D8010 + 4 * i
/-- FLIP_CHECK, MEM (spec/15_memory.md) -/
def MEM_FLIP_CHECK : Nat := 0x0D8020
/-- MON_STATUS, MON (spec/16_monitor.md) -/
def MON_STATUS : Nat := 0x0E0000
/-- INJ_ENTRY0, MON (spec/16_monitor.md) -/
def MON_INJ_ENTRY0 : Nat := 0x0E0040
/-- INJ_ENTRY1, MON (spec/16_monitor.md) -/
def MON_INJ_ENTRY1 : Nat := 0x0E0044
/-- INJ_CMD, MON (spec/16_monitor.md) -/
def MON_INJ_CMD : Nat := 0x0E0048
/-- CAL_CTRL, MON (spec/16_monitor.md) -/
def MON_CAL_CTRL : Nat := 0x0E0050
/-- CAL_FS, MON (spec/16_monitor.md) -/
def MON_CAL_FS : Nat := 0x0E0054
/-- CAL_STATUS, MON (spec/16_monitor.md) -/
def MON_CAL_STATUS : Nat := 0x0E0058
/-- CAL_OFFSET, MON (spec/16_monitor.md) -/
def MON_CAL_OFFSET (g : Nat) : Nat := 0x0E0080 + 8 * g
/-- CAL_GAIN, MON (spec/16_monitor.md) -/
def MON_CAL_GAIN (g : Nat) : Nat := 0x0E0084 + 8 * g
/-- SEQ_ENTRY0, MON (spec/16_monitor.md) -/
def MON_SEQ_ENTRY0 (e : Nat) : Nat := 0x0E0400 + 8 * e
/-- SEQ_ENTRY1, MON (spec/16_monitor.md) -/
def MON_SEQ_ENTRY1 (e : Nat) : Nat := 0x0E0404 + 8 * e
/-- SP_COEF, MON (spec/16_monitor.md) -/
def MON_SP_COEF (s k : Nat) : Nat := 0x0E0804 + 64 * s + 4 * k
/-- MON_IN_SCALE, MON (spec/16_monitor.md) -/
def MON_IN_SCALE (i : Nat) : Nat := 0x0E0A00 + 4 * i
/-- BIAS_COEF, MON (spec/16_monitor.md) -/
def MON_BIAS_COEF (k m : Nat) : Nat := 0x0E0C04 + 128 * k + 4 * m
/-- LAST_RESULT, MON (spec/16_monitor.md) -/
def MON_LAST_RESULT (e w : Nat) : Nat := 0x0E1000 + 16 * e + 4 * w
/-- GROUP_TEMP, MON (spec/16_monitor.md) -/
def MON_GROUP_TEMP (k : Nat) : Nat := 0x0E1400 + 4 * k
/-- BIAS_STATUS, MON (spec/16_monitor.md) -/
def MON_BIAS_STATUS : Nat := 0x0E1420
/-- COUNT, MON (spec/16_monitor.md) -/
def MON_COUNT (i : Nat) : Nat := 0x0E0100 + 4 * i
/-- GRD_STATUS, GRD (spec/17_guard.md) -/
def GRD_STATUS : Nat := 0x0F0000
/-- TRIP_LATCHED, GRD (spec/17_guard.md) -/
def GRD_TRIP_LATCHED : Nat := 0x0F0004
/-- TRIP_ACTIVE, GRD (spec/17_guard.md) -/
def GRD_TRIP_ACTIVE : Nat := 0x0F0008
/-- COUNT, GRD (spec/17_guard.md) -/
def GRD_COUNT (i : Nat) : Nat := 0x0F0200 + 4 * i
/-- GCMD, GRD (spec/17_guard.md) -/
def GRD_GCMD : Nat := 0x0F8000
/-- GCMD_ARG, GRD (spec/17_guard.md) -/
def GRD_GCMD_ARG : Nat := 0x0F8004
/-- GCMD_SERIAL, GRD (spec/17_guard.md) -/
def GRD_GCMD_SERIAL : Nat := 0x0F8008
/-- GPB_PEND, GRD (spec/17_guard.md) -/
def GRD_GPB_PEND (w : Nat) : Nat := 0x0F8100 + 4 * w
/-- FLT_POP_HI, FLT (spec/18_faults.md) -/
def FLT_POP_HI : Nat := 0x100010
/-- FLT_CMD, FLT (spec/18_faults.md) -/
def FLT_CMD : Nat := 0x100020
/-- REACT, FLT (spec/18_faults.md) -/
def FLT_REACT (k : Nat) : Nat := 0x100100 + 4 * k
/-- FE, FLT (spec/18_faults.md) -/
def FLT_FE (c w : Nat) : Nat := 0x100400 + 32 * c + 4 * w
/-- FE_CLEAR, FLT (spec/18_faults.md) -/
def FLT_FE_CLEAR : Nat := 0x100500
/-- RESET_FAULT_KIND, FLT (spec/18_faults.md) -/
def FLT_RESET_FAULT_KIND : Nat := 0x100610
/-- RESET_FAULT_LT, FLT (spec/18_faults.md) -/
def FLT_RESET_FAULT_LT : Nat := 0x100614
/-- RESET_FAULT_PC, FLT (spec/18_faults.md) -/
def FLT_RESET_FAULT_PC : Nat := 0x100618
/-- COUNT, FLT (spec/18_faults.md) -/
def FLT_COUNT (i : Nat) : Nat := 0x100700 + 4 * i
/-- WDOG_KICK, FLT (spec/18_faults.md) -/
def FLT_WDOG_KICK : Nat := 0x108004
/-- DEBUG_NONCE, SEC (spec/19_security.md) -/
def SEC_DEBUG_NONCE (i : Nat) : Nat := 0x110010 + 4 * i
/-- COUNT, SEC (spec/19_security.md) -/
def SEC_COUNT (i : Nat) : Nat := 0x110100 + 4 * i
/-- WORLD_LO, SEC (spec/19_security.md) -/
def SEC_WORLD_LO : Nat := 0x118000
/-- WORLD_HI, SEC (spec/19_security.md) -/
def SEC_WORLD_HI : Nat := 0x118004
/-- REGION_BASE, SEC (spec/19_security.md) -/
def SEC_REGION_BASE (r : Nat) : Nat := 0x118100 + 16 * r
/-- REGION_LIMIT, SEC (spec/19_security.md) -/
def SEC_REGION_LIMIT (r : Nat) : Nat := 0x118104 + 16 * r
/-- REGION_ATTR, SEC (spec/19_security.md) -/
def SEC_REGION_ATTR (r : Nat) : Nat := 0x118108 + 16 * r

end Sys2Proof.Machine.R

/-! Register fields, by register and field name. -/
namespace Sys2Proof.Machine.F

/-- FEATURES.VARIANT -/
def PWR_FEATURES_VARIANT : FRef := ⟨0x120000, 31, 28⟩
/-- FEATURES.SDRAM_GIB -/
def PWR_FEATURES_SDRAM_GIB : FRef := ⟨0x120000, 27, 22⟩
/-- FEATURES.UP_LANES -/
def PWR_FEATURES_UP_LANES : FRef := ⟨0x120000, 21, 19⟩
/-- FEATURES.DN_PORTS -/
def PWR_FEATURES_DN_PORTS : FRef := ⟨0x120000, 18, 15⟩
/-- FEATURES.SLUICE -/
def PWR_FEATURES_SLUICE : FRef := ⟨0x120000, 4, 4⟩
/-- FEATURES.SDRAM -/
def PWR_FEATURES_SDRAM : FRef := ⟨0x120000, 2, 2⟩
/-- TRN_STATUS.TURN_VALID -/
def TRN_STATUS_TURN_VALID : FRef := ⟨0x000000, 31, 31⟩
/-- TRN_STATUS.DIRTY_OVF -/
def TRN_STATUS_DIRTY_OVF : FRef := ⟨0x000000, 29, 29⟩
/-- TRN_STATUS.CFG_GEN -/
def TRN_STATUS_CFG_GEN : FRef := ⟨0x000000, 23, 16⟩
/-- COMMIT_STATUS.DEFERRED -/
def TRN_COMMIT_STATUS_DEFERRED : FRef := ⟨0x00001C, 31, 31⟩
/-- COMMIT_STATUS.REFUSED -/
def TRN_COMMIT_STATUS_REFUSED : FRef := ⟨0x00001C, 30, 30⟩
/-- COMMIT_STATUS.LAST_SLOT -/
def TRN_COMMIT_STATUS_LAST_SLOT : FRef := ⟨0x00001C, 26, 24⟩
/-- COMMIT_STATUS.LAST_TAG -/
def TRN_COMMIT_STATUS_LAST_TAG : FRef := ⟨0x00001C, 23, 16⟩
/-- COMMIT_STATUS.LAST_REASON -/
def TRN_COMMIT_STATUS_LAST_REASON : FRef := ⟨0x00001C, 15, 12⟩
/-- COMMIT_STATUS.LAST_RESULT -/
def TRN_COMMIT_STATUS_LAST_RESULT : FRef := ⟨0x00001C, 7, 0⟩
/-- BUDGET.PIPS -/
def TRN_BUDGET_PIPS (r a : Nat) : FRef := ⟨0x000100 + 32 * r + 4 * a, 9, 0⟩
/-- TIME_STATUS.AT_STATE -/
def TIME_STATUS_AT_STATE : FRef := ⟨0x010000, 31, 30⟩
/-- TIME_STATUS.AT_SRC -/
def TIME_STATUS_AT_SRC : FRef := ⟨0x010000, 29, 29⟩
/-- TIME_STATUS.PT_STATE -/
def TIME_STATUS_PT_STATE : FRef := ⟨0x010000, 28, 27⟩
/-- TIME_STATUS.JUMP_HOLD -/
def TIME_STATUS_JUMP_HOLD : FRef := ⟨0x010000, 26, 26⟩
/-- TIME_STATUS.MASTER_DISAGREE -/
def TIME_STATUS_MASTER_DISAGREE : FRef := ⟨0x010000, 25, 25⟩
/-- TIME_STATUS.STEP_PENDING -/
def TIME_STATUS_STEP_PENDING : FRef := ⟨0x010000, 24, 24⟩
/-- TIME_STATUS.CLAMPED -/
def TIME_STATUS_CLAMPED : FRef := ⟨0x010000, 23, 23⟩
/-- TIME_STATUS.DELAY_VALID_B -/
def TIME_STATUS_DELAY_VALID_B : FRef := ⟨0x010000, 22, 22⟩
/-- TIME_STATUS.DELAY_VALID_A -/
def TIME_STATUS_DELAY_VALID_A : FRef := ⟨0x010000, 21, 21⟩
/-- TIME_STATUS.ST_VALID -/
def TIME_STATUS_ST_VALID : FRef := ⟨0x010000, 20, 20⟩
/-- TIME_STATUS.PORT_B_UP -/
def TIME_STATUS_PORT_B_UP : FRef := ⟨0x010000, 19, 19⟩
/-- TIME_STATUS.PORT_A_UP -/
def TIME_STATUS_PORT_A_UP : FRef := ⟨0x010000, 18, 18⟩
/-- TIME_CTRL.ACTIVE_SEL -/
def TIME_CTRL_ACTIVE_SEL : FRef := ⟨0x010004, 29, 29⟩
/-- TIME_CTRL.REVERT -/
def TIME_CTRL_REVERT : FRef := ⟨0x010004, 28, 28⟩
/-- TIME_CTRL.BEACON_MISS -/
def TIME_CTRL_BEACON_MISS : FRef := ⟨0x010004, 27, 24⟩
/-- TIME_CTRL.DOMAIN -/
def TIME_CTRL_DOMAIN : FRef := ⟨0x010004, 23, 16⟩
/-- TIME_CTRL.DELAY_AVG_LOG2 -/
def TIME_CTRL_DELAY_AVG_LOG2 : FRef := ⟨0x010004, 15, 12⟩
/-- TIME_CTRL.EXCH_TXTS -/
def TIME_CTRL_EXCH_TXTS : FRef := ⟨0x010004, 11, 11⟩
/-- TIME_CTRL.EXCH_PERIOD -/
def TIME_CTRL_EXCH_PERIOD : FRef := ⟨0x010004, 8, 0⟩
/-- SERVO_CFG.KP_SHIFT -/
def TIME_SERVO_CFG_KP_SHIFT : FRef := ⟨0x010008, 12, 8⟩
/-- SERVO_CFG.KI_SHIFT -/
def TIME_SERVO_CFG_KI_SHIFT : FRef := ⟨0x010008, 4, 0⟩
/-- LIMIT_CFG.JUMP_LIMIT_PS -/
def TIME_LIMIT_CFG_JUMP_LIMIT_PS : FRef := ⟨0x01000C, 31, 16⟩
/-- LIMIT_CFG.LOCK_THRESH -/
def TIME_LIMIT_CFG_LOCK_THRESH : FRef := ⟨0x01000C, 15, 8⟩
/-- LIMIT_CFG.LOCK_TURNS_X16 -/
def TIME_LIMIT_CFG_LOCK_TURNS_X16 : FRef := ⟨0x01000C, 7, 0⟩
/-- STEP_STATUS.LAST_DROPPED -/
def TIME_STEP_STATUS_LAST_DROPPED : FRef := ⟨0x010014, 31, 31⟩
/-- STEP_STATUS.MODE -/
def TIME_STEP_STATUS_MODE : FRef := ⟨0x010014, 30, 28⟩
/-- STEP_STATUS.LAST_F -/
def TIME_STEP_STATUS_LAST_F : FRef := ⟨0x010014, 25, 0⟩
/-- TXTS_STATUS.OVF -/
def TIME_TXTS_STATUS_OVF (p : Nat) : FRef := ⟨0x010100 + 32 * p, 31, 31⟩
/-- AFE_STATUS.GPB_HOLD -/
def AFE_STATUS_GPB_HOLD : FRef := ⟨0x020000, 28, 28⟩
/-- TP_CTRL.ENABLE -/
def AFE_TP_CTRL_ENABLE : FRef := ⟨0x020010, 31, 31⟩
/-- TP_CTRL.REPEAT -/
def AFE_TP_CTRL_REPEAT : FRef := ⟨0x020010, 15, 0⟩
/-- TP_START_HI.START_HI -/
def AFE_TP_START_HI_START_HI : FRef := ⟨0x020018, 15, 0⟩
/-- TP_POS.CT -/
def AFE_TP_POS_CT : FRef := ⟨0x02001C, 13, 0⟩
/-- CH_CFG.EN -/
def AFE_CH_CFG_EN (n : Nat) : FRef := ⟨0x021000 + 64 * n, 31, 31⟩
/-- CH_CFG.TP_EN -/
def AFE_CH_CFG_TP_EN (n : Nat) : FRef := ⟨0x021000 + 64 * n, 25, 25⟩
/-- CH_CFG.TP_RANGE -/
def AFE_CH_CFG_TP_RANGE (n : Nat) : FRef := ⟨0x021000 + 64 * n, 24, 24⟩
/-- CH_CFG.PED_HG -/
def AFE_CH_CFG_PED_HG (n : Nat) : FRef := ⟨0x021000 + 64 * n, 23, 18⟩
/-- CH_CFG.PED_LG -/
def AFE_CH_CFG_PED_LG (n : Nat) : FRef := ⟨0x021000 + 64 * n, 17, 12⟩
/-- CH_CFG.TP_AMP -/
def AFE_CH_CFG_TP_AMP (n : Nat) : FRef := ⟨0x021000 + 64 * n, 9, 0⟩
/-- BTRIM.SRC -/
def AFE_BTRIM_SRC (n : Nat) : FRef := ⟨0x021004 + 64 * n, 31, 31⟩
/-- BTRIM.CODE -/
def AFE_BTRIM_CODE (n : Nat) : FRef := ⟨0x021004 + 64 * n, 11, 0⟩
/-- THR.HYST_HIGH -/
def AFE_THR_HYST_HIGH (n : Nat) : FRef := ⟨0x021008 + 64 * n, 31, 29⟩
/-- THR.HYST_LOW -/
def AFE_THR_HYST_LOW (n : Nat) : FRef := ⟨0x021008 + 64 * n, 28, 26⟩
/-- THR.THR_HIGH -/
def AFE_THR_THR_HIGH (n : Nat) : FRef := ⟨0x021008 + 64 * n, 25, 16⟩
/-- THR.THR_LOW -/
def AFE_THR_THR_LOW (n : Nat) : FRef := ⟨0x021008 + 64 * n, 9, 0⟩
/-- PHASE.PH_LG -/
def AFE_PHASE_PH_LG (n : Nat) : FRef := ⟨0x02100C + 64 * n, 25, 16⟩
/-- PHASE.PH_HG -/
def AFE_PHASE_PH_HG (n : Nat) : FRef := ⟨0x02100C + 64 * n, 9, 0⟩
/-- SKEW.SKEW -/
def AFE_SKEW_SKEW (n : Nat) : FRef := ⟨0x021010 + 64 * n, 15, 0⟩
/-- BTRIM_OUT.CLAMPED -/
def AFE_BTRIM_OUT_CLAMPED (n : Nat) : FRef := ⟨0x021014 + 64 * n, 31, 31⟩
/-- BTRIM_OUT.SLEWING -/
def AFE_BTRIM_OUT_SLEWING (n : Nat) : FRef := ⟨0x021014 + 64 * n, 30, 30⟩
/-- BTRIM_OUT.TARGET -/
def AFE_BTRIM_OUT_TARGET (n : Nat) : FRef := ⟨0x021014 + 64 * n, 27, 16⟩
/-- BTRIM_OUT.OUT -/
def AFE_BTRIM_OUT_OUT (n : Nat) : FRef := ⟨0x021014 + 64 * n, 11, 0⟩
/-- TDC_STATUS.INIT_DONE -/
def TDC_STATUS_INIT_DONE : FRef := ⟨0x030000, 31, 31⟩
/-- TDC_STATUS.FULL_RUNNING -/
def TDC_STATUS_FULL_RUNNING : FRef := ⟨0x030000, 30, 30⟩
/-- TDC_STATUS.NOT_VALID -/
def TDC_STATUS_NOT_VALID : FRef := ⟨0x030000, 7, 0⟩
/-- TDC_CTRL.STALE_MULT -/
def TDC_CTRL_STALE_MULT : FRef := ⟨0x030004, 7, 4⟩
/-- TDC_CTRL.ROT_LOG2 -/
def TDC_CTRL_ROT_LOG2 : FRef := ⟨0x030004, 3, 0⟩
/-- QUAL_CFG.MAX_BIN_FB -/
def TDC_QUAL_CFG_MAX_BIN_FB : FRef := ⟨0x030008, 31, 24⟩
/-- QUAL_CFG.ALIGN_RMS_FB -/
def TDC_QUAL_CFG_ALIGN_RMS_FB : FRef := ⟨0x030008, 23, 16⟩
/-- QUAL_CFG.DRIFT_LIMIT -/
def TDC_QUAL_CFG_DRIFT_LIMIT : FRef := ⟨0x030008, 15, 0⟩
/-- TDC_CMD_STATUS.RESULT -/
def TDC_CMD_STATUS_RESULT : FRef := ⟨0x030024, 7, 0⟩
/-- TABLE_SEL.KIND -/
def TDC_TABLE_SEL_KIND : FRef := ⟨0x030040, 31, 30⟩
/-- TABLE_SEL.UNIT -/
def TDC_TABLE_SEL_UNIT : FRef := ⟨0x030040, 21, 14⟩
/-- TABLE_SEL.CHAIN -/
def TDC_TABLE_SEL_CHAIN : FRef := ⟨0x030040, 11, 9⟩
/-- TABLE_SEL.ENTRY -/
def TDC_TABLE_SEL_ENTRY : FRef := ⟨0x030040, 8, 0⟩
/-- AUX_CFG.PRESCALE -/
def TDC_AUX_CFG_PRESCALE : FRef := ⟨0x030080, 7, 4⟩
/-- AUX_CFG.TRIG_ORPHAN_DROP -/
def TDC_AUX_CFG_TRIG_ORPHAN_DROP : FRef := ⟨0x030080, 3, 3⟩
/-- AUX_CFG.TRIG_MODE -/
def TDC_AUX_CFG_TRIG_MODE : FRef := ⟨0x030080, 2, 2⟩
/-- AUX_CFG.FREQ_EN -/
def TDC_AUX_CFG_FREQ_EN : FRef := ⟨0x030080, 1, 1⟩
/-- AUX_CFG.TRIG_EN -/
def TDC_AUX_CFG_TRIG_EN : FRef := ⟨0x030080, 0, 0⟩
/-- TDC_CH_CFG.HIGH_ORPHAN_DROP -/
def TDC_CH_CFG_HIGH_ORPHAN_DROP (n : Nat) : FRef := ⟨0x030400 + 4 * n, 5, 5⟩
/-- TDC_CH_CFG.LOW_ORPHAN_DROP -/
def TDC_CH_CFG_LOW_ORPHAN_DROP (n : Nat) : FRef := ⟨0x030400 + 4 * n, 4, 4⟩
/-- TDC_CH_CFG.HIGH_MODE -/
def TDC_CH_CFG_HIGH_MODE (n : Nat) : FRef := ⟨0x030400 + 4 * n, 3, 3⟩
/-- TDC_CH_CFG.LOW_MODE -/
def TDC_CH_CFG_LOW_MODE (n : Nat) : FRef := ⟨0x030400 + 4 * n, 2, 2⟩
/-- TDC_CH_CFG.HIGH_EN -/
def TDC_CH_CFG_HIGH_EN (n : Nat) : FRef := ⟨0x030400 + 4 * n, 1, 1⟩
/-- TDC_CH_CFG.LOW_EN -/
def TDC_CH_CFG_LOW_EN (n : Nat) : FRef := ⟨0x030400 + 4 * n, 0, 0⟩
/-- FR_CFG.EN -/
def TDC_FR_CFG_EN (e : Nat) : FRef := ⟨0x030800 + 64 * e, 31, 31⟩
/-- FR_CFG.KIND -/
def TDC_FR_CFG_KIND (e : Nat) : FRef := ⟨0x030800 + 64 * e, 30, 29⟩
/-- FR_CFG.POL -/
def TDC_FR_CFG_POL (e : Nat) : FRef := ⟨0x030800 + 64 * e, 28, 28⟩
/-- FR_CFG.STOP_SRC -/
def TDC_FR_CFG_STOP_SRC (e : Nat) : FRef := ⟨0x030800 + 64 * e, 15, 8⟩
/-- FR_CFG.SRC -/
def TDC_FR_CFG_SRC (e : Nat) : FRef := ⟨0x030800 + 64 * e, 7, 0⟩
/-- FR_GATE.GMODE -/
def TDC_FR_GATE_GMODE (e : Nat) : FRef := ⟨0x030804 + 64 * e, 31, 30⟩
/-- FR_GATE.GATE_TURNS -/
def TDC_FR_GATE_GATE_TURNS (e : Nat) : FRef := ⟨0x030804 + 64 * e, 15, 0⟩
/-- FR_STATUS.GATE_OPEN -/
def TDC_FR_STATUS_GATE_OPEN (e : Nat) : FRef := ⟨0x030808 + 64 * e, 31, 31⟩
/-- FR_STATUS.UNCAL -/
def TDC_FR_STATUS_UNCAL (e : Nat) : FRef := ⟨0x030808 + 64 * e, 23, 23⟩
/-- FR_STATUS.EMPTY -/
def TDC_FR_STATUS_EMPTY (e : Nat) : FRef := ⟨0x030808 + 64 * e, 22, 22⟩
/-- FR_STATUS.TRUNCATED -/
def TDC_FR_STATUS_TRUNCATED (e : Nat) : FRef := ⟨0x030808 + 64 * e, 21, 21⟩
/-- FR_STATUS.STEPPED -/
def TDC_FR_STATUS_STEPPED (e : Nat) : FRef := ⟨0x030808 + 64 * e, 20, 20⟩
/-- FR_STATUS.ABORTED -/
def TDC_FR_STATUS_ABORTED (e : Nat) : FRef := ⟨0x030808 + 64 * e, 19, 19⟩
/-- FR_STATUS.REVERSED -/
def TDC_FR_STATUS_REVERSED (e : Nat) : FRef := ⟨0x030808 + 64 * e, 18, 18⟩
/-- FR_STATUS.UNPAIRED -/
def TDC_FR_STATUS_UNPAIRED (e : Nat) : FRef := ⟨0x030808 + 64 * e, 17, 0⟩
/-- CAP_STATUS.ITRIM_SETTLED -/
def CAP_STATUS_ITRIM_SETTLED : FRef := ⟨0x040000, 28, 28⟩
/-- CAP_GEOM.S_LOG2 -/
def CAP_GEOM_S_LOG2 : FRef := ⟨0x040004, 19, 16⟩
/-- CAP_GEOM.W_K -/
def CAP_GEOM_W_K : FRef := ⟨0x040004, 3, 0⟩
/-- CAP_REC.POST -/
def CAP_REC_POST : FRef := ⟨0x040008, 29, 16⟩
/-- CAP_REC.PRE -/
def CAP_REC_PRE : FRef := ⟨0x040008, 13, 0⟩
/-- CAP_DEC.ACCEPT_OFFSET -/
def CAP_DEC_ACCEPT_OFFSET : FRef := ⟨0x04000C, 27, 24⟩
/-- CAP_DEC.DEC_WIN -/
def CAP_DEC_DEC_WIN : FRef := ⟨0x04000C, 11, 0⟩
/-- CAP_CFG.WAVE_GAINS -/
def CAP_CFG_WAVE_GAINS : FRef := ⟨0x040010, 23, 22⟩
/-- CAP_CFG.PRIM_EN -/
def CAP_CFG_PRIM_EN : FRef := ⟨0x040010, 21, 21⟩
/-- CAP_CFG.ITRIM_EN -/
def CAP_CFG_ITRIM_EN : FRef := ⟨0x040010, 20, 20⟩
/-- CAP_CFG.ITRIM_FREEZE -/
def CAP_CFG_ITRIM_FREEZE : FRef := ⟨0x040010, 19, 19⟩
/-- CAP_CFG.TRIG_OUT_SEL -/
def CAP_CFG_TRIG_OUT_SEL : FRef := ⟨0x040010, 18, 16⟩
/-- CAP_CFG.LEVEL_FILT -/
def CAP_CFG_LEVEL_FILT : FRef := ⟨0x040010, 15, 14⟩
/-- CAP_CFG.PRE_MULT -/
def CAP_CFG_PRE_MULT : FRef := ⟨0x040010, 13, 7⟩
/-- CLASS_CFG.ACCEPT_EN -/
def CAP_CLASS_CFG_ACCEPT_EN (c : Nat) : FRef := ⟨0x040020 + 4 * c, 31, 31⟩
/-- CLASS_CFG.FORCE_WAVE -/
def CAP_CLASS_CFG_FORCE_WAVE (c : Nat) : FRef := ⟨0x040020 + 4 * c, 30, 30⟩
/-- CLASS_CFG.SCOPE -/
def CAP_CLASS_CFG_SCOPE (c : Nat) : FRef := ⟨0x040020 + 4 * c, 29, 28⟩
/-- CAP_CH_CFG.SRC_EN -/
def CAP_CH_CFG_SRC_EN (n : Nat) : FRef := ⟨0x041000 + 64 * n, 31, 24⟩
/-- CAP_CH_CFG.PRIM_SRC -/
def CAP_CH_CFG_PRIM_SRC (n : Nat) : FRef := ⟨0x041000 + 64 * n, 23, 21⟩
/-- CAP_CH_CFG.LEVEL_THR -/
def CAP_CH_CFG_LEVEL_THR (n : Nat) : FRef := ⟨0x041000 + 64 * n, 11, 0⟩
/-- SE_STATUS.BUSY -/
def SE_STATUS_BUSY : FRef := ⟨0x050000, 31, 24⟩
/-- SE_CFG.LIN_BANK -/
def SE_CFG_LIN_BANK : FRef := ⟨0x050004, 0, 0⟩
/-- LIN_SEL.BANK -/
def SE_LIN_SEL_BANK : FRef := ⟨0x050020, 31, 31⟩
/-- LIN_SEL.KIND -/
def SE_LIN_SEL_KIND : FRef := ⟨0x050020, 29, 28⟩
/-- LIN_SEL.CHANNEL -/
def SE_LIN_SEL_CHANNEL : FRef := ⟨0x050020, 21, 16⟩
/-- LIN_SEL.ENTRY -/
def SE_LIN_SEL_ENTRY : FRef := ⟨0x050020, 6, 0⟩
/-- SE_CH_CFG.CFD_FRAC -/
def SE_CH_CFG_CFD_FRAC (n : Nat) : FRef := ⟨0x051000 + 64 * n, 31, 28⟩
/-- SE_CH_CFG.FT_MODE -/
def SE_CH_CFG_FT_MODE (n : Nat) : FRef := ⟨0x051000 + 64 * n, 27, 26⟩
/-- SE_CH_CFG.TEST_KEEP -/
def SE_CH_CFG_TEST_KEEP (n : Nat) : FRef := ⟨0x051000 + 64 * n, 25, 25⟩
/-- SE_CH_CFG.LIN_EN -/
def SE_CH_CFG_LIN_EN (n : Nat) : FRef := ⟨0x051000 + 64 * n, 24, 24⟩
/-- SE_CH_CFG.FT_WIN -/
def SE_CH_CFG_FT_WIN (n : Nat) : FRef := ⟨0x051000 + 64 * n, 23, 16⟩
/-- SE_CH_CFG.BASE_LOG2 -/
def SE_CH_CFG_BASE_LOG2 (n : Nat) : FRef := ⟨0x051000 + 64 * n, 15, 12⟩
/-- SE_CH_CFG.TOT_THR -/
def SE_CH_CFG_TOT_THR (n : Nat) : FRef := ⟨0x051000 + 64 * n, 11, 0⟩
/-- SE_CH_INT.INT_START -/
def SE_CH_INT_INT_START (n : Nat) : FRef := ⟨0x051004 + 64 * n, 29, 16⟩
/-- SE_CH_INT.INT_LEN -/
def SE_CH_INT_INT_LEN (n : Nat) : FRef := ⟨0x051004 + 64 * n, 13, 0⟩
/-- SE_CH_WLOW.WEIR_LOW -/
def SE_CH_WLOW_WEIR_LOW (n : Nat) : FRef := ⟨0x051008 + 64 * n, 23, 0⟩
/-- SE_CH_WHIGH.WEIR_HIGH -/
def SE_CH_WHIGH_WEIR_HIGH (n : Nat) : FRef := ⟨0x05100C + 64 * n, 16, 0⟩
/-- SE_CH_GAIN.GR_MODE -/
def SE_CH_GAIN_GR_MODE (n : Nat) : FRef := ⟨0x051010 + 64 * n, 31, 31⟩
/-- SE_CH_GAIN.GAIN_FIXED -/
def SE_CH_GAIN_GAIN_FIXED (n : Nat) : FRef := ⟨0x051010 + 64 * n, 16, 0⟩
/-- GAIN_STATUS.GR_STATE -/
def SE_GAIN_STATUS_GR_STATE (n : Nat) : FRef := ⟨0x051028 + 64 * n, 31, 30⟩
/-- GAIN_STATUS.GAIN -/
def SE_GAIN_STATUS_GAIN (n : Nat) : FRef := ⟨0x051028 + 64 * n, 16, 0⟩
/-- BASE_TRACK.HG -/
def SE_BASE_TRACK_HG (n : Nat) : FRef := ⟨0x05102C + 64 * n, 31, 16⟩
/-- BASE_TRACK.LG -/
def SE_BASE_TRACK_LG (n : Nat) : FRef := ⟨0x05102C + 64 * n, 15, 0⟩
/-- COL_STATUS.DRAINING -/
def COL_STATUS_DRAINING : FRef := ⟨0x060000, 31, 31⟩
/-- CAS_CFG.ROLE -/
def CAS_CFG_ROLE : FRef := ⟨0x070004, 31, 31⟩
/-- CAS_CFG.LEVEL -/
def CAS_CFG_LEVEL : FRef := ⟨0x070004, 26, 24⟩
/-- CAS_CFG.PORT_EN -/
def CAS_CFG_PORT_EN : FRef := ⟨0x070004, 23, 16⟩
/-- CAS_CFG.UP_PRIM -/
def CAS_CFG_UP_PRIM : FRef := ⟨0x070004, 9, 8⟩
/-- TRIG_CFG.CT_EN -/
def CAS_TRIG_CFG_CT_EN : FRef := ⟨0x070008, 31, 31⟩
/-- TRIG_CFG.ADJ_BANK -/
def CAS_TRIG_CFG_ADJ_BANK : FRef := ⟨0x070008, 30, 30⟩
/-- TRIG_CFG.UP_MULT -/
def CAS_TRIG_CFG_UP_MULT : FRef := ⟨0x070008, 25, 16⟩
/-- TRIG_CFG.D_CT -/
def CAS_TRIG_CFG_D_CT : FRef := ⟨0x070008, 10, 0⟩
/-- RULE.EN -/
def CAS_RULE_EN (r : Nat) : FRef := ⟨0x070010 + 4 * r, 31, 31⟩
/-- RULE.KIND -/
def CAS_RULE_KIND (r : Nat) : FRef := ⟨0x070010 + 4 * r, 30, 30⟩
/-- RULE.CLASS -/
def CAS_RULE_CLASS (r : Nat) : FRef := ⟨0x070010 + 4 * r, 29, 27⟩
/-- RULE.WIN -/
def CAS_RULE_WIN (r : Nat) : FRef := ⟨0x070010 + 4 * r, 26, 25⟩
/-- RULE.HOLDOFF -/
def CAS_RULE_HOLDOFF (r : Nat) : FRef := ⟨0x070010 + 4 * r, 24, 21⟩
/-- RULE.N -/
def CAS_RULE_N (r : Nat) : FRef := ⟨0x070010 + 4 * r, 9, 0⟩
/-- ADJ_SEL.BANK -/
def CAS_ADJ_SEL_BANK : FRef := ⟨0x070040, 31, 31⟩
/-- ADJ_SEL.WORD -/
def CAS_ADJ_SEL_WORD : FRef := ⟨0x070040, 11, 11⟩
/-- ADJ_SEL.PIXEL -/
def CAS_ADJ_SEL_PIXEL : FRef := ⟨0x070040, 9, 0⟩
/-- PORT_CFG.EXPECT_ID -/
def CAS_PORT_CFG_EXPECT_ID (j : Nat) : FRef := ⟨0x071000 + 64 * j, 31, 16⟩
/-- PORT_CFG.PARTNER_EN -/
def CAS_PORT_CFG_PARTNER_EN (j : Nat) : FRef := ⟨0x071000 + 64 * j, 15, 15⟩
/-- PORT_CFG.PARTNER -/
def CAS_PORT_CFG_PARTNER (j : Nat) : FRef := ⟨0x071000 + 64 * j, 14, 12⟩
/-- PORT_ROUTE.ROUTE_BASE -/
def CAS_PORT_ROUTE_ROUTE_BASE (j : Nat) : FRef := ⟨0x071004 + 64 * j, 31, 16⟩
/-- PORT_ROUTE.ROUTE_COUNT -/
def CAS_PORT_ROUTE_ROUTE_COUNT (j : Nat) : FRef := ⟨0x071004 + 64 * j, 15, 0⟩
/-- PORT_STATUS.STATE -/
def CAS_PORT_STATUS_STATE (j : Nat) : FRef := ⟨0x071010 + 64 * j, 31, 29⟩
/-- PORT_STATUS.PEER_CONC -/
def CAS_PORT_STATUS_PEER_CONC (j : Nat) : FRef := ⟨0x071010 + 64 * j, 28, 28⟩
/-- PORT_STATUS.LEARNED_ID -/
def CAS_PORT_STATUS_LEARNED_ID (j : Nat) : FRef := ⟨0x071010 + 64 * j, 15, 0⟩
/-- PORT_MARGIN.MARGIN -/
def CAS_PORT_MARGIN_MARGIN (j : Nat) : FRef := ⟨0x071014 + 64 * j, 16, 0⟩
/-- TQ_STATUS.UA_STATE -/
def TQ_STATUS_UA_STATE : FRef := ⟨0x080000, 31, 30⟩
/-- TQ_STATUS.UB_STATE -/
def TQ_STATUS_UB_STATE : FRef := ⟨0x080000, 29, 28⟩
/-- TQ_STATUS.MARK_SET -/
def TQ_STATUS_MARK_SET : FRef := ⟨0x080000, 27, 27⟩
/-- TQ_STATUS.REFUSING -/
def TQ_STATUS_REFUSING : FRef := ⟨0x080000, 26, 26⟩
/-- TQ_STATUS.UPSTREAM_LOST -/
def TQ_STATUS_UPSTREAM_LOST : FRef := ⟨0x080000, 25, 25⟩
/-- TQ_STATUS.STORE -/
def TQ_STATUS_STORE : FRef := ⟨0x080000, 24, 24⟩
/-- TQ_CFG.POLICY -/
def TQ_CFG_POLICY : FRef := ⟨0x080004, 31, 31⟩
/-- TQ_CFG.VERDICT_DEFAULT -/
def TQ_CFG_VERDICT_DEFAULT : FRef := ⟨0x080004, 30, 30⟩
/-- TQ_CFG.RETAIN -/
def TQ_CFG_RETAIN : FRef := ⟨0x080004, 29, 29⟩
/-- TQ_CFG.MARK_POLICY -/
def TQ_CFG_MARK_POLICY : FRef := ⟨0x080004, 28, 28⟩
/-- TQ_CFG.UP_ARR -/
def TQ_CFG_UP_ARR : FRef := ⟨0x080004, 27, 27⟩
/-- TQ_CFG.UP_EN_UB -/
def TQ_CFG_UP_EN_UB : FRef := ⟨0x080004, 26, 26⟩
/-- TQ_CFG.UP_EN_UA -/
def TQ_CFG_UP_EN_UA : FRef := ⟨0x080004, 25, 25⟩
/-- TQ_CFG.ACK_WAIT -/
def TQ_CFG_ACK_WAIT : FRef := ⟨0x080004, 15, 0⟩
/-- TQ_LIMITS.VERDICT_LIMIT -/
def TQ_LIMITS_VERDICT_LIMIT : FRef := ⟨0x080008, 31, 16⟩
/-- TQ_LIMITS.RECOVER_TURNS -/
def TQ_LIMITS_RECOVER_TURNS : FRef := ⟨0x080008, 15, 0⟩
/-- TQ_AREA_BASE.BASE -/
def TQ_AREA_BASE_BASE : FRef := ⟨0x08000C, 22, 0⟩
/-- TQ_AREA_PAGES.PAGES -/
def TQ_AREA_PAGES_PAGES : FRef := ⟨0x080010, 23, 0⟩
/-- MARK_STATUS.RESULT -/
def TQ_MARK_STATUS_RESULT : FRef := ⟨0x08004C, 7, 0⟩
/-- REWIND_STATUS.CURRENT -/
def TQ_REWIND_STATUS_CURRENT : FRef := ⟨0x080070, 31, 16⟩
/-- REWIND_STATUS.RESULT -/
def TQ_REWIND_STATUS_RESULT : FRef := ⟨0x080070, 7, 0⟩
/-- DESC_SEL.INDEX -/
def TQ_DESC_SEL_INDEX : FRef := ⟨0x0800B0, 14, 0⟩
/-- CMP_CFG.EN -/
def CMP_CFG_EN : FRef := ⟨0x090004, 31, 31⟩
/-- CMP_CFG.OWN_EN -/
def CMP_CFG_OWN_EN : FRef := ⟨0x090004, 30, 30⟩
/-- CMP_CFG.RW_VERIFY -/
def CMP_CFG_RW_VERIFY : FRef := ⟨0x090004, 29, 29⟩
/-- JOB_CAP.OUT_CAP -/
def CMP_JOB_CAP_OUT_CAP : FRef := ⟨0x090058, 12, 0⟩
/-- JOB_STATUS.STATE -/
def CMP_JOB_STATUS_STATE : FRef := ⟨0x090060, 31, 30⟩
/-- JOB_STATUS.CMD_RESULT -/
def CMP_JOB_STATUS_CMD_RESULT : FRef := ⟨0x090060, 23, 16⟩
/-- JOB_STATUS.RESULT -/
def CMP_JOB_STATUS_RESULT : FRef := ⟨0x090060, 3, 0⟩
/-- CMP_RATE.WORDS_OUT -/
def CMP_RATE_WORDS_OUT : FRef := ⟨0x090080, 31, 16⟩
/-- CMP_RATE.WORDS_IN -/
def CMP_RATE_WORDS_IN : FRef := ⟨0x090080, 15, 0⟩
/-- LNK_CMD_STATUS.RESULT -/
def LNK_CMD_STATUS_RESULT : FRef := ⟨0x0A0024, 7, 0⟩
/-- PORT_CFG.MAX_RATE -/
def LNK_PORT_CFG_MAX_RATE (p : Nat) : FRef := ⟨0x0A0100 + 16 * p, 31, 30⟩
/-- PORT_CFG.WIDTH -/
def LNK_PORT_CFG_WIDTH (p : Nat) : FRef := ⟨0x0A0100 + 16 * p, 29, 27⟩
/-- PORT_CFG.MARGIN_EN -/
def LNK_PORT_CFG_MARGIN_EN (p : Nat) : FRef := ⟨0x0A0100 + 16 * p, 26, 26⟩
/-- PORT_CFG.EYE_MIN_V -/
def LNK_PORT_CFG_EYE_MIN_V (p : Nat) : FRef := ⟨0x0A0100 + 16 * p, 15, 8⟩
/-- PORT_CFG.EYE_COUNT -/
def LNK_PORT_CFG_EYE_COUNT (p : Nat) : FRef := ⟨0x0A0100 + 16 * p, 7, 4⟩
/-- PORT_CFG.EYE_MIN_H -/
def LNK_PORT_CFG_EYE_MIN_H (p : Nat) : FRef := ⟨0x0A0100 + 16 * p, 3, 0⟩
/-- PORT_STATUS.ACTIVE -/
def LNK_PORT_STATUS_ACTIVE (p : Nat) : FRef := ⟨0x0A0108 + 16 * p, 31, 31⟩
/-- PORT_STATUS.FALLBACK -/
def LNK_PORT_STATUS_FALLBACK (p : Nat) : FRef := ⟨0x0A0108 + 16 * p, 30, 30⟩
/-- PORT_STATUS.RATE -/
def LNK_PORT_STATUS_RATE (p : Nat) : FRef := ⟨0x0A0108 + 16 * p, 29, 28⟩
/-- PORT_STATUS.WIDTH -/
def LNK_PORT_STATUS_WIDTH (p : Nat) : FRef := ⟨0x0A0108 + 16 * p, 27, 25⟩
/-- PORT_STATUS.LP_DEEP -/
def LNK_PORT_STATUS_LP_DEEP (p : Nat) : FRef := ⟨0x0A0108 + 16 * p, 24, 24⟩
/-- PORT_STATUS.PEER_ID -/
def LNK_PORT_STATUS_PEER_ID (p : Nat) : FRef := ⟨0x0A0108 + 16 * p, 15, 0⟩
/-- PEER_CAP.PORT -/
def LNK_PEER_CAP_PORT (p : Nat) : FRef := ⟨0x0A010C + 16 * p, 27, 24⟩
/-- PEER_CAP.ROLE -/
def LNK_PEER_CAP_ROLE (p : Nat) : FRef := ⟨0x0A010C + 16 * p, 23, 23⟩
/-- PEER_CAP.MARK -/
def LNK_PEER_CAP_MARK (p : Nat) : FRef := ⟨0x0A010C + 16 * p, 22, 22⟩
/-- PEER_CAP.LANES -/
def LNK_PEER_CAP_LANES (p : Nat) : FRef := ⟨0x0A010C + 16 * p, 21, 19⟩
/-- LANE_STATUS.STAGE -/
def LNK_LANE_STATUS_STAGE (l : Nat) : FRef := ⟨0x0A1000 + 64 * l, 31, 29⟩
/-- LANE_STATUS.FROZEN -/
def LNK_LANE_STATUS_FROZEN (l : Nat) : FRef := ⟨0x0A1000 + 64 * l, 28, 28⟩
/-- LANE_STATUS.RX_DETECTED -/
def LNK_LANE_STATUS_RX_DETECTED (l : Nat) : FRef := ⟨0x0A1000 + 64 * l, 27, 27⟩
/-- LANE_STATUS.BIT_LOCK -/
def LNK_LANE_STATUS_BIT_LOCK (l : Nat) : FRef := ⟨0x0A1000 + 64 * l, 26, 26⟩
/-- LANE_STATUS.SYM_LOCK -/
def LNK_LANE_STATUS_SYM_LOCK (l : Nat) : FRef := ⟨0x0A1000 + 64 * l, 25, 25⟩
/-- LANE_STATUS.ISOLATED -/
def LNK_LANE_STATUS_ISOLATED (l : Nat) : FRef := ⟨0x0A1000 + 64 * l, 24, 24⟩
/-- LANE_STATUS.PRBS_BUSY -/
def LNK_LANE_STATUS_PRBS_BUSY (l : Nat) : FRef := ⟨0x0A1000 + 64 * l, 23, 23⟩
/-- LANE_STATUS.ATTEMPT -/
def LNK_LANE_STATUS_ATTEMPT (l : Nat) : FRef := ⟨0x0A1000 + 64 * l, 22, 21⟩
/-- LANE_EYE.EYE_H -/
def LNK_LANE_EYE_EYE_H (l : Nat) : FRef := ⟨0x0A1004 + 64 * l, 23, 16⟩
/-- LANE_EYE.EYE_V -/
def LNK_LANE_EYE_EYE_V (l : Nat) : FRef := ⟨0x0A1004 + 64 * l, 9, 0⟩
/-- LANE_PRBS.RESULT -/
def LNK_LANE_PRBS_RESULT (l : Nat) : FRef := ⟨0x0A100C + 64 * l, 31, 30⟩
/-- I2C_CFG.EN -/
def MBX_I2C_CFG_EN : FRef := ⟨0x0B0010, 31, 31⟩
/-- PWR_STATUS.MODE -/
def PWR_STATUS_MODE : FRef := ⟨0x120004, 31, 28⟩
/-- PWR_STATUS.HOLD_FROM -/
def PWR_STATUS_HOLD_FROM : FRef := ⟨0x120004, 27, 24⟩
/-- PWR_STATUS.RECOVERY -/
def PWR_STATUS_RECOVERY : FRef := ⟨0x120004, 23, 23⟩
/-- PWR_STATUS.SAFE_CAUSE -/
def PWR_STATUS_SAFE_CAUSE : FRef := ⟨0x120004, 19, 16⟩
/-- PWR_STATUS.BOOT_ERR -/
def PWR_STATUS_BOOT_ERR : FRef := ⟨0x120004, 15, 14⟩
/-- MODE_CTRL.MODE -/
def PWR_MODE_CTRL_MODE : FRef := ⟨0x120010, 3, 0⟩
/-- SCAN_CFG.PARAM -/
def PWR_SCAN_CFG_PARAM : FRef := ⟨0x120020, 31, 30⟩
/-- SCAN_CFG.UNIT -/
def PWR_SCAN_CFG_UNIT : FRef := ⟨0x120020, 29, 29⟩
/-- SCAN_CFG.N_STEPS -/
def PWR_SCAN_CFG_N_STEPS : FRef := ⟨0x120020, 25, 16⟩
/-- SCAN_CFG.STEP_TURNS -/
def PWR_SCAN_CFG_STEP_TURNS : FRef := ⟨0x120020, 15, 0⟩
/-- SCAN_RANGE.START -/
def PWR_SCAN_RANGE_START : FRef := ⟨0x120024, 27, 16⟩
/-- SCAN_RANGE.STEP -/
def PWR_SCAN_RANGE_STEP : FRef := ⟨0x120024, 11, 0⟩
/-- SCAN_STATUS.RUNNING -/
def PWR_SCAN_STATUS_RUNNING : FRef := ⟨0x120048, 31, 31⟩
/-- SCAN_STATUS.DONE -/
def PWR_SCAN_STATUS_DONE : FRef := ⟨0x120048, 30, 30⟩
/-- SCAN_STATUS.WAIT_SLEW -/
def PWR_SCAN_STATUS_WAIT_SLEW : FRef := ⟨0x120048, 29, 29⟩
/-- SCAN_STATUS.STEP -/
def PWR_SCAN_STATUS_STEP : FRef := ⟨0x120048, 9, 0⟩
/-- CH_RING_LO.BASE -/
def DMA_CH_RING_LO_BASE (c : Nat) : FRef := ⟨0x0C1000 + 64 * c, 31, 5⟩
/-- CH_RING_HI.RING_LOG2 -/
def DMA_CH_RING_HI_RING_LOG2 (c : Nat) : FRef := ⟨0x0C1004 + 64 * c, 11, 8⟩
/-- CH_RING_HI.BASE_HI -/
def DMA_CH_RING_HI_BASE_HI (c : Nat) : FRef := ⟨0x0C1004 + 64 * c, 7, 0⟩
/-- CH_CFG.SHARE -/
def DMA_CH_CFG_SHARE (c : Nat) : FRef := ⟨0x0C1008 + 64 * c, 24, 16⟩
/-- CH_CFG.REQ_SEL -/
def DMA_CH_CFG_REQ_SEL (c : Nat) : FRef := ⟨0x0C1008 + 64 * c, 9, 8⟩
/-- CH_CFG.BURST_LOG2 -/
def DMA_CH_CFG_BURST_LOG2 (c : Nat) : FRef := ⟨0x0C1008 + 64 * c, 3, 0⟩
/-- CH_STATE.STATE -/
def DMA_CH_STATE_STATE (c : Nat) : FRef := ⟨0x0C1010 + 64 * c, 31, 30⟩
/-- CH_STATE.LAST_ERR -/
def DMA_CH_STATE_LAST_ERR (c : Nat) : FRef := ⟨0x0C1010 + 64 * c, 27, 24⟩
/-- CH_STATE.CMD_RESULT -/
def DMA_CH_STATE_CMD_RESULT (c : Nat) : FRef := ⟨0x0C1010 + 64 * c, 23, 16⟩
/-- CH_STATE.HEAD -/
def DMA_CH_STATE_HEAD (c : Nat) : FRef := ⟨0x0C1010 + 64 * c, 11, 0⟩
/-- MEM_STATUS.SDRAM_OK -/
def MEM_STATUS_SDRAM_OK : FRef := ⟨0x0D0000, 31, 31⟩
/-- MEM_STATUS.WEAR_WARN -/
def MEM_STATUS_WEAR_WARN : FRef := ⟨0x0D0000, 30, 30⟩
/-- SDRAM_INFO.RATE -/
def MEM_SDRAM_INFO_RATE : FRef := ⟨0x0D0004, 21, 20⟩
/-- FIFO_PROT.TXTS -/
def MEM_FIFO_PROT_TXTS : FRef := ⟨0x0D0008, 2, 2⟩
/-- FIFO_PROT.OUT -/
def MEM_FIFO_PROT_OUT : FRef := ⟨0x0D0008, 1, 1⟩
/-- FIFO_PROT.HIT -/
def MEM_FIFO_PROT_HIT : FRef := ⟨0x0D0008, 0, 0⟩
/-- SCRUB_CFG.MRAM_EN -/
def MEM_SCRUB_CFG_MRAM_EN : FRef := ⟨0x0D000C, 2, 2⟩
/-- SCRUB_CFG.SDRAM_EN -/
def MEM_SCRUB_CFG_SDRAM_EN : FRef := ⟨0x0D000C, 1, 1⟩
/-- SCRUB_CFG.SRAM_EN -/
def MEM_SCRUB_CFG_SRAM_EN : FRef := ⟨0x0D000C, 0, 0⟩
/-- WIN_BASE.BASE -/
def MEM_WIN_BASE_BASE (k : Nat) : FRef := ⟨0x0D0040 + 4 * k, 11, 0⟩
/-- SDRAM_PAGE_SEL.PAGE -/
def MEM_SDRAM_PAGE_SEL_PAGE : FRef := ⟨0x0D0060, 22, 0⟩
/-- BUCKET_CFG.LEAK_LOG2 -/
def MEM_BUCKET_CFG_LEAK_LOG2 (f : Nat) : FRef := ⟨0x0D0100 + 4 * f, 23, 20⟩
/-- BUCKET_CFG.INC -/
def MEM_BUCKET_CFG_INC (f : Nat) : FRef := ⟨0x0D0100 + 4 * f, 19, 16⟩
/-- BUCKET_CFG.CAP -/
def MEM_BUCKET_CFG_CAP (f : Nat) : FRef := ⟨0x0D0100 + 4 * f, 15, 0⟩
/-- BUCKET_LEVEL.LEVEL -/
def MEM_BUCKET_LEVEL_LEVEL (f : Nat) : FRef := ⟨0x0D0180 + 4 * f, 15, 0⟩
/-- REMAP_SEL.FAMILY -/
def MEM_REMAP_SEL_FAMILY : FRef := ⟨0x0D0400, 31, 28⟩
/-- REMAP_SEL.ENTRY -/
def MEM_REMAP_SEL_ENTRY : FRef := ⟨0x0D0400, 3, 0⟩
/-- WEAR_MAX.WRITES -/
def MEM_WEAR_MAX_WRITES : FRef := ⟨0x0D0420, 31, 0⟩
/-- WEAR_SECTOR.SECTOR -/
def MEM_WEAR_SECTOR_SECTOR : FRef := ⟨0x0D0424, 7, 0⟩
/-- FLIP_CTRL.ARM -/
def MEM_FLIP_CTRL_ARM : FRef := ⟨0x0D8000, 31, 31⟩
/-- FLIP_CTRL.ADDR_MATCH -/
def MEM_FLIP_CTRL_ADDR_MATCH : FRef := ⟨0x0D8000, 30, 30⟩
/-- FLIP_CTRL.FAMILY -/
def MEM_FLIP_CTRL_FAMILY : FRef := ⟨0x0D8000, 3, 0⟩
/-- SWIN_BASE.BASE -/
def MEM_SWIN_BASE_BASE (k : Nat) : FRef := ⟨0x0D8040 + 4 * k, 11, 0⟩
/-- MON_STATUS.REF_READY -/
def MON_STATUS_REF_READY : FRef := ⟨0x0E0000, 30, 30⟩
/-- MON_STATUS.OPEN -/
def MON_STATUS_OPEN : FRef := ⟨0x0E0000, 23, 16⟩
/-- MON_STATUS.CUR_ENTRY -/
def MON_STATUS_CUR_ENTRY : FRef := ⟨0x0E0000, 5, 0⟩
/-- MON_CFG.SEQ_EN -/
def MON_CFG_SEQ_EN : FRef := ⟨0x0E0004, 31, 31⟩
/-- MON_CFG.REF_EN -/
def MON_CFG_REF_EN : FRef := ⟨0x0E0004, 30, 30⟩
/-- MON_CFG.LAST -/
def MON_CFG_LAST : FRef := ⟨0x0E0004, 29, 24⟩
/-- BIAS_CFG.EN -/
def MON_BIAS_CFG_EN : FRef := ⟨0x0E0008, 31, 31⟩
/-- BIAS_CFG.BIAS_PERIOD -/
def MON_BIAS_CFG_BIAS_PERIOD : FRef := ⟨0x0E0008, 15, 0⟩
/-- BIAS_LIMITS.MAX_AGE -/
def MON_BIAS_LIMITS_MAX_AGE : FRef := ⟨0x0E000C, 31, 16⟩
/-- BIAS_LIMITS.OPEN_HOLD -/
def MON_BIAS_LIMITS_OPEN_HOLD : FRef := ⟨0x0E000C, 15, 0⟩
/-- INJ_STATUS.RESULT -/
def MON_INJ_STATUS_RESULT : FRef := ⟨0x0E004C, 7, 0⟩
/-- CAL_STATUS.STEP -/
def MON_CAL_STATUS_STEP : FRef := ⟨0x0E0058, 30, 29⟩
/-- CAL_STATUS.GAIN -/
def MON_CAL_STATUS_GAIN : FRef := ⟨0x0E0058, 28, 26⟩
/-- CAL_STATUS.RESULT -/
def MON_CAL_STATUS_RESULT : FRef := ⟨0x0E0058, 7, 0⟩
/-- SEQ_ENTRY0.EN -/
def MON_SEQ_ENTRY0_EN (e : Nat) : FRef := ⟨0x0E0400 + 8 * e, 31, 31⟩
/-- SP_CFG.WIRES -/
def MON_SP_CFG_WIRES (s : Nat) : FRef := ⟨0x0E0800 + 64 * s, 31, 30⟩
/-- SP_CFG.R0 -/
def MON_SP_CFG_R0 (s : Nat) : FRef := ⟨0x0E0800 + 64 * s, 29, 29⟩
/-- SP_CFG.LIN -/
def MON_SP_CFG_LIN (s : Nat) : FRef := ⟨0x0E0800 + 64 * s, 28, 27⟩
/-- SP_CFG.LEAD_R -/
def MON_SP_CFG_LEAD_R (s : Nat) : FRef := ⟨0x0E0800 + 64 * s, 15, 0⟩
/-- BIAS_GRP.EN -/
def MON_BIAS_GRP_EN (k : Nat) : FRef := ⟨0x0E0C00 + 128 * k, 31, 31⟩
/-- BIAS_GRP.TSRC -/
def MON_BIAS_GRP_TSRC (k : Nat) : FRef := ⟨0x0E0C00 + 128 * k, 3, 0⟩
/-- BIAS_STATUS.STALE -/
def MON_BIAS_STATUS_STALE : FRef := ⟨0x0E1420, 23, 16⟩
/-- BIAS_STATUS.POSTED -/
def MON_BIAS_STATUS_POSTED : FRef := ⟨0x0E1420, 15, 8⟩
/-- G_SP.SP -/
def MON_G_SP_SP (n : Nat) : FRef := ⟨0x0E2000 + 4 * n, 15, 0⟩
/-- GRD_STATUS.VOTING -/
def GRD_STATUS_VOTING : FRef := ⟨0x0F0000, 28, 26⟩
/-- GRD_STATUS.FB_A -/
def GRD_STATUS_FB_A : FRef := ⟨0x0F0000, 23, 23⟩
/-- GRD_STATUS.FB_B -/
def GRD_STATUS_FB_B : FRef := ⟨0x0F0000, 22, 22⟩
/-- GRD_STATUS.IN_A -/
def GRD_STATUS_IN_A : FRef := ⟨0x0F0000, 21, 21⟩
/-- GRD_STATUS.IN_B -/
def GRD_STATUS_IN_B : FRef := ⟨0x0F0000, 20, 20⟩
/-- GRD_STATUS.CHAIN_IN_OK -/
def GRD_STATUS_CHAIN_IN_OK : FRef := ⟨0x0F0000, 19, 19⟩
/-- TRIP_ACTIVE.DEMAND -/
def GRD_TRIP_ACTIVE_DEMAND : FRef := ⟨0x0F0008, 18, 18⟩
/-- TRIP_ACTIVE.EQUIV -/
def GRD_TRIP_ACTIVE_EQUIV : FRef := ⟨0x0F0008, 17, 17⟩
/-- TRIP_ACTIVE.FEEDBACK -/
def GRD_TRIP_ACTIVE_FEEDBACK : FRef := ⟨0x0F0008, 13, 13⟩
/-- LANE_STATUS.VOTING -/
def GRD_LANE_STATUS_VOTING (l : Nat) : FRef := ⟨0x0F0040 + 4 * l, 31, 31⟩
/-- LANE_STATUS.MISMATCH -/
def GRD_LANE_STATUS_MISMATCH (l : Nat) : FRef := ⟨0x0F0040 + 4 * l, 29, 28⟩
/-- LOG_SEL.INDEX -/
def GRD_LOG_SEL_INDEX : FRef := ⟨0x0F0300, 5, 0⟩
/-- GCMD_STATUS.RESULT -/
def GRD_GCMD_STATUS_RESULT : FRef := ⟨0x0F800C, 7, 0⟩
/-- FLT_STATUS.ALERT -/
def FLT_STATUS_ALERT : FRef := ⟨0x100000, 31, 31⟩
/-- FLT_STATUS.OVF -/
def FLT_STATUS_OVF : FRef := ⟨0x100000, 30, 30⟩
/-- FLT_STATUS.QERR -/
def FLT_STATUS_QERR : FRef := ⟨0x100000, 29, 29⟩
/-- FLT_CTRL.WIN_LOG2 -/
def FLT_CTRL_WIN_LOG2 : FRef := ⟨0x100004, 4, 0⟩
/-- REACT.FORCED -/
def FLT_REACT_FORCED (k : Nat) : FRef := ⟨0x100100 + 4 * k, 28, 24⟩
/-- REACT.SEVERE -/
def FLT_REACT_SEVERE (k : Nat) : FRef := ⟨0x100100 + 4 * k, 20, 16⟩
/-- REACT.NORMAL -/
def FLT_REACT_NORMAL (k : Nat) : FRef := ⟨0x100100 + 4 * k, 12, 8⟩
/-- REACT.N -/
def FLT_REACT_N (k : Nat) : FRef := ⟨0x100100 + 4 * k, 7, 0⟩
/-- FE.VALID -/
def FLT_FE_w2_VALID (c : Nat) : FRef := ⟨0x100408 + 32 * c, 31, 31⟩
/-- TEST_STATUS.STATE -/
def FLT_TEST_STATUS_STATE : FRef := ⟨0x100604, 31, 30⟩
/-- TEST_STATUS.SOURCE -/
def FLT_TEST_STATUS_SOURCE : FRef := ⟨0x100604, 29, 20⟩
/-- TEST_STATUS.KIND -/
def FLT_TEST_STATUS_KIND : FRef := ⟨0x100604, 19, 14⟩
/-- TEST_STATUS.LAST -/
def FLT_TEST_STATUS_LAST : FRef := ⟨0x100604, 13, 12⟩
/-- SRC_COUNT.SEVERE -/
def FLT_SRC_COUNT_SEVERE (s : Nat) : FRef := ⟨0x101000 + 4 * s, 31, 31⟩
/-- SRC_COUNT.COUNT -/
def FLT_SRC_COUNT_COUNT (s : Nat) : FRef := ⟨0x101000 + 4 * s, 7, 0⟩
/-- WDOG_CFG.EN -/
def FLT_WDOG_CFG_EN : FRef := ⟨0x108000, 31, 31⟩
/-- WDOG_CFG.PERIOD -/
def FLT_WDOG_CFG_PERIOD : FRef := ⟨0x108000, 15, 0⟩
/-- SEC_STATUS.SCOPE -/
def SEC_STATUS_SCOPE : FRef := ⟨0x110000, 23, 16⟩
/-- REGION_BASE.PAGE -/
def SEC_REGION_BASE_PAGE (r : Nat) : FRef := ⟨0x118100 + 16 * r, 27, 0⟩
/-- REGION_LIMIT.PAGE -/
def SEC_REGION_LIMIT_PAGE (r : Nat) : FRef := ⟨0x118104 + 16 * r, 27, 0⟩
/-- REGION_ATTR.EN -/
def SEC_REGION_ATTR_EN (r : Nat) : FRef := ⟨0x118108 + 16 * r, 31, 31⟩
/-- REGION_ATTR.SECURE -/
def SEC_REGION_ATTR_SECURE (r : Nat) : FRef := ⟨0x118108 + 16 * r, 30, 30⟩
/-- REGION_ATTR.NS_RO -/
def SEC_REGION_ATTR_NS_RO (r : Nat) : FRef := ⟨0x118108 + 16 * r, 29, 29⟩
/-- REGION_ATTR.LOCK -/
def SEC_REGION_ATTR_LOCK (r : Nat) : FRef := ⟨0x118108 + 16 * r, 28, 28⟩

end Sys2Proof.Machine.F

/-! Event bits: block number times 32 plus the bit in the block's *_EVENT register. -/
namespace Sys2Proof.Machine.E

def TRN_STEPPED : Nat := 9
def TRN_BUDGET_OVERRUN : Nat := 7
def TRN_BUDGET_STALL : Nat := 6
def TRN_COMMIT_DROPPED : Nat := 5
def TRN_COMMIT_REFUSED : Nat := 4
def TRN_COMMIT_DEFERRED : Nat := 3
def TRN_COMMIT_APPLIED : Nat := 2
def TRN_ROUND : Nat := 1
def TRN_TURN : Nat := 0
def TIME_TXTS_OVF : Nat := 41
def TIME_STEP_DROPPED : Nat := 40
def TIME_STEP_APPLIED : Nat := 39
def TIME_CLAMPED : Nat := 38
def TIME_MASTER_DISAGREE : Nat := 37
def TIME_MASTER_CHANGE : Nat := 36
def TIME_TIME_JUMP_REFUSED : Nat := 35
def TIME_HOLDOVER : Nat := 34
def TIME_PORT_LOST : Nat := 33
def TIME_LOCKED : Nat := 32
def AFE_IMON_OVR : Nat := 67
def AFE_SLEW_DONE : Nat := 66
def AFE_BTRIM_CLAMP : Nat := 65
def AFE_TP_MISSED : Nat := 64
def TDC_COUNTER_SAT : Nat := 101
def TDC_CHAIN_ISOLATED : Nat := 100
def TDC_CAL_FAIL : Nat := 99
def TDC_SWAP_LATE : Nat := 98
def TDC_CAL_VALID : Nat := 97
def TDC_CAL_NOT_VALID : Nat := 96
def CAP_ITRIM_SETTLED : Nat := 132
def CAP_RECUT_DONE : Nat := 131
def CAP_COARSENED : Nat := 130
def CAP_ACCEPT_LATE : Nat := 129
def CAP_GAP : Nat := 128
def SE_TABLE_WR_ERR : Nat := 162
def SE_GR_REJECT : Nat := 161
def SE_SLICE_OVERRUN : Nat := 160
def COL_ORDER_SLIP : Nat := 194
def COL_LATE : Nat := 193
def COL_SPILL : Nat := 192
def CAS_ADJ_WR_ERR : Nat := 232
def CAS_NO_ROUTE : Nat := 231
def CAS_PRIM_LATE : Nat := 230
def CAS_LATE_FRAME : Nat := 229
def CAS_CRC_BAD : Nat := 228
def CAS_MISSING : Nat := 227
def CAS_ID_MISMATCH : Nat := 226
def CAS_PORT_DOWN : Nat := 225
def CAS_PORT_ATTACHED : Nat := 224
def TQ_PAGE_SHORT : Nat := 263
def TQ_RECLAIM_UNSENT : Nat := 262
def TQ_DEFAULT_ACTION : Nat := 261
def TQ_TURN_REFUSED : Nat := 260
def TQ_MARK_OVERRUN : Nat := 259
def TQ_UPSTREAM_LOST : Nat := 258
def TQ_PORT_REJOINED : Nat := 257
def TQ_SWITCH_OVER : Nat := 256
def CMP_VERIFY_FAIL : Nat := 290
def CMP_NO_RECODE : Nat := 289
def CMP_JOB_DONE : Nat := 288
def LNK_PRBS_DONE : Nat := 327
def LNK_PEER_CHANGE : Nat := 326
def LNK_BLOCK_LOST : Nat := 325
def LNK_MARGIN_RETRAIN : Nat := 324
def LNK_LINK_FAIL : Nat := 323
def LNK_FALLBACK : Nat := 322
def LNK_LANE_DOWN : Nat := 321
def LNK_LANE_ACTIVE : Nat := 320
def MBX_COUNTER_SAT : Nat := 356
def MBX_SIG_FAIL : Nat := 355
def MBX_EVT_LOST : Nat := 354
def MBX_SET_EXPIRED : Nat := 353
def MBX_BAD_HEADER : Nat := 352
def PWR_SCAN_DONE : Nat := 580
def PWR_SAFE_EXIT : Nat := 579
def PWR_SAFE_ENTERED : Nat := 578
def PWR_RECOVERY : Nat := 577
def PWR_MODE_CHANGED : Nat := 576
def DMA_WR_IGNORED : Nat := 385
def DMA_HALT : Nat := 384
def MEM_FLUSHED : Nat := 422
def MEM_WEAR_WARN : Nat := 421
def MEM_SWEEP_LATE : Nat := 420
def MEM_REMAP_FULL : Nat := 419
def MEM_REMAPPED : Nat := 418
def MEM_UNCORRECTABLE : Nat := 417
def MEM_BUCKET_OVF : Nat := 416
def MON_DUTY_SKIP : Nat := 454
def MON_STALE : Nat := 453
def MON_HOLD_EXPIRED : Nat := 452
def MON_BIAS_HOLD : Nat := 451
def MON_CAL_DONE : Nat := 450
def MON_OPEN_SENSOR : Nat := 449
def MON_REF_READY : Nat := 448
def GRD_TEST_VOID : Nat := 487
def GRD_CHAIN_LOSS : Nat := 486
def GRD_TEST_FAIL : Nat := 485
def GRD_LANE_EXCLUDED : Nat := 484
def GRD_CONFIRM_FAIL : Nat := 483
def GRD_ADOPTED : Nat := 482
def GRD_TRIP : Nat := 481
def GRD_OUTPUTS_ON : Nat := 480
def FLT_COUNTER_SAT : Nat := 518
def FLT_SAFE_HOLD : Nat := 517
def FLT_TEST_DROP : Nat := 516
def FLT_QUEUE_OVF : Nat := 515
def FLT_LASTING : Nat := 514
def FLT_SEVERE : Nat := 513
def FLT_ALERT : Nat := 512
def SEC_LOCKED_WRITE : Nat := 550
def SEC_OWNER_CHANGED : Nat := 549
def SEC_DEBUG_UNLOCK : Nat := 548
def SEC_TRIAL_REVERT : Nat := 547
def SEC_FW_COMMITTED : Nat := 546
def SEC_FW_READY : Nat := 545
def SEC_VIOLATION : Nat := 544

end Sys2Proof.Machine.E
end

