-- ==== Sys2Proof/Machine/State.lean ====
section
/-! DEFINITION. The state of the Burjor as plain data: every register word (in tables by register key), the FIFOs, queues,
engines and pins of each chapter of spec/, the memory, and the queue of waiting commands. Each field names the rule
that gives it. Unlisted keys of a register table hold the register's reset word. -/

namespace Sys2Proof.Machine

/-- A table kept as a list of keys and values, keys strictly rising. -/
abbrev KMap (α : Type) := List (Nat × α)

/-- The turn machine's place in time (R17 to R20) and the local clock (R64). -/
structure Clock where
  /-- the turn number in force, 48 bits, wraps (R17); reset 0 (R20) -/
  turn : Nat := 0
  /-- the coarse tick within the turn, 0 to 16 383 (R18); reset 0 (R20) -/
  ct : Nat := 0
  /-- the current turn carries STEPPED (R57); reset false -/
  stepped : Bool := false
  /-- array time at the coarse edges less the coarse count, in fb below one ct (R53, R57); reset 0 -/
  fbOff : Nat := 0
  /-- the number of the latest STEPPED turn, from which a time of the numbering before it is told (R57, R514); reset none -/
  stepTurn : Option Nat := none
  /-- W of the latest step, signed (R57); reset 0 -/
  stepW : Int := 0
  /-- F of the latest step, signed fb (R57); reset 0 -/
  stepF : Int := 0
  /-- REFCLK cycles of the turns that ended since the last power-on reset, from which LT counts (R64); reset 0 -/
  refCycles : Nat := 0
  /-- periods of the coarse clock in the turns that ended, from which delays in ct are counted (R514); reset 0 -/
  ctBase : Nat := 0
  /-- edges discarded in the stretched interval (R58); reset 0 -/
  stretchLost : Nat := 0
  /-- the GAP of the stretched interval of the present turn has been placed (R58); reset false -/
  stretchDone : Bool := false
  /-- turn boundaries since reset, in which delays in turns are counted whatever a step does to the numbers (R514, R518); reset 0 -/
  bounds : Nat := 0
  deriving DecidableEq, Repr

/-- The states of a commit slot (R28, R33, SLOT_STATE). -/
inductive SlotState where
  | free
  | now
  | next
  | at
  | due
  deriving DecidableEq, Repr

/-- One of the 8 commit slots (R28 to R35). -/
structure Slot where
  /-- its state (R33); reset FREE -/
  st : SlotState := .free
  /-- the turn at which it applies (R28, R29); reset 0 -/
  target : Nat := 0
  /-- for a NOW slot, the pip boundary (ct) at which it lands (R28); reset 0 -/
  pip : Nat := 0
  /-- the TAG of its seal (R32); reset 0 -/
  tag : Nat := 0
  /-- its place in seal order (R32); reset 0 -/
  order : Nat := 0
  /-- the sealed words: register key and value (R25); reset none -/
  words : List (Nat × Word) := []
  /-- it is due early because a step skips its target (R35); reset false -/
  skipped : Bool := false
  /-- it lets the next boundary pass: a NEXT seal deferred, or a NOW seal whose verdict falls into the guard window, which lands
  after that boundary's steps (R29); reset false -/
  late : Bool := false
  /-- of a slot that was applied or cancelled: the period of the coarse clock in which that happened, and its state till then. It is
  free from the next period on (R31); reset none -/
  gone : Option (Nat × SlotState) := none
  deriving DecidableEq, Repr

/-- The commit machinery of TRN (R25 to R37). -/
structure Commit where
  /-- the 8 commit slots (R28); reset all FREE -/
  slots : List Slot := List.replicate 8 {}
  /-- keys of the dirty shadow words, rising, at most 512 (R25); reset none -/
  dirty : List Nat := []
  /-- the slots frozen for the next boundary (R22); reset none -/
  frozen : List Nat := []
  /-- the number of the next seal in seal order (R32); reset 0 -/
  nextOrder : Nat := 0
  /-- earlier active copies, each with the number, on the present numbering, of the turn that replaced it (R23, R57); reset none -/
  prev : List (Nat × KMap Word) := []
  deriving DecidableEq, Repr

/-- One background activity on one budgeted resource (R42). -/
structure BudAct where
  /-- ct of allowance left in this turn (R42); reset the default pips of R16 times 16 -/
  allow : Nat := 0
  /-- ct of debt that the next boundary takes from the allowance (R42); reset 0 -/
  debt : Nat := 0
  /-- ct of grant used in this turn (BUDGET_USED, R42); reset 0 -/
  used : Nat := 0
  /-- the activity has stalled in this turn (R42); reset false -/
  stalled : Bool := false
  /-- ct of request pending (R42); reset 0 -/
  want : Nat := 0
  /-- ct granted towards work not yet done (R42); reset 0 -/
  got : Nat := 0
  deriving DecidableEq, Repr

/-- A background burst that holds a resource (R42). -/
structure Burst where
  /-- its activity -/
  act : Nat
  /-- ct of its grant in the turn of the grant -/
  ct : Nat
  /-- ct that an earlier turn has been charged for it; reset 0 -/
  charged : Nat := 0
  /-- what the allowance of that earlier turn has left for it, none while its own turn lasts; reset none -/
  left : Option Nat := none
  /-- that earlier turn has been counted in BUDGET_OVERRUN; reset false -/
  overCounted : Bool := false
  deriving DecidableEq, Repr

/-- The budget metering of TRN (R41 to R43). -/
structure Budget where
  /-- activity state by 8·r + a (R42); an unlisted activity has its reset state -/
  acts : KMap BudAct := []
  /-- per resource: the burst that holds it (R42); reset none -/
  burst : List (Option Burst) := [none, none, none]
  /-- per resource: the activity after which the round robin goes on (R42); reset 6, so that activity 0 is first -/
  last : List Nat := [6, 6, 6]
  deriving DecidableEq, Repr

/-- Where a message, or a short message, leaves the Burjor (R220, R291, R303, R319). -/
inductive Dest where
  | active
  | up (p : Nat)
  | down (j : Nat)
  | i2c
  deriving DecidableEq, Repr

/-- A message waiting on VL_1, header words first (R304, R307). -/
structure OutMsg where
  /-- where it leaves (R303, R319) -/
  dst : Dest
  /-- its 32-bit words, header first (R304) -/
  words : List Word
  /-- the identifier of its transmit timestamp, where one is asked for (R306) -/
  stampId : Option Nat := none
  /-- the downstream port in whose relay buffer it waits, for a message relayed upward (R221) -/
  relay : Option Nat := none
  deriving DecidableEq, Repr

/-- A short message waiting on VL_0 (R292, R294). -/
structure OutShort where
  /-- the port on which it leaves: 0 UA, 1 UB, 2 + j for D_j (R294) -/
  port : Nat
  /-- its body words (R292) -/
  body : List Word
  deriving DecidableEq, Repr

/-- The interval of one event bit in which later raises are counted (R319). -/
structure EvtInterval where
  /-- the event: block times 32 plus bit (R318) -/
  evt : Nat
  /-- turns since the interval began (R319) -/
  age : Nat := 0
  /-- raises counted since the last message (R318) -/
  count : Nat
  /-- time of the first raise counted (R318) -/
  first : Stamp
  /-- LT of the first raise counted (R318) -/
  firstLt : Word
  /-- DETAIL words of the raises counted (R320) -/
  detail : List Word
  deriving DecidableEq, Repr

/-- Horef's event machinery (R318 to R320) and the episodes of R518. -/
structure Events where
  /-- EVT_SEQ, 32 bits, wraps (R318); reset 0 -/
  seq : Word := 0
  /-- open 256-turn intervals (R319); reset none -/
  open_ : List EvtInterval := []
  /-- the 256-entry event log, oldest first, 6 words each (R319); reset empty -/
  log : List (List Word) := []
  /-- the 64-entry I²C event queue, oldest first, whole messages (R319); reset empty -/
  i2c : List (List Word) := []
  /-- running episodes: event, and whether its condition occurred in this turn (R518); reset none -/
  epi : KMap Bool := []
  deriving DecidableEq, Repr

/-- The elements that a targeted self-test takes (R463). -/
inductive Elem where
  | sram (fam unit : Nat)
  | row (r : Nat)
  | mram (addr : Nat)
  | chain (u q : Nat)
  | adc (ch gain sub : Nat)
  | lane (l : Nat)
  | engine (k : Nat)
  | core
  | source (s : Nat)
  deriving DecidableEq, Repr

/-- A request for a targeted self-test (R462). -/
structure TestReq where
  /-- the element (R463) -/
  elem : Elem
  /-- SOURCE of the report that asked for it (R464) -/
  source : Nat
  /-- KIND of that report (TEST_STATUS) -/
  kind : Nat
  /-- ADDR of that report (R464) -/
  addr : Nat
  deriving DecidableEq, Repr

/-- The fault collector (R450 to R467). -/
structure Faults where
  /-- the 256-entry queue, oldest first: message and TURN_LO (R455); reset empty -/
  q : List (Word64 × Word) := []
  /-- the entry latched by FLT_POP_HI (R455); reset zero -/
  latch : Word64 × Word := (0, 0)
  /-- elements on safety hold (R460); reset none -/
  holds : List Elem := []
  /-- the test queue, at most 16, oldest first (R462); reset empty -/
  tests : List TestReq := []
  /-- the test running and whether it is the repeat (R464); reset none -/
  running : Option (TestReq × Bool) := none
  /-- elements isolated or classed LASTING until the next reset (R465); reset none -/
  isolated : List Elem := []
  /-- turns since the last watchdog kick (R467); reset 0 -/
  sinceKick : Nat := 0
  /-- the fault that a reset of R467 recorded is still to be reported at the end of BOOT (R467); reset false -/
  resetFault : Bool := false
  /-- R346 drives ALERT_N low by itself (R459); reset false -/
  bootAlert : Bool := false
  deriving DecidableEq, Repr

/-- An item in a FIFO: the time of its key (R171), its words, and its place in a record group (R187). -/
structure Entry where
  /-- the time that is its key (R171) -/
  t : Stamp
  /-- source index (R171) -/
  src : Nat
  /-- its words, first word first (R177) -/
  words : List Word64
  /-- it follows its predecessor unbroken (R187) -/
  cont : Bool := false
  /-- a further item of its group follows it (R187) -/
  more : Bool := false
  /-- what the flip mask left in it: 0 nothing, 1 correctable, 2 an error in a payload word, 3 an error in the first word
  (R178, R393) -/
  err : Nat := 0
  deriving DecidableEq, Repr

/-- A delay exchange under way on a timing port (R50). -/
structure Exchange where
  /-- sequenceId of the Delay_Req (R50) -/
  seq : Nat
  /-- the turn in which it left, counted in boundaries since reset (R50) -/
  turn : Nat
  /-- t3 + TX_DELAY in fb (R51) -/
  t3c : Int
  /-- t2c − t1 of the last beacon before it, where there is one (R51) -/
  diff : Option Int
  deriving DecidableEq, Repr

/-- A timing port: TPA or TPB (R45 to R51, R60). -/
structure TPort where
  /-- a valid beacon has arrived in this turn (R48); reset false -/
  seen : Bool := false
  /-- consecutive turns with a valid beacon (R53); reset 0 -/
  validRun : Nat := 0
  /-- consecutive turns without one (R60); reset 0 -/
  missRun : Nat := 0
  /-- t2c − t1 of the last valid beacon (R51); reset none -/
  diff : Option Int := none
  /-- θ formed in this turn (R51); reset none -/
  theta : Option Int := none
  /-- θ formed in the turn before this one, which the boundary measured (R55); reset none -/
  thetaPrev : Option Int := none
  /-- twice the held values of d, newest first, at most 64 (R51); reset none -/
  ds : List Int := []
  /-- MASTER_ID and MASTER_HOLDOVER of the last valid beacon (R46); reset 0 -/
  master : Nat := 0
  /-- exchanges under way, oldest first (R50); reset none -/
  exch : List Exchange := []
  /-- sequenceId of the next Delay_Req, 16 bits (R50); reset 0 -/
  nextSeq : Nat := 0
  /-- the auxiliary unit was INITIAL in this turn, so that its beacons give no θ (R111); reset false -/
  exempt : Bool := false
  deriving DecidableEq, Repr

/-- A servo: that of AT, or the numeric one of PT (R52, R517). -/
structure Servo where
  /-- the integrator in 1/256 steering unit (R52); reset 0 -/
  i : Int := 0
  /-- the steering word (R52); reset 0 -/
  steer : Int := 0
  /-- the raised gain of ACQUIRE is in use (R53); reset false -/
  fast : Bool := false
  /-- consecutive turns within LOCK_THRESH (R53); reset 0 -/
  lockRun : Nat := 0
  deriving DecidableEq, Repr

/-- The modes of a TIME_STEP (R55). -/
inductive StepMode where
  | explicit
  | adopt (p : Nat)
  deriving DecidableEq, Repr

/-- A pending step (R55, R56): the step registers of the secure page. -/
structure PendingStep where
  /-- its mode (R55) -/
  mode : StepMode
  /-- its target turn N (R55) -/
  n : Nat
  /-- δ in fb; for ADOPT none until it is measured at the boundary that opens N − 1 (R55) -/
  delta : Option Int
  /-- it is due and cannot be cancelled (R56) -/
  due : Bool := false
  deriving DecidableEq, Repr

/-- A Delay_Req as it leaves (R50): port, domainNumber, clockIdentity's chip ID, portNumber, sequenceId, and its frame. -/
structure DelayReq where
  /-- timing port: 0 TPA, 1 TPB (R50) -/
  port : Nat
  /-- domainNumber (R50) -/
  domain : Nat
  /-- chip ID in clockIdentity (R50) -/
  chip : Nat
  /-- portNumber, 1 or 2 (R50) -/
  portNumber : Nat
  /-- sequenceId (R50) -/
  seq : Nat
  /-- the characters between K28.2 and K29.7: the 1588 message, versionPTP 2 and minorVersionPTP 1 among its bytes, and its CRC-32C
  (R50) -/
  chars : List Byte
  deriving DecidableEq, Repr

/-- Array time, peer time, steps, secure time and the timestamp queues (R45 to R68, R517). -/
structure TimeSt where
  /-- the timing ports TPA and TPB (R45); reset both as above -/
  ports : List TPort := [{}, {}]
  /-- the AT servo (R52); reset 0 -/
  servo : Servo := {}
  /-- the STEER value that ct 256 will take (R52); reset none -/
  newSteer : Option Int := none
  /-- the LOCKED condition is met; TURN_VALID becomes 1 at the next boundary (R53); reset false -/
  toValid : Bool := false
  /-- whole turns by which array time is ahead of the local turn number, as the last beacon in ACQUIRE told (R20, R48); reset 0 -/
  renum : Int := 0
  /-- a valid θ within the limit has come in HOLDOVER; LOCKED follows at the next boundary (R53); reset false -/
  toLocked : Bool := false
  /-- the PT servo (R517); reset 0 -/
  pt : Servo := {}
  /-- AT − PT in 1/256 fb (R517); reset 0 -/
  ptOff : Int := 0
  /-- PT waits for a θ to align on (R517); reset false -/
  ptAlign : Bool := false
  /-- a landed change of ACTIVE_SEL waits for R61 to permit it (R62); reset false -/
  selPending : Bool := false
  /-- the pending step (R56); reset none -/
  step : Option PendingStep := none
  /-- ST, 48-bit seconds (R66); reset the value in MRAM -/
  st : Nat := 0
  /-- ST as last written to MRAM (R66); kept over every reset -/
  stMram : Nat := 0
  /-- REFCLK cycles since ST last advanced (R66); reset 0 -/
  stCycles : Nat := 0
  /-- the transmit timestamp queues of UA, UB, TPA and TPB: identifier and T73, oldest first, at most 16 (R67); reset empty -/
  txts : List (List (Nat × Stamp)) := [[], [], [], []]
  /-- Delay_Req messages that have left (R50); reset none -/
  sent : List DelayReq := []
  deriving DecidableEq, Repr

/-- What a channel's front end holds beside its registers (R74 to R91). -/
structure AfeChannel where
  /-- turns since OUT last moved; none before the first step (R76); reset none -/
  sinceStep : Option Nat := none
  /-- value last posted by the bias loop or held for it (R75); reset none -/
  posted : Option Nat := none
  /-- turns since the last NODE_DEVIATION report; none before the first (R77); reset none -/
  sinceReport : Option Nat := none
  /-- the comparators are blanked from the first of these periods of the coarse clock up to the second (R83, R514); reset 0, 0 (not
  blanked) -/
  blank : Nat × Nat := (0, 0)
  /-- the two DAC cores of thresholds and hysteresis, as THR words (R82); reset the reset word of THR -/
  cores : Word × Word := (0x4BFF0014, 0x4BFF0014)
  /-- which core drives the comparators (R82); reset false (the first) -/
  core : Bool := false
  deriving DecidableEq, Repr

/-- The front end (R71 to R92). -/
structure Afe where
  /-- channels by number; an unlisted channel has its reset state -/
  ch : KMap AfeChannel := []
  /-- the active test-pulse schedule has REPEAT = 0 and has fired or was missed (R88, R89); reset false -/
  tpDone : Bool := false
  /-- a pulse was launched in this turn (R87); reset false -/
  tpFired : Bool := false
  /-- charges injected by the last launch: channel and charge in 0.5 fC (R86; shown by the model); reset none -/
  injected : List (Nat × Nat) := []
  deriving DecidableEq, Repr

/-- Where a chain stands in its dice run (R99). -/
inductive DicePhase where
  | idle
  | collect
  | integrate
  | align
  | check
  | ready
  | failed
  deriving DecidableEq, Repr

/-- One of the five chains of a TDC unit (R95, R99). -/
structure Chain where
  /-- the calibration table in use, 320 entries in fb/256; none before the first (R97, R103); reset none -/
  tbl : Option (List Nat) := none
  /-- the alignment A_q in use, in fb/256 (R97); reset 0 -/
  a : Nat := 0
  /-- age in turns of the table in use (R112); reset 0 -/
  age : Nat := 0
  /-- the last histogram, 320 bins (R99); reset none -/
  hist : Option (List Nat) := none
  /-- overrun edges of the last COLLECT (R99); reset 0 -/
  overrun : Nat := 0
  /-- table and alignment waiting for the swap (R103); reset none -/
  new : Option (List Nat × Nat) := none
  /-- age in turns of the waiting table (R105); reset 0 -/
  newAge : Nat := 0
  /-- spread of the reference stamps: count n and n·Σx² − (Σx)² (R104); reset 0 -/
  spread : Nat × Nat := (0, 0)
  /-- place in the dice run (R99); reset COLLECT, for the initial calibration (R109) -/
  phase : DicePhase := .collect
  /-- the chain is in service (R95); reset false -/
  service : Bool := false
  /-- consecutive failed dice runs (R106); reset 0 -/
  failRun : Nat := 0
  deriving DecidableEq, Repr

/-- A pulse whose leading edge is stamped and which is not closed (R115, R117). Times are in fb from turn 0, SKEW included. -/
structure OpenPulse where
  /-- time of the first leading edge (R115) -/
  lead : Int
  /-- fb that steps added to the scale since the leading edge (R57) -/
  shift : Int
  /-- time of the last trailing edge that belongs to it (R115) -/
  trail : Option Int
  /-- its trailing edge came and was discarded (R115) -/
  trailLost : Bool
  /-- the unit was not VALID at the leading edge (R113) -/
  uncal : Bool
  /-- EDGES mode was in force at the leading edge (R117) -/
  edges : Bool
  /-- the unit emits items for it: enabled, in STREAM or HYBRID at the leading edge (R117, R335) -/
  emits : Bool
  /-- the leading EDGE item has been emitted (R116) -/
  leadSent : Bool
  /-- the long-pulse HIT has been emitted (R115) -/
  longDone : Bool
  deriving DecidableEq, Repr

/-- One TDC unit (R95): its chains, its dice run and its pairing logic. -/
structure TUnit where
  /-- its five chains (R95) -/
  chains : List Chain := List.replicate 5 {}
  /-- the initial or full calibration runs on it (R109); reset true (R110) -/
  initial : Bool := true
  /-- it is powered down or does not run (R110); reset false -/
  off : Bool := false
  /-- MAX_BIN, ALIGN_RMS and DRIFT of the last dice run (R104, UNIT_QUAL); reset 0 -/
  qual : Nat × Nat × Nat := (0, 0, 0)
  /-- UNIT_AGE as latched at the last boundary (R39); reset 0 -/
  ageLatch : Nat := 0
  /-- the open pulse (R115); reset none -/
  pulse : Option OpenPulse := none
  /-- last leading edge resolved, kept or discarded (R115); reset none -/
  lastLead : Option Int := none
  /-- last trailing edge resolved, kept or discarded (R115); reset none -/
  lastTrail : Option Int := none
  /-- items in the staging queue, 0 to 16 (R118); reset 0 -/
  stage : Nat := 0
  /-- clock periods from which the next drain of the staging queue counts (R118, R514); reset 0 -/
  stageCt : Nat := 0
  deriving DecidableEq, Repr

/-- A gate of a frequency engine, open or waiting for its result (R120 to R122). -/
structure Gate where
  /-- opening time in fb (R120) -/
  opened : Int
  /-- GMODE in force when it opened (R120, R23); reset TURNS -/
  gmode : Nat := 0
  /-- GATE_TURNS in force when it opened, 1 to 32 768 (R120); reset 32 768 -/
  turns : Nat := 32768
  /-- closing time in fb, once known (R120) -/
  closed : Option Int := none
  /-- flags TRUNCATED, STEPPED, ABORTED as bits 5, 4, 3 (R120) -/
  flags : Nat := 0
  /-- it takes no further edge, because a step closed it (R120) -/
  shut : Bool := false
  /-- KIND in force when it opened (R121, R23) -/
  kind : Nat
  /-- SRC in force when it opened -/
  src : Nat
  /-- STOP_SRC in force when it opened -/
  stopSrc : Nat
  /-- POL in force when it opened -/
  pol : Nat
  /-- PRESCALE in force when it opened (R119) -/
  prescale : Nat
  /-- edges counted (R121) -/
  n : Nat := 0
  /-- stamp of edge 0 (R121) -/
  t0 : Int := 0
  /-- Σ d_i (R121) -/
  st : Int := 0
  /-- Σ i·d_i (R121) -/
  sit : Int := 0
  /-- Σ d_i² (R121) -/
  sdd : Int := 0
  /-- an edge of it was stamped by a unit that was not VALID (R113) -/
  uncal : Bool := false
  /-- start edges not yet paired, at most 16: time, and whether the unit was not VALID (R113, R122) -/
  starts : List (Int × Bool) := []
  /-- stop edges not yet paired, at most 16: time, and whether the unit was not VALID (R113, R122) -/
  stops : List (Int × Bool) := []
  /-- pairs formed (R122) -/
  pairs : Nat := 0
  deriving DecidableEq, Repr

/-- The TDC units and the frequency engines (R95 to R123). -/
structure Tdc where
  /-- units by number u; an unlisted unit has its reset state (R95) -/
  units : KMap TUnit := []
  /-- units that were VALID when calibration was last judged (R114); reset none -/
  valid : List Nat := []
  /-- an episode of CAL_NOT_VALID runs (R114); reset false -/
  episode : Bool := false
  /-- a full calibration starts at the next boundary (R111); reset false -/
  fullReq : Bool := false
  /-- gates of each frequency engine, oldest first (R120); reset none -/
  gates : List (List Gate) := [[], [], [], []]
  /-- level of GATE_IN as last sampled (R120); reset false -/
  gateIn : Bool := false
  /-- EXT_TURN: per engine, whether its gate closes and whether one opens at the next boundary (R120); reset neither -/
  gateArm : List (Bool × Bool) := List.replicate 4 (false, false)
  deriving DecidableEq, Repr

/-- What a channel's segment store does with a segment (R139); FREE segments are not listed. -/
inductive SegState where
  | waiting
  | copying
  | ready
  | reading
  deriving DecidableEq, Repr

/-- A claimed segment and its record (R139 to R142). Times are in fb from turn 0. -/
structure Segment where
  /-- its index j in the segment store (R373) -/
  j : Nat
  /-- its state (R139) -/
  st : SegState := .waiting
  /-- trigger time t, SKEW included (R141) -/
  t : Int
  /-- PRE in force at the trigger (R131) -/
  pre : Nat
  /-- POST in force at the trigger -/
  post : Nat
  /-- W of the geometry it was claimed under, in samples (R131) -/
  w : Nat
  /-- S of that geometry, in samples (R131) -/
  size : Nat
  /-- SRCS, in the bit order of SRC_EN (R134) -/
  srcs : Nat
  /-- priority of the source of its trigger time (R132) -/
  prio : Nat
  /-- turn of that time before SKEW, whose configuration governs the record (R85, R152) -/
  gov : Nat
  /-- NO_LOCAL (R132, R137) -/
  noLocal : Bool
  /-- its trigger time came from a TDC unit (R164) -/
  tdc : Bool
  /-- CLASS: lowest class merged, none without an accept (R134) -/
  cls : Option Nat
  /-- FORCE_WAVE of a class merged (R136) -/
  force : Bool
  /-- the channel's trim was CONVERGING at the trigger (R127) -/
  untrimmed : Bool
  /-- HG codes of the record, once copied (R140) -/
  hg : List Nat := []
  /-- LG codes of the record, once copied -/
  lg : List Nat := []
  /-- record samples that lie in poisoned words, HG from 0 and LG from L (R142) -/
  bad : List Nat := []
  /-- a sample was replaced for an isolated sub-converter (R128) -/
  interp : Bool := false
  /-- clock periods at which it became READY (R153, R514) -/
  readyCt : Nat := 0
  deriving DecidableEq, Repr

/-- The states of a channel's capture (R126, R131, CAP_CH_STATUS). -/
inductive CapState where
  | off
  | warmup
  | run
  | recut
  deriving DecidableEq, Repr

/-- The states of a channel's interleave trim (R127, CAP_CH_STATUS). -/
inductive TrimState where
  | off
  | converging
  | settled
  | frozen
  deriving DecidableEq, Repr

/-- Losses of one channel, cause and turn not yet emitted as a GAP (R143). -/
structure GapEpisode where
  /-- channel; none for the chip-level ACCEPT_LATE (R143) -/
  ch : Option Nat
  /-- CAUSE of R192 -/
  cause : Nat
  /-- turn of the losses -/
  turn : Nat
  /-- first lost trigger, fb from turn 0 -/
  first : Int
  /-- last lost trigger -/
  last : Int
  /-- triggers lost -/
  n : Nat
  deriving DecidableEq, Repr

/-- Capture state of one channel (R126 to R143). -/
structure CapChannel where
  /-- OFF, WARMUP, RUN or RECUT (R126, R131); reset OFF -/
  st : CapState := .off
  /-- its ADCs are on (R126); reset false -/
  adcOn : Bool := false
  /-- first valid sample, counted from turn 0 (R126); reset 0 -/
  validFrom : Nat := 0
  /-- first sample that its ADCs, once switched off, no longer took, counted from turn 0 (R126, R135); reset 0 -/
  offFrom : Nat := 0
  /-- first sample of the new ring of a recut, counted from turn 0 (R131); reset 0 -/
  recutFrom : Nat := 0
  /-- claimed segments (R139); reset none -/
  segs : List Segment := []
  /-- interleave trim (R127); reset OFF -/
  trim : TrimState := .off
  /-- its earlier states, oldest first, each with the sample, counted from turn 0, at which it ended (R127); reset none -/
  trimWas : List (Nat × TrimState) := []
  /-- estimates of an update that waits for its pip (R127); reset none -/
  est : Option (List Int) := none
  /-- corrections in force in 1/64 step: HG then LG, sub-converter by sub-converter: offset, gain, skew (R127); reset 0 -/
  corr : List Int := List.replicate 48 0
  /-- corrections that land at the next boundary (R127); reset none -/
  corrNew : Option (List Int) := none
  /-- consecutive sweeps with changes below 1/8 step (R127); reset 0 -/
  calm : Nat := 0
  /-- consecutive sweeps that each sub-converter ended at a range limit, HG then LG (R461); reset 0 -/
  limit : List Nat := List.replicate 16 0
  /-- the LEVEL source may fire: the signal has been below base + THR − 8 since it fired last (R133); reset true -/
  armed : Bool := true
  deriving DecidableEq, Repr

/-- An edge or crossing that triggers and primitives look for (R137, R146): kind 0 LOW, 1 HIGH, 2 LEVEL. -/
structure CapEdge where
  /-- 0 LOW edge, 1 HIGH edge, 2 LEVEL crossing -/
  kind : Nat
  /-- channel -/
  ch : Nat
  /-- its time in fb from turn 0, SKEW included -/
  t : Int
  /-- turn of its time before SKEW, whose configuration governs it (R85) -/
  turn : Nat
  deriving DecidableEq, Repr

/-- A decoded ACCEPT (R136, R219). -/
structure Accept where
  /-- ARRAY rather than CLUSTER -/
  array : Bool
  /-- CLASS -/
  cls : Nat
  /-- turn of tick p, extended -/
  turn : Nat
  /-- pip of tick p -/
  pip : Nat
  deriving DecidableEq, Repr

/-- Capture and triggers (R125 to R149). -/
structure Capture where
  /-- channels by number; an unlisted channel has its reset state -/
  ch : KMap CapChannel := []
  /-- a recut has landed and RECUT_DONE is still to come (R131); reset false -/
  recutting : Bool := false
  /-- channel whose trim is updated next, and whether this turn's update is done (R127); reset 0, not done -/
  trimNext : Nat × Bool := (0, false)
  /-- recent leading edges and LEVEL crossings (R137, R146); reset none -/
  edges : List CapEdge := []
  /-- bitmaps of recent ticks by absolute tick, closed under R146; reset none -/
  maps : KMap Nat := []
  /-- recent primitives sent: absolute tick and span (R136, R148); reset none -/
  sent : List (Nat × Nat) := []
  /-- held bitmap of R148; reset 0 -/
  held : Nat := 0
  /-- ticks held (R148); reset 0 -/
  span : Nat := 0
  /-- credit buckets of VL_0 on LANE_0 and LANE_4 in characters (R147, R148); reset 32 each -/
  bucket : Nat × Nat := (32, 32)
  /-- accepts held until their tick ends (R138); reset none -/
  holds : List Accept := []
  /-- a software trigger waits for the next pip boundary (R132); reset false -/
  swPend : Bool := false
  /-- losses not yet emitted (R143); reset none -/
  gaps : List GapEpisode := []
  /-- TRIG_OUT is high (R149); reset low -/
  trigOut : Bool := false
  /-- event times not yet driven on TRIG_OUT, in fb of the coarse clock, which a step leaves as they are (R149, R514); reset none -/
  trigEvents : List Int := []
  /-- last event of the present pulse, in fb of the coarse clock (R149, R514); reset 0 -/
  trigLast : Int := 0
  deriving DecidableEq, Repr

/-- A slice engine (R152 to R155). -/
structure Engine where
  /-- the record it runs: channel and segment (R153); reset none -/
  run : Option (Nat × Nat) := none
  /-- end of the slice in which that record started, in clock periods (R154, R514); reset 0 -/
  sliceEnd : Nat := 0
  /-- items of the record not yet written to the output FIFO (R155); reset none -/
  items : List Entry := []
  /-- clock periods from which it waits for room (R155); reset none -/
  waitFrom : Option Nat := none
  deriving DecidableEq, Repr

/-- Sums of the gain-ratio tracking of a channel (R159). -/
structure GainSums where
  /-- S_h in 1/1 024 code; reset 0 -/
  sh : Int := 0
  /-- S_l in 1/1 024 code; reset 0 -/
  sl : Int := 0
  /-- pairs accumulated; reset 0 -/
  n : Nat := 0
  /-- a new GAIN that waits to land; reset none -/
  next : Option Nat := none
  deriving DecidableEq, Repr

/-- The slice engines and their tables (R152 to R167). -/
structure Slices where
  /-- the engines SE_0 to SE_7 (R152) -/
  engines : List Engine := List.replicate 8 {}
  /-- engines isolated since a boundary (R465); reset none -/
  off : List Nat := []
  /-- LIN and WALK entries by ((bank·4 + kind)·64 + channel)·128 + entry, 16 bits (R156, R164); reset 0 -/
  lin : KMap Nat := []
  /-- gain-ratio sums by channel (R159); reset 0 -/
  gain : KMap GainSums := []
  deriving DecidableEq, Repr

/-- The frame being built by the collector (R197, R198). -/
structure FrameBuild where
  /-- its turn -/
  turn : Nat
  /-- its words so far, in a concentrator, whose own frame has its own chain (R212); in a leaf they lie in the queue -/
  words : List Word64 := []
  /-- pages of that chain (R224) -/
  pages : List Nat := []
  /-- it is built for a concentrator -/
  own : Bool
  /-- ITEM_COUNT so far -/
  items : Nat := 0
  /-- LATE_COUNT so far -/
  late : Nat := 0
  /-- the turn was refused: its words are discarded (R236) -/
  refused : Bool := false
  /-- it is to be recoded (R251) -/
  recode : Bool := false
  /-- pages of its recoded chain (R262) -/
  pages2 : List Nat := []
  /-- its recoded chain found no page (R262) -/
  short : Bool := false
  /-- the input FIFO of its compressor pipe has overflowed (R262) -/
  overflow : Bool := false
  /-- key of the last item emitted that was not LATE: fb of its time, and source (R172) -/
  last : Option (Nat × Nat) := none
  deriving DecidableEq, Repr

/-- What the collector does with an entry (R172, R173, R184, R197, R198). -/
inductive ItemFate where
  /-- it stands in the frame of its own turn -/
  | inTime
  /-- it is flagged LATE and stands in the frame being built -/
  | late
  /-- its turn has no frame: discarded and not counted (R197) -/
  | noFrame
  /-- it would be LATE while no frame is built: discarded and counted in LATE_ITEMS (R197) -/
  | lateNoFrame
  /-- it would stand 2 048 or more turns after its own turn (R184) -/
  | tooOld
  deriving DecidableEq, Repr

/-- A closed frame of a concentrator's own channels, in its own chain of pages (R212). -/
structure OwnFrame where
  /-- its turn -/
  turn : Nat
  /-- its words, TURN_HEAD to TURN_TAIL -/
  words : List Word64
  /-- its pages (R224) -/
  pages : List Nat
  /-- it is to be recoded (R251) -/
  recode : Bool
  /-- pages of its recoded chain (R262) -/
  pages2 : List Nat := []
  /-- its recoded chain found no page (R262) -/
  short : Bool := false
  /-- the input FIFO of its compressor pipe has overflowed (R262) -/
  overflow : Bool := false
  deriving DecidableEq, Repr

/-- The collector and the frame builder (R170 to R174, R197 to R201). -/
structure Collector where
  /-- TURN_HEAD of the present turn, as it stood at ct 0; none where the turn has no frame (R197, R200); reset none -/
  head : Option (Nat × List Word64) := none
  /-- the frame being built; reset none -/
  build : Option FrameBuild := none
  /-- the frame closes, and its TURN_TAIL waits for an item that has started; with it, the next TURN_HEAD (R173, R198); reset none -/
  closing : Option (Option (Nat × List Word64)) := none
  /-- a record group whose emission has started: source, place of its next item in the FIFO, and its fate (R187); reset none -/
  group : Option (Nat × Nat × ItemFate) := none
  /-- runs of turns that have frames, newest last: first and last turn (R197); reset none -/
  framed : List (Nat × Nat) := []
  /-- own closed frames of a concentrator that wait for their splice (R212); reset none -/
  ownDone : List OwnFrame := []
  deriving DecidableEq, Repr

/-- A cascade frame that is open (R211, R212). -/
structure CasFrame where
  /-- its turn -/
  turn : Nat
  /-- LEVEL in force at its turn (R205, R23) -/
  level : Nat
  /-- slots that owe a sub-frame: a port, or the lower port of a pair (R208, R211) -/
  owed : List Nat
  /-- sub-frames spliced: chip ID and port, 255 for the own frame (R209, R211) -/
  subs : List (Nat × Nat) := []
  /-- boundaries since it opened (R212) -/
  age : Nat := 0
  deriving DecidableEq, Repr

/-- Where a frame that arrives on a downstream port stands (R209, R210). -/
inductive RxStage where
  | head
  | body
  deriving DecidableEq, Repr

/-- A frame arriving on a downstream port, in its own chain of pages (R209). -/
structure RxFrame where
  /-- where it stands -/
  stage : RxStage := .head
  /-- its words, without the IDLE words between items (R181) -/
  words : List Word64 := []
  /-- its pages (R224) -/
  pages : List Nat := []
  /-- the words of the checked frame, once its TURN_TAIL has passed the checks -/
  done : List Word64 := []
  /-- it is recoded: the setting in force when its TURN_HEAD arrived (R251) -/
  recode : Bool := false
  /-- pages of its recoded chain (R262) -/
  pages2 : List Nat := []
  /-- its recoded chain found no page (R262) -/
  short : Bool := false
  deriving DecidableEq, Repr

/-- A downstream port as the cascade unit sees it (R206 to R209, R212). -/
structure CasPort where
  /-- it was STANDBY or ATTACHED since PORT_EN rose (R206); reset false -/
  was : Bool := false
  /-- turn of the boundary at which it attached (R206); reset 0 -/
  attachedAt : Nat := 0
  /-- the frame arriving on VL_2 (R209); reset none -/
  rx : Option RxFrame := none
  /-- checked frames that are being recoded, oldest first (R262); reset none -/
  pipe : List RxFrame := []
  /-- splices of the last 4 096 turns: the turn, counted as clk.bounds counts, and ct left to the close (R212); reset none -/
  margins : List (Nat × Nat) := []
  deriving DecidableEq, Repr

/-- A cluster ACCEPT that has been decided and waits for tick + D_CT (R215, R216). -/
structure DueAccept where
  /-- turn of tick p -/
  turn : Nat
  /-- pip of tick p -/
  pip : Nat
  /-- CLASS of the lowest rule that fired -/
  cls : Nat
  /-- COARSE -/
  coarse : Bool
  deriving DecidableEq, Repr

/-- The SUMMARY held under the cap of R148 (R218). -/
structure HeldSummary where
  /-- SLOTS, ORed; reset 0 -/
  slots : Nat := 0
  /-- MULT, the largest; reset 0 -/
  mult : Nat := 0
  /-- RULES, ORed; reset 0 -/
  rules : Nat := 0
  /-- ticks held; reset 0 -/
  span : Nat := 0
  deriving DecidableEq, Repr

/-- The cascade unit (R204 to R222). -/
structure Cascade where
  /-- adjacency half-entries: bank, pixel and word as bank·2048 + pixel·2 + word, in the layout of ADJ_DATA (R214); reset: enabled, no neighbours -/
  adj : KMap Word := []
  /-- open cascade frames, oldest first (R212); reset none -/
  frames : List CasFrame := []
  /-- the downstream ports D_0 to D_7 (R206) -/
  ports : List CasPort := List.replicate 8 {}
  /-- PRIMITIVE bitmaps by 16·tick + slot, the tick counted from turn 0 (R213); reset none -/
  prims : KMap Nat := []
  /-- ticks for which a coarsened PRIMITIVE was taken (R219); reset none -/
  coarse : List Nat := []
  /-- bitmaps b[p] of recent ticks (R213, R215); reset none -/
  maps : KMap Nat := []
  /-- hold[r] of the rules (R215); reset 0 -/
  hold : List Nat := [0, 0, 0, 0]
  /-- cluster ACCEPTs decided and not yet sent (R216); reset none -/
  due : List DueAccept := []
  /-- cluster ACCEPTs held behind an earlier VL_0 message: port j and body (R216); reset none -/
  delayed : List (Nat × List Word) := []
  /-- array accepts relayed: tick of the relay, and TURN, PIP and CLASS as one number (R217); reset none -/
  relayed : List (Nat × Nat) := []
  /-- the SUMMARY held under the cap (R218); reset empty -/
  held : HeldSummary := {}
  deriving DecidableEq, Repr

/-- STATE of a queue that is not FREE (R225, R226). -/
inductive QState where
  | open_
  | closed
  | sent
  | held
  deriving DecidableEq, Repr

/-- A turn queue that is not FREE (R223 to R226). -/
structure TQueue where
  /-- STATE (R226) -/
  st : QState
  /-- the turn it holds (R223) -/
  turn : Nat
  /-- VERDICT: 0 NONE, 1 ACCEPT, 2 REJECT (R225) -/
  verdict : Nat := 0
  /-- INFLIGHT (R225) -/
  inflight : Bool := false
  /-- SENT_ONCE (R225) -/
  sentOnce : Bool := false
  /-- VIA_UB (R225) -/
  viaUB : Bool := false
  /-- the frame's words, as built so far (R223) -/
  words : List Word64 := []
  /-- indexes of words in poisoned codewords (R225, R240) -/
  bad : List Nat := []
  /-- its pages, first to last (R224) -/
  pages : List Nat := []
  /-- turn in which it closed, counted as clk.bounds counts (R228) -/
  closedAt : Nat := 0
  /-- turn in which its last send ended, once sent, counted as clk.bounds counts (R230) -/
  lastSend : Option Nat := none
  /-- its pin has lifted while RETAIN = 0: HELD, it becomes FREE at the next boundary (R226) -/
  lifted : Bool := false
  deriving DecidableEq, Repr

/-- What leaves on VL_2 (R231). -/
inductive SendKind where
  | first
  | replay
  | stub
  | rewind
  | gone
  deriving DecidableEq, Repr

/-- A frame that an upstream port is sending (R231). -/
structure SendJob where
  /-- its turn -/
  turn : Nat
  /-- why it is sent -/
  kind : SendKind
  /-- words not yet sent -/
  left : List Word64
  /-- its first block has not been sent: MARK is still to come (R292) -/
  fresh : Bool := true
  /-- its blocks are decoded as they leave (R267) -/
  verify : Bool := false
  deriving DecidableEq, Repr

/-- What a TURN_HEAD tells of the machine beside its turn and step (R200). -/
structure HeadFields where
  /-- MODE -/
  mode : Nat := 0
  /-- CHIP_ID -/
  chip : Nat := 0
  /-- CFG_GEN -/
  gen : Nat := 0
  /-- AT_STATE -/
  at_ : Nat := 0
  /-- MASTER_DISAGREE -/
  disagree : Nat := 0
  /-- JUMP_HOLD -/
  jump : Nat := 0
  /-- TDC_NOT_VALID -/
  tdc : Nat := 0
  /-- GPB_HOLD -/
  gpb : Nat := 0
  deriving DecidableEq, Repr

/-- An upstream port as the turn queues see it (R242 to R248). -/
structure UpPort where
  /-- turn in which a give-up trigger was met, until the switch, counted as clk.bounds counts (R244); reset none -/
  gaveUp : Option Nat := none
  /-- turn at whose opening a frame still being sent is aborted, counted as clk.bounds counts (R244); reset none -/
  abortAt : Option Nat := none
  /-- the frame it is sending (R231); reset none -/
  job : Option SendJob := none
  /-- turns it is to replay, ascending (R246); reset none -/
  replay : List Nat := []
  /-- consecutive turns with lanes ACTIVE and no trigger, while given up (R247); reset 0 -/
  goodTurns : Nat := 0
  /-- its lanes were ACTIVE at ct 0 of this turn (R247); reset false -/
  wasUp : Bool := false
  /-- a trigger was met in this turn (R247); reset false -/
  hit : Bool := false
  /-- consecutive turns a frame has waited without credit (R243); reset 0 -/
  waitTurns : Nat := 0
  /-- credit arrived in this turn (R243); reset false -/
  credited : Bool := false
  deriving DecidableEq, Repr

/-- A pending rewind request (R238). -/
structure RewindReq where
  /-- next turn to send -/
  next : Nat
  /-- turns left -/
  left : Nat
  deriving DecidableEq, Repr

/-- The turn queues (R223 to R248). -/
structure Queues where
  /-- queues that are not FREE, by queue index (R223); reset none -/
  q : KMap TQueue := []
  /-- pages in use beside those of queues: chains of frames being received or built (R224); reset none -/
  chains : List Nat := []
  /-- the rewind mark in force (R234); reset none -/
  mark : Option Nat := none
  /-- a set or clear that takes effect at the next boundary (R234); reset none -/
  markNext : Option (Option Nat) := none
  /-- runs of refused turns: first turn and length, at most 16 (R236); reset none -/
  refusals : List (Nat × Nat) := []
  /-- what a TURN_HEAD tells of the machine at ct 0 of this turn (R237); reset: everything 0 -/
  head0 : HeadFields := {}
  /-- a RESUME with SKIP has yet to pass over the failing block (R266); reset false -/
  skip : Bool := false
  /-- rewind requests, at most 4 (R238); reset none -/
  rewinds : List RewindReq := []
  /-- newest closed turn (R238); reset none -/
  newestClosed : Option Nat := none
  /-- newest turn released by TURN_ACK (NEWEST_ACK); reset none -/
  newestAck : Option Nat := none
  /-- UA and UB (R242) -/
  up : List UpPort := [{}, {}]
  deriving DecidableEq, Repr

/-- A data block that arrived ahead of its turn (R289). -/
structure RxBlock where
  /-- SEQ -/
  seq : Nat
  /-- MARK -/
  mark : Bool
  /-- it ended with K30.7 -/
  aborted : Bool
  /-- its payload words -/
  words : List Word64
  /-- absolute ct of its arrival -/
  at_ : Nat
  deriving DecidableEq, Repr

/-- One virtual lane of one port, both directions (R289, R290). -/
structure LnkVl where
  /-- SEQ of the next block with LEN > 0 to send (R289); reset 0 -/
  txSeq : Nat := 0
  /-- credit limit last received (R290); reset 0 -/
  limit : Nat := 0
  /-- SEQ to deliver next (R289); reset 0 -/
  rxNext : Nat := 0
  /-- SEQs delivered, discarded or declared lost since ACTIVE (R290); reset 0 -/
  retired : Nat := 0
  /-- blocks held because an earlier SEQ is missing (R289); reset none -/
  early : List RxBlock := []
  /-- blocks are discarded up to the next MARK (R292); reset false -/
  skip : Bool := false
  deriving DecidableEq, Repr

/-- A capability set as received on a lane, and how many identical ones in a row (R279, R282). -/
structure CapRun where
  /-- the 14 bytes -/
  bytes : List Byte
  /-- consecutive identical sets, at most 4 -/
  n : Nat
  deriving DecidableEq, Repr

/-- A lane beside its status register (R274 to R287). -/
structure Lane where
  /-- the last DETECT probe found a receiver (R275); reset false -/
  probe : Bool := false
  /-- electrical idle after a failed attempt (R280); reset false -/
  idle : Bool := false
  /-- the TRAIN under way is warm (R287); reset false -/
  warm : Bool := false
  /-- capability sets received (R279, R282); reset none -/
  caps : Option CapRun := none
  /-- capability sets waiting to be sent in ACTIVE (R282); reset 0 -/
  capOut : Nat := 0
  /-- consecutive turns with an eye below its limit (R286); reset 0 -/
  eyeLow : Nat := 0
  /-- LEN_LOG2 of the loopback test under way (R296); reset 0 -/
  prbsLen : Nat := 0
  /-- the transmitter's running disparity: true is positive (R271); reset negative -/
  txPos : Bool := false
  /-- the filler scrambler (R273); reset 0x7F_FFFF, its seed -/
  scrambler : Nat := 0x7FFFFF
  /-- characters sent since the last idle ordered set (R283); reset 0 -/
  sinceIdle : Nat := 0
  /-- LP_DEEP entry ordered sets still to be sent (R295); reset 0 -/
  lpOut : Nat := 0
  /-- the TRAIN under way leaves LP_DEEP: TS carry LP_EXIT (R273, R295); reset false -/
  lpExit : Bool := false
  /-- turns since a timing lane last sent a capability set in ACTIVE (R281); reset 0 -/
  capTurns : Nat := 0
  deriving DecidableEq, Repr

/-- What a lane sent last, as the model shows it (R273, R288, R293). -/
inductive SentUnit where
  /-- nothing yet -/
  | nothing
  /-- a VL_0 message: its body -/
  | short (body : List Word)
  /-- a link control body -/
  | control (body : Word64)
  /-- a capability ordered set: its 14 bytes -/
  | capability (bytes : List Byte)
  /-- a data block: header, payload and whether it ends with K30.7 -/
  | block (hdr : Word) (words : List Word64) (aborted : Bool)
  /-- an idle ordered set, with its filler -/
  | idle (filler : List Byte)
  /-- a training ordered set: RATE, FLAGS and filler -/
  | training (rate flags : Nat) (filler : List Byte)
  /-- an LP_DEEP entry ordered set, with its filler -/
  | lpEntry (filler : List Byte)
  /-- a timing-link message frame: the bytes between K28.2 and K29.7 (R50) -/
  | linkFrame (bytes : List Byte)
  deriving DecidableEq, Repr

/-- A port beside its status registers (R278 to R292). -/
structure LnkPort where
  /-- VL_1 -/
  vl1 : LnkVl := {}
  /-- VL_2 -/
  vl2 : LnkVl := {}
  /-- words of the VL_1 message being received (R291); reset none -/
  rxMsg : List Word64 := []
  /-- whole VL_1 messages received and not yet taken, oldest first (R291); reset none -/
  msgs : List (List Word) := []
  /-- words of the VL_1 message being sent that have not left (R291); reset none -/
  txMsg : Option (List Word64) := none
  /-- VL_2 blocks sent since the last VL_1 block (R291); reset 3, so that a VL_1 block may go -/
  sinceVl1 : Nat := 3
  /-- turns of the block CRC errors of the last 16 turns, counted as clk.bounds counts (R243); reset none -/
  crcTurns : List Nat := []
  /-- attempt rate code (R280); reset the MAX_RATE that stands at reset -/
  rate : Nat := 2
  /-- a warm retrain at the next boundary (R282, R286, R287); reset false -/
  retrain : Bool := false
  /-- a cold restart at the next boundary (R280); reset false -/
  restart : Bool := false
  /-- capability values that are adopted at the next boundary (R282); reset none -/
  adopt : Option (List Byte) := none
  /-- a block waited for credit in this turn (R290); reset false -/
  waited : Bool := false
  /-- the next block with a choice returns the credit of VL_2 (R290); reset false -/
  creditVl2 : Bool := false
  /-- a frame was aborted: the next VL_2 block ends with K30.7 (R292); reset false -/
  abort : Bool := false
  /-- the capability values last sent (R282); reset none -/
  sentCaps : List Byte := []
  deriving DecidableEq, Repr

/-- Ports and lanes (R270 to R297). -/
structure Lnk where
  /-- ports UA, UB, D_0 to D_7, TPA, TPB (R270) -/
  ports : List LnkPort := List.replicate 12 {}
  /-- LANE_0 to LANE_17 (R270) -/
  lanes : List Lane := List.replicate 18 {}
  /-- what was sent last: lane and unit (the model's own) -/
  sent : Nat × SentUnit := (0, .nothing)
  /-- the 10-bit codes in which it left, bit a the most significant (R271; the model's own) -/
  codes : List Nat := []
  deriving DecidableEq, Repr

/-- A telemetry record (R329, R330). -/
structure TelemRec where
  /-- REC_ID, 14 bits (R329) -/
  id : Nat
  /-- PERIOD in turns, 1 to 65 535 (R329) -/
  period : Nat
  /-- PHASE, below PERIOD (R329) -/
  phase : Nat
  /-- each record is also sent as TELEM_REPORT (R329) -/
  toMbx : Bool
  /-- 1 to 30 register offsets (R329) -/
  offsets : List Nat
  /-- an occurrence is due and waits for its TELEM pip (R330) -/
  waiting : Bool := false
  deriving DecidableEq, Repr

/-- A user-firmware handler that has not returned (R331, R332). -/
structure Handler where
  /-- the mailbox of its request (R332) -/
  mbx : Nat
  /-- header fields that its response repeats: MSG_ID, SEQ, MBX, STAMP (R306) -/
  id : Nat
  seq : Nat
  hdrMbx : Nat
  stamp : Bool
  /-- it was answered BUSY on its behalf (R332) -/
  late : Bool := false
  /-- the words that were dirty when it started (R331) -/
  dirty : List Nat := []
  deriving DecidableEq, Repr

/-- The mailboxes and what Horef keeps beside their registers (R300 to R332). -/
structure Mailboxes where
  /-- mailboxes in REQUEST, in the order in which they entered it (R302); reset none -/
  order : List Nat := []
  /-- words received of the request in a mailbox, header included (R305); reset 0 -/
  got : KMap Nat := []
  /-- the open set: its owner and the turns since its last configuring message (R315, R316); reset none -/
  openSet : Option (Nat × Nat) := none
  /-- the telemetry records, at most 32, as defined (R329); reset none -/
  telem : List TelemRec := []
  /-- handlers that have not returned (R331, R332); reset none -/
  handlers : List Handler := []
  /-- mailboxes whose handler left dirty words, discarded once its response has been sent (R331); reset none -/
  remains : List Nat := []
  /-- inner messages of PORT_FORWARD by mailbox, which leave after the response (R326); reset none -/
  forward : List (Nat × OutMsg) := []
  deriving DecidableEq, Repr

/-- The step of a scan (R340). -/
structure ScanRun where
  /-- step k (R340) -/
  k : Nat := 0
  /-- value v (R340) -/
  v : Nat := 0
  /-- its count window is open (R340) -/
  window : Bool := false
  /-- whole turns counted (R341) -/
  turns : Nat := 0
  /-- a masked channel was held under priorities 1 to 3 of R74 during the window (R341) -/
  held : Bool := false
  /-- leading edges counted, by channel (R341) -/
  counts : KMap Nat := []
  deriving DecidableEq, Repr

/-- Where BOOT stands (R345, R346). -/
inductive BootPhase where
  /-- held in reset, by power-on reset or RESET_N (R343, R344) -/
  | inReset
  /-- the ROM waits for REFCLK and the PLLs -/
  | pll
  /-- the SRAMs are being initialised -/
  | sram
  /-- the monitor slots are being verified -/
  | monitor
  /-- the Horef slots are being verified -/
  | horef
  /-- the user-firmware slots are being verified -/
  | user
  /-- the SDRAM is being trained -/
  | sdram
  /-- BOOT waits for its last boundary -/
  | finish
  /-- it stays in BOOT with BOOT_ERR NO_REFCLK or MONITOR -/
  | stuck
  /-- BOOT has ended -/
  | ended
  deriving DecidableEq, Repr

/-- Modes, scan and boot beside their registers (R334 to R350). -/
structure Power where
  /-- the scan in progress (R340); reset none -/
  scan : Option ScanRun := none
  /-- SAFE_ACK has been accepted: SAFE ends at the next boundary (R350); reset false -/
  exitOk : Bool := false
  /-- where BOOT stands (R345); the reset state of the model is the first boundary after BOOT -/
  boot : BootPhase := .ended
  /-- turns spent in BOOT so far (BOOT_TURNS); reset 0 -/
  bootTurns : Nat := 0
  /-- power-on reset is asserted (R343); reset false -/
  porHeld : Bool := false
  deriving DecidableEq, Repr

/-- A DMA channel beside its registers (R353 to R369). -/
structure DmaChan where
  /-- the descriptor in progress, 8 words (R356); reset none -/
  desc : Option (List Word) := none
  /-- data bytes whose writes were issued (BYTES, R362); reset 0 -/
  moved : Nat := 0
  /-- index-table offsets read ahead, from element `idxFrom` on (R360); reset none -/
  idx : List Nat := []
  /-- the element whose offset stands first in `idx` (R360); reset 0 -/
  idxFrom : Nat := 0
  /-- POISON_SEEN (R367); reset false -/
  poisonSeen : Bool := false
  /-- NOT_WRITTEN (R367); reset false -/
  notWritten : Bool := false
  /-- ERR with which the descriptor ends, the failing address and the access, 1 read 2 write (R368); reset none -/
  err : Option (Nat × Nat × Nat) := none
  /-- budgeted resources the descriptor has touched (R361); reset none -/
  touched : List Nat := []
  /-- ABORT came before the descriptor was fetched (R369); reset false -/
  abort : Bool := false
  /-- per resource the ct of the last burst's start and its occupancy (R364); reset none -/
  last : KMap (Nat × Nat) := []
  /-- a burst is ready and waits for its grant (R363); reset false -/
  waiting : Bool := false
  deriving DecidableEq, Repr

/-- The DMA engine (R353 to R369). -/
structure Dma where
  /-- the 16 channels (R353) -/
  ch : List DmaChan := List.replicate 16 {}
  /-- the channel after which the round robin of grants goes on (R363); reset 15 -/
  rr : Nat := 15
  deriving DecidableEq, Repr

/-- The state of a row entry of the SDRAM remap table (R391). -/
inductive RowState where
  | copying
  | copied
  | redirected
  deriving DecidableEq, Repr

/-- Memory protection beside the bytes themselves (R378 to R396). A protected unit is named by the key
family · 2^40 + unit index. -/
structure MemSt where
  /-- units that carry a poison mark, keys rising (R380); reset none -/
  poison : List Nat := []
  /-- SDRAM pages whose page poison bit is set (R380); reset none -/
  pagePoison : List Nat := []
  /-- SDRAM pages whose written bit is set by a fabric write, rising (R383); reset none -/
  written : List Nat := []
  /-- pages of the queue store handed to a writer since the last reset (R224, R383); reset none -/
  handed : List Nat := []
  /-- units that hold an error made by the flip mask, not yet read: 1 correctable, 2 uncorrectable (R393); reset none -/
  faulty : KMap Nat := []
  /-- SRAM remap tables: units of each family in entry order, at most 16 (R390); reset none -/
  remap : KMap (List Nat) := []
  /-- SDRAM remap table: rows in entry order, at most 16 (R391); reset none -/
  rows : List (Nat × RowState) := []
  /-- retired SDRAM pages (R392); reset none -/
  retired : List Nat := []
  /-- position of each scrubber: bytes for SRAM and MRAM, codewords for SDRAM (R388); reset 0 -/
  scrubPos : List Nat := [0, 0, 0]
  /-- turn in which each scrubber's sweep began, counted as clk.bounds counts (R388, SCRUB_LAST); reset 0 -/
  scrubStart : List Nat := [0, 0, 0]
  /-- turn of the SRAM scrubber's last read, counted as clk.bounds counts (R388); reset none -/
  scrubTurn : Option Nat := none
  /-- SWEEP_LATE has been raised for the present SRAM sweep (R389); reset false -/
  late : Bool := false
  /-- pages of queues whose descriptor was lost, until the free list is rebuilt (R385); reset none -/
  leaked : List Nat := []
  /-- FIFO classes waiting for their flush: 0 hit, 1 output, 2 timestamp (R382); reset none -/
  flush : List Nat := []
  /-- word writes of each MRAM sector (R396); reset those last persisted, none as delivered -/
  wear : KMap Nat := []
  /-- the counts last persisted (R396); kept over every reset -/
  wearKept : KMap Nat := []
  deriving DecidableEq, Repr

/-- Where a sequencer entry or an injection stands (R403). -/
inductive MonStage where
  | settle
  | convert
  | delay
  deriving DecidableEq, Repr

/-- A sequencer entry or an injection in progress (R403). -/
structure MonRun where
  /-- its entry, 63 for an injection (R402) -/
  e : Nat
  /-- its words as it began (R404) -/
  w0 : Word
  w1 : Word
  /-- where it stands -/
  stage : MonStage := .settle
  /-- the code of its lead conversion, in 3-wire (R407) -/
  lead : Option Int := none
  /-- results produced (R403) -/
  made : Nat := 0
  /-- ct at which it began, counted from turn 0 (R406) -/
  began : Nat := 0
  deriving DecidableEq, Repr

/-- A calibration step accepted (R410, R411). -/
structure CalStep where
  /-- 0 ZERO, 1 FULL, 2 STORE -/
  step : Nat
  /-- INPUT -/
  input : Nat
  /-- GAIN, the gain code -/
  gain : Nat
  /-- FS_UV, signed -/
  fs : Int
  /-- injections still to run before it (R411) -/
  wait : Nat
  /-- it runs (R411) -/
  running : Bool := false
  /-- the codes of its conversions so far, at most 16 (R410) -/
  codes : List Int := []
  deriving DecidableEq, Repr

/-- The monitor converter and the bias loop beside their registers (R398 to R416). -/
structure Monitor where
  /-- the entry or injection in progress (R403); reset none -/
  run : Option MonRun := none
  /-- the sequencer entry that comes next (R402, R404); reset 0 -/
  next : Nat := 0
  /-- the injection queue, oldest first, at most 4 (R405); reset empty -/
  inj : List (Word × Word) := []
  /-- words of the injection that runs or ran last, shown at entry 63 (R402); reset as an unused entry -/
  slot : Word × Word := (0x700C0000, 0x01000000)
  /-- the calibration step that waits or runs (R411); reset none -/
  cal : Option CalStep := none
  /-- pending offsets by gain code (R410); reset none -/
  pendOff : KMap Int := []
  /-- gain code, OFFSET and GAIN that become active at the next boundary (R410); reset none -/
  calLand : Option (Nat × Int × Nat) := none
  /-- stored sets in MRAM by gain code: OFFSET and GAIN (R410); kept over every reset; none as delivered -/
  stored : KMap (Int × Nat) := []
  /-- per sensor port: ct at which its last excitation began, from turn 0, and τ (R406); reset none -/
  exc : KMap (Nat × Nat) := []
  /-- per sensor port: VALUE of its last good result (R409); reset none -/
  good : KMap Int := []
  /-- turns since REF_EN rose (R399); reset none -/
  refSince : Option Nat := none
  /-- latest usable result of each source of R414, by TSRC code: age in turns and VALUE; reset none -/
  src : KMap (Nat × Int) := []
  /-- what each sensor port produced last in this turn: true for an OPEN result, false for a usable one (R416); reset none -/
  news : KMap Bool := []
  /-- a run of the bias loop under way: group and T_k in 2^-16 °C (R413, R414); reset none -/
  bias : Option (List (Nat × Int)) := none
  /-- groups in open-sensor hold: turns since the hold began, and whether it has expired (R416); reset none -/
  hold : KMap (Nat × Bool) := []
  deriving DecidableEq, Repr

/-- An output test under way (R434). -/
structure GuardTest where
  /-- the output under test: B rather than A (R434) -/
  b : Bool
  /-- the feedback was seen low within 20 µs (R434) -/
  lowOk : Bool := false
  /-- T_OFF has ended and the output has been driven high again (R434) -/
  returned : Bool := false
  /-- the test is voided: its output stays low at the end of T_OFF (R435) -/
  void : Bool := false
  deriving DecidableEq, Repr

/-- The bias guard beside its registers and counters (R422 to R448). A GPB is its 32 words (R438). -/
structure Guard where
  /-- the adopted GPB (R442); reset none (R443) -/
  gpb : Option (List Word) := none
  /-- the pending GPB (R441); reset none -/
  pending : Option (List Word) := none
  /-- a confirmation was accepted: the pending GPB is adopted at the next boundary (R442); reset false -/
  adopt : Bool := false
  /-- the stored block waits to be adopted at the first boundary of STANDBY (R443); reset false -/
  restore : Bool := false
  /-- the block stored in MRAM at its adoption (R442); kept over every reset; none as delivered -/
  stored : Option (List Word) := none
  /-- the adopted block waits for its FW grant to be written to MRAM (R442); reset false -/
  storeDue : Bool := false
  /-- ENABLED has been entered and not left (R423); reset false -/
  entered : Bool := false
  /-- the outputs have been on for longer than HV_SETTLE (R426); reset false -/
  settled : Bool := false
  /-- consecutive over snapshots of each group (R425); reset 0 -/
  slc : List Nat := [0, 0, 0, 0, 0, 0, 0, 0]
  /-- OUT of each channel in the last snapshot (R427); reset the reset code of BTRIM_OUT -/
  prevOut : List Nat := List.replicate 64 0xFFF
  /-- snapshots since each channel's last bias-raising move, for channels that made one (R427); reset none -/
  sinceRaise : KMap Nat := []
  /-- HV_STALE holds for MON_IN_0 and MON_IN_1 (R428, R432); reset false -/
  hvStale : List Bool := [false, false]
  /-- while EQUIV is active, both inputs have been low together (R429); reset false -/
  equivLow : Bool := false
  /-- chain loss has begun and not ended (R430); reset false -/
  chainLost : Bool := false
  /-- the output test under way (R434); reset none -/
  test : Option GuardTest := none
  /-- the guard log, newest first, at most 64 entries of four words (R445); its persisted entries are kept over every reset -/
  log : List (List Word) := []
  deriving DecidableEq, Repr

/-- An update session (R485). -/
structure FwSession where
  /-- KIND: 1 monitor, 2 Horef, 3 user firmware (R485) -/
  kind : Nat
  /-- total bytes, header included (R492) -/
  total : Nat
  /-- SHA-384 of the whole slot content, 12 words (R492) -/
  hash : List Word
  /-- FW_READY has been raised (R485) -/
  ready : Bool := false
  deriving DecidableEq, Repr

/-- Worlds, keys, images and debug beside their registers (R472 to R492). -/
structure Security where
  /-- key records of the owner area by bank, 24 words each (R479); kept over every reset; none as delivered -/
  ownerKeys : KMap (List Word) := []
  /-- OWNER_KEY_HASH fuses by bank, 12 words each (R478); kept; blank as delivered -/
  ownerHash : KMap (List Word) := []
  /-- OWNER_BANK_USED fuses (R478); kept; 0 as delivered -/
  bankUsed : Nat := 0
  /-- thermometer counters ROLLBACK_MON, ROLLBACK_NS, ROLLBACK_USER (R478); kept; 0 as delivered -/
  rollback : List Nat := [0, 0, 0]
  /-- the signed-message counter last accepted (R313); kept; 0 as delivered -/
  counter : Nat := 0
  /-- TRIAL slots A by KIND and their attempt counts (R487); kept; none as delivered -/
  trial : KMap Nat := []
  /-- the slot that runs for KIND 1, 2, 3: 0 A, 1 B (R483); none where no image runs -/
  run : List (Option Nat) := [some 0, some 0, none]
  /-- headers of the running images by KIND, 128 bytes; unlisted: as delivered in its slot (R481, R489) -/
  header : KMap (List Byte) := []
  /-- the update session (R485); reset none -/
  session : Option FwSession := none
  /-- chunks that wait for their FW pips, oldest first: offset from the start of the MRAM, and bytes (R485); reset none -/
  chunks : List (Nat × List Byte) := []
  /-- KIND whose slot A is being copied into slot B (R487); reset none -/
  copying : Option Nat := none
  /-- a reset follows an applied FW_ACTIVATE (R486); reset false -/
  applyDue : Bool := false
  /-- bases of slots that failed in BOOT, 0 for the identity, to be reported at its end (R483, R488); reset none -/
  bootFails : List Nat := []
  /-- the debug port holds the control core (R490); reset false -/
  halted : Bool := false
  /-- levels that EXTEST drives on the pins (R490); reset none -/
  extest : Option Word := none
  deriving DecidableEq, Repr

/-- The Burjor apart from its memory and the waiting commands. -/
structure Dev where
  /-- the turn, the tick and the local clock (R17 to R20, R64) -/
  clk : Clock := {}
  /-- register words by key: plain registers, status, the active copy of SH words, the latched part of TL words (R14, R15); unlisted keys hold the reset word -/
  regs : KMap Word := []
  /-- the shadow copy of SH words by key (R15, R34); unlisted keys hold the reset word -/
  shadow : KMap Word := []
  /-- the live part of TL words by key (R39); unlisted keys hold the reset word -/
  live : KMap Word := []
  /-- commit slots and the dirty set (R25 to R37) -/
  commit : Commit := {}
  /-- budget metering (R41 to R43) -/
  bud : Budget := {}
  /-- event messages and episodes (R318 to R320, R518) -/
  ev : Events := {}
  /-- the fault collector (R450 to R467) -/
  flt : Faults := {}
  /-- messages waiting to leave (R291, R303); reset none -/
  out : List OutMsg := []
  /-- short messages waiting on VL_0 (R292); reset none -/
  outShort : List OutShort := []
  /-- the FIFOs the collector merges, by source index, oldest first (R170); reset empty -/
  fifos : KMap (List Entry) := []
  /-- the words the last read returned (R15, R327; the model's own); reset none -/
  rdata : List Word := []
  /-- how many free values have been drawn (the model's own, for values the spec leaves open); reset 0 -/
  free : Nat := 0
  /-- read latches TURN_HI, ST_HI and MARK_HI by register key (R15, R66, R234); reset 0 -/
  latches : KMap Word := []
  /-- the chip ID, 16 bits (R13); reset 0 (unassigned) -/
  chipId : Nat := 0
  /-- the SAFE cause waiting for the next boundary, coded as SAFE_CAUSE; 0 none (R349); reset 0 -/
  safeReq : Nat := 0
  /-- array time and its relatives (R45 to R68) -/
  time : TimeSt := {}
  /-- the front end (R71 to R92) -/
  afe : Afe := {}
  /-- the TDC units and frequency engines (R95 to R123) -/
  tdc : Tdc := {}
  /-- LOST entry of each hit source waiting to be emitted: earliest lost item's time and count (R169); reset none -/
  lost : KMap (Stamp × Nat) := []
  /-- capture and triggers (R125 to R149) -/
  cap : Capture := {}
  /-- the slice engines (R152 to R167) -/
  se : Slices := {}
  /-- the collector and the frame builder (R170 to R201) -/
  col : Collector := {}
  /-- the cascade unit (R204 to R222) -/
  cas : Cascade := {}
  /-- the turn queues (R223 to R248) -/
  tq : Queues := {}
  /-- link control bodies waiting to leave: port as in outShort, and body (R229); reset none -/
  outCtl : List (Nat × Word64) := []
  /-- ports and lanes (R270 to R297) -/
  lnk : Lnk := {}
  /-- mailboxes, the open set, telemetry records and handlers (R300 to R332) -/
  mbx : Mailboxes := {}
  /-- modes, scan and boot (R334 to R350) -/
  pwr : Power := {}
  /-- the DMA engine (R353 to R369) -/
  dma : Dma := {}
  /-- memory protection, scrubbing, remapping and wear (R378 to R396) -/
  ram : MemSt := {}
  /-- the monitor converter and the bias loop (R398 to R416) -/
  mon : Monitor := {}
  /-- the bias guard (R422 to R448) -/
  grd : Guard := {}
  /-- worlds, keys, images and debug (R472 to R492) -/
  sec : Security := {}
  deriving DecidableEq, Repr

/-- The whole machine: the Burjor, its byte memory (R371) and the commands that wait, first in first out. -/
structure State where
  /-- everything but memory and the queue of commands -/
  dev : Dev := {}
  /-- bytes that differ from what an unlisted address reads as, addresses strictly rising (R371, R383); reset none listed -/
  mem : List Host.Cell := []
  /-- commands waiting, first in first out (the model's own); reset empty -/
  pending : List Instr := []
  deriving DecidableEq, Repr

/-- The Burjor on leaving BOOT (R14): every register at its reset word, the mode STANDBY, AT free and local turns
running (R20). Values the spec leaves to fuses, MRAM, straps or the SDRAM fitted are those of Config. -/
def State.reset : State := {}

/-- Reasons for which the machine stops with a fault. -/
inductive Fault where
  /-- An access to a fabric address outside every region of R371 that nothing answers. No command raises it: every access that the
  spec gives is answered and reported (R372, R375). Safe: no state follows. -/
  | noSuchAddress (addr : Nat)
  deriving DecidableEq, Repr

/-- Reasons for which a command has no meaning here. -/
inductive Refusal where
  /-- A row of the table that has not got its meaning yet; raised by an arm of exec. Safe: no state follows. -/
  | notModelled (mnemonic : String)
  deriving DecidableEq, Repr

end Sys2Proof.Machine
end

