-- ==== Sys2Proof/Machine/Ops.lean ====
section
/-! DEFINITION. The named operations that the meanings share: bit fields, tables, registers and counters, events and
event messages, items, fault reports, budgets, free values and the byte memory. -/

namespace Sys2Proof.Machine

/-! ### Bits and numbers -/

/-- Bits `hi` to `lo` of a number. -/
def nbits (w hi lo : Nat) : Nat := (w >>> lo) % 2 ^ (hi + 1 - lo)

/-- Number of bits set among the low `w`. -/
def popcount (n w : Nat) : Nat := ((List.range w).filter (fun i => nbits n i i == 1)).length

/-- Bits `hi` to `lo` of a register or message word. -/
def bits (w : Word) (hi lo : Nat) : Nat := nbits w.toNat hi lo

/-- Bit `i` of a word. -/
def bit (w : Word) (i : Nat) : Bool := nbits w.toNat i i == 1

/-- A word with bits `hi` to `lo` replaced. -/
def setBits (w : Word) (hi lo v : Nat) : Word :=
  BitVec.ofNat 32 (w.toNat - nbits w.toNat hi lo * 2 ^ lo + v % 2 ^ (hi + 1 - lo) * 2 ^ lo)

/-- A number as a word. -/
def toWord (n : Nat) : Word := BitVec.ofNat 32 n

/-- The two's complement value of the low `n` bits. -/
def signedOf (n v : Nat) : Int := if v % 2 ^ n < 2 ^ (n - 1) then (v % 2 ^ n : Nat) else (v % 2 ^ n : Nat) - (2 ^ n : Nat)

/-- An integer in `n` bits of two's complement. -/
def ofSigned (n : Nat) (i : Int) : Nat := (i % (2 ^ n : Nat)).toNat

/-- A 64-bit word from fields (highest bit, lowest bit, value). -/
def pack64 (fs : List (Nat × Nat × Nat)) : Word64 :=
  BitVec.ofNat 64 (fs.foldl (fun a f => a + f.2.2 % 2 ^ (f.1 + 1 - f.2.1) * 2 ^ f.2.1) 0)

/-- A 32-bit word from fields (highest bit, lowest bit, value). -/
def pack32 (fs : List (Nat × Nat × Nat)) : Word :=
  BitVec.ofNat 32 (fs.foldl (fun a f => a + f.2.2 % 2 ^ (f.1 + 1 - f.2.1) * 2 ^ f.2.1) 0)

/-- 1 or 0. -/
def b2n (b : Bool) : Nat := if b then 1 else 0

/-- The `i`-th payload word, 0 beyond the end. -/
def wordAt (w : List Word) (i : Nat) : Word := w.getD i 0

/-- Round a rational to the nearest integer, ties away from zero upward: floor(n/d + 1/2). -/
def roundDiv (n : Int) (d : Nat) : Int := (2 * n + d) / (2 * d : Nat)

/-- An integer held within bounds. -/
def clampInt (lo hi v : Int) : Int := if v < lo then lo else if hi < v then hi else v

/-- Replace entry `i` of a list by a function of it. -/
def listMod {α : Type} (l : List α) (i : Nat) (f : α → α) : List α := l.modify i f

/-! ### Tables -/

/-- The value of a key. -/
def kfind {α : Type} (m : KMap α) (k : Nat) : Option α :=
  match m with
  | [] => none
  | (k', v) :: r => if k' == k then some v else kfind r k

/-- The value of a key, or a default. -/
def kget {α : Type} (m : KMap α) (k : Nat) (d : α) : α := (kfind m k).getD d

/-- Set a key, keeping the keys rising. -/
def kset {α : Type} (m : KMap α) (k : Nat) (v : α) : KMap α :=
  match m with
  | [] => [(k, v)]
  | (k', v') :: r => if k < k' then (k, v) :: (k', v') :: r else if k' == k then (k, v) :: r else (k', v') :: kset r k v

/-- Remove a key. -/
def kdel {α : Type} (m : KMap α) (k : Nat) : KMap α := m.filter (fun p => p.1 != k)

/-! ### Time (R9, R10, R17) -/

/-- The number of turns (R17). -/
def turnMod : Nat := 2 ^ 48

end Sys2Proof.Machine

namespace Sys2Proof

open Sys2Proof.Machine

/-- A timestamp in fb from turn 0. -/
def Stamp.fbs (t : Stamp) : Nat := t.turn * 2 ^ 25 + t.ct * 2048 + t.fb

/-- The timestamp at a number of fb from turn 0, the turn taken modulo 2^48. -/
def stampOf (n : Nat) : Stamp := { turn := n / 2 ^ 25 % turnMod, ct := n / 2048 % 16384, fb := n % 2048 }

/-- A timestamp moved by a signed number of fb. -/
def Stamp.add (t : Stamp) (d : Int) : Stamp := stampOf ((t.fbs + d) % ((turnMod * 2 ^ 25 : Nat) : Int)).toNat

/-- T40 of a timestamp (R182). -/
def Stamp.t40 (t : Stamp) : Nat := t.turn % 32768 * 2 ^ 25 + t.ct * 2048 + t.fb

/-- Bits 24:11 ct, 10:0 fb (R318). -/
def Stamp.ctFb (t : Stamp) : Nat := t.ct * 2048 + t.fb

/-- Order of two timestamps. -/
def Stamp.lt (a b : Stamp) : Bool := a.fbs < b.fbs

end Sys2Proof

namespace Sys2Proof.Machine

/-- Extension of a T40 turn field against a turn H (R11). -/
def extendTurn (h t15 : Nat) : Nat := (h + turnMod - (h + 32768 - t15 % 32768) % 32768) % turnMod

/-- The time now. -/
def Dev.now (d : Dev) : Stamp := { turn := d.clk.turn, ct := d.clk.ct, fb := 0 }

/-- A turn number some turns on. -/
def turnAdd (t n : Nat) : Nat := (t + n) % turnMod

/-- The periods of the coarse clock so far, in which every delay in ct is counted: a step neither lengthens nor shortens them
(R514). -/
def Dev.nowCt (d : Dev) : Nat := d.clk.ctBase + d.clk.ct

/-- A time in fb on the present numbering: a time that lies before the latest step moves with it (R57, R514). A time is of the
present numbering when its turn is one of those since the STEPPED turn and it is not more than 4 096 ct ahead of now (DESIGN
CHOICE, log entry 37). -/
def Dev.present (d : Dev) (t : Int) : Int :=
  match d.clk.stepTurn with
  | none => t
  | some s =>
    let fine : Int := if d.clk.turn == s then 0 else d.clk.stepF
    if (s : Int) ≤ t / (2 ^ 25 : Nat) && t ≤ ((d.clk.turn * 16384 + d.clk.ct + 4096) * 2048 : Nat) then
      (if t / (2 ^ 25 : Nat) == (s : Int) then t + fine else t)
    else t + d.clk.stepW * (2 ^ 25 : Nat) + fine

/-- A time on the scale of the coarse clock, which counts its periods whatever a step does to the numbers, in fb (R514). -/
def Dev.clockFb (d : Dev) (t : Int) : Int := d.present t + ((d.nowCt * 2048 : Nat) : Int) - ((d.clk.turn * 16384 + d.clk.ct) * 2048 : Nat)

/-- The period of the coarse clock in which a time lies (R514). -/
def Dev.periodOf (d : Dev) (t : Int) : Int := d.clockFb t / 2048

/-- The turn, on the present numbering, of a time in turn `t`: one of the turns since the latest change of the numbering, or a turn
before it, which moves with the change (R57; DESIGN CHOICE, log entry 37). -/
def Dev.presentTurn (d : Dev) (t : Nat) : Nat :=
  match d.clk.stepTurn with
  | none => t
  | some s => if s ≤ t && t ≤ d.clk.turn then t else ((t : Int) + d.clk.stepW).toNat

/-- The first fb of the present turn that does not occur: the end of the turn, F early in a shortened STEPPED turn and F late in a
stretched one (R57, R58). -/
def Clock.endFb (c : Clock) : Nat := if c.stepped then (2 ^ 25 - c.stepF).toNat else 2 ^ 25

/-- The last ct that occurs in the present turn (R58). In the stretched interval the clock counts on beyond 16 383. -/
def Clock.lastCt (c : Clock) : Nat := (c.endFb - 1) / 2048

/-- The stretched interval of a STEPPED turn runs (R58). -/
def Dev.stretched (d : Dev) : Bool := 16384 ≤ d.clk.ct

/-- REFCLK cycles since power-on reset: those of the turns that have ended, and one in 4 ct of the present turn (R18, R64). -/
def Clock.cycles (c : Clock) : Nat := c.refCycles + c.ct / 4

/-- The turn and tick are set anew while LT runs on (R64). -/
def Clock.moveTo (turn ct : Nat) (c : Clock) : Clock := { c with
  turn := turn, ct := ct, refCycles := c.cycles - ct / 4, ctBase := c.ctBase + c.ct - ct, stepTurn := none }

/-- LT: nanoseconds from REFCLK, 6.25 ns a cycle, not yet cut to 32 bits (R64). -/
def Dev.lt64 (d : Dev) : Nat := d.clk.cycles * 25 / 4

/-- LT (R64). -/
def Dev.lt (d : Dev) : Word := toWord d.lt64

/-! ### Registers (R14, R15) -/

/-- Does a register row hold offset `o`? The two indexes. -/
def RegRow.hit (r : RegRow) (o : Nat) : Option (Nat × Nat) :=
  if o < r.off then none
  else
    let x := o - r.off
    if r.n0 == 0 then (if x == 0 then some (0, 0) else none)
    else
      let i := x / r.s0
      let y := x % r.s0
      if r.n0 ≤ i then none
      else if r.n1 == 0 then (if y == 0 then some (i, 0) else none)
      else if y % r.s1 == 0 && y / r.s1 < r.n1 then some (i, y / r.s1) else none

/-- The first row of a list that holds an offset. -/
def findIn (rows : List RegRow) (o : Nat) : Option RegRow :=
  match rows with
  | [] => none
  | r :: rest => if (r.hit o).isSome then some r else findIn rest o

/-- Default pips of R16, by resource and activity. -/
def defaultPips (r a : Nat) : Nat :=
  (([[8, 32, 4, 16, 64, 32, 16], [1, 0, 2, 8, 64, 256, 0], [4, 2, 1, 1, 0, 0, 32]] : List (List Nat)).getD r []).getD a 0

/-- One row of the kinds of R453: kind, class (8 none), N, normal mask, severe mask, forced mask. Mask bits: 4 SAFE,
3 ISOLATE, 2 SELFTEST, 1 ALERT, 0 LOG. -/
def faultKinds : List (Nat × Nat × Nat × Nat × Nat × Nat) := [
  (0x01, 0, 4, 5, 7, 4), (0x02, 0, 4, 5, 7, 4), (0x03, 0, 2, 5, 7, 4), (0x04, 0, 1, 3, 3, 0),
  (0x05, 1, 16, 1, 3, 0), (0x06, 1, 16, 1, 3, 0), (0x07, 2, 4, 1, 3, 0), (0x08, 2, 2, 5, 7, 0),
  (0x09, 2, 1, 3, 3, 0), (0x0A, 3, 4, 5, 7, 4), (0x0B, 4, 2, 5, 7, 0), (0x0C, 4, 8, 1, 3, 0),
  (0x0D, 4, 4, 1, 3, 0), (0x0E, 5, 1, 7, 7, 0), (0x0F, 5, 8, 1, 7, 0), (0x10, 6, 1, 7, 7, 7),
  (0x11, 6, 1, 7, 7, 7), (0x12, 6, 1, 7, 7, 7), (0x13, 7, 1, 3, 3, 3), (0x14, 7, 4, 3, 3, 1),
  (0x15, 7, 1, 3, 3, 3), (0x16, 7, 1, 3, 3, 1), (0x20, 8, 255, 1, 1, 0), (0x21, 8, 255, 1, 1, 0)]

/-- The row of R453 of a kind. -/
def faultKind (k : Nat) : Option (Nat × Nat × Nat × Nat × Nat) := (faultKinds.find? (fun r => r.1 == k)).map (·.2)

/-- Bits of a register of a row to which writes are ignored although the row's others take them: REACT of a kind that is not produced,
and MAX_RATE and WIDTH of a timing port (PORT_CFG). -/
def ignoredBits (k : Nat) : Nat :=
  if 0x100100 ≤ k && k < 0x100200 && (faultKind ((k - 0x100100) / 4)).isNone then 0xFFFFFFFF
  else if k == 0x0A01A0 || k == 0x0A01B0 then 0xF8000000 else 0

/-- The register row of a key; none for a reserved offset. -/
def regRow (k : Nat) : Option RegRow :=
  (findIn (blockRows (k / 65536)) (k % 65536)).map (fun r =>
    { r with rw := r.rw - (r.rw &&& ignoredBits k), sh := r.sh - (r.sh &&& ignoredBits k) })

/-- Index (first) of a key within its row. -/
def regIdx (k : Nat) : Nat × Nat :=
  match regRow k with
  | some r => (r.hit (k % 65536)).getD (0, 0)
  | none => (0, 0)

/-- Reset word of REACT for a kind (R453). -/
def reactReset (k : Nat) : Word :=
  match faultKind k with
  | some (_, n, nm, sv, fc) => pack32 [(28, 24, fc), (20, 16, sv), (12, 8, nm), (7, 0, n)]
  | none => 0

/-- The pages of 4 KiB that BOOT gives the turn queues for a store of `gib` GiB (R224). -/
def areaPages (gib : Nat) : Nat := gib * 262144 - 8192

/-- TQ_AREA_PAGES on leaving BOOT (R224). -/
def areaPagesReset : Nat := areaPages (bits Config.features 27 22)

/-- Reset words the register tables give by a formula, a fuse, a strap or what BOOT finds (see the assumption log). -/
def specialReset (k : Nat) : Option Word :=
  let b := k / 65536
  let o := k % 65536
  if b == 0 then
    (if 0x100 ≤ o && o < 0x160 then some (toWord (defaultPips ((o - 0x100) / 0x20) (o % 0x20 / 4))) else none)
  else if b == 8 then
    (if o == 0x0010 then some (toWord areaPagesReset) else if o == 0xA0 then some (toWord areaPagesReset) else none)
  else if b == 10 then
    (if 0x100 ≤ o && o < 0x1C0 && o % 16 == 0 then
      let p := (o - 0x100) / 16
      let m := if 10 ≤ p then 3 else 2
      let w := if p < 2 then bits Config.features 21 19 else 1
      some (pack32 [(31, 30, m), (29, 27, w), (26, 26, 1), (24, 20, 0xC), (19, 16, 8), (15, 8, 0x14), (7, 4, 4), (3, 0, 8)])
    else none)
  else if b == 12 then
    (if 0x1000 ≤ o && o < 0x1400 && o % 0x40 == 8 then some 0x01000009 else none)
  else if b == 13 then
    (if o == 0 then some 0x80000000
    else if (0x40 ≤ o && o < 0x50) || (0x8040 ≤ o && o < 0x8050) then some (toWord ([2, 3, 4, 16].getD (o % 16 / 4) 0))
    else none)
  else if b == 14 then
    (if 0xC00 ≤ o && o < 0x1000 && o % 0x80 == 0 then some (toWord ((o - 0xC00) / 0x80))
    else if 0x80 ≤ o && o < 0xC0 && o % 8 == 4 then some 0x00400000 else none)
  else if b == 16 then
    (if 0x100 ≤ o && o < 0x200 then some (reactReset ((o - 0x100) / 4)) else none)
  else if b == 18 then
    (if o == 0 then some Config.features else if o == 8 then some 1 else none)
  else none

/-- The reset word of a register (R14), for the SH words of both copies. -/
def resetWord (k : Nat) : Word :=
  match specialReset k with
  | some w => w
  | none => (match regRow k with
    | some r => toWord r.rst
    | none => 0)

/-- The word of a register: the active copy of an SH word, the latched part of a TL word. -/
def Dev.reg (d : Dev) (k : Nat) : Word :=
  match kfind d.regs k with
  | some w => w
  | none => resetWord k

/-- The shadow copy of an SH word. -/
def Dev.shadowReg (d : Dev) (k : Nat) : Word :=
  match kfind d.shadow k with
  | some w => w
  | none => resetWord k

/-- The live part of a TL word (R39). -/
def Dev.liveReg (d : Dev) (k : Nat) : Word :=
  match kfind d.live k with
  | some w => w
  | none => resetWord k

def Dev.setReg (d : Dev) (k : Nat) (w : Word) : Dev := { d with regs := kset d.regs k w }
def Dev.setShadow (d : Dev) (k : Nat) (w : Word) : Dev := { d with shadow := kset d.shadow k w }
def Dev.setLive (d : Dev) (k : Nat) (w : Word) : Dev := { d with live := kset d.live k w }

/-- A field of a register (its active copy). -/
def Dev.get (d : Dev) (f : FRef) : Nat := bits (d.reg f.key) f.hi f.lo
/-- A one-bit field as a Bool. -/
def Dev.is (d : Dev) (f : FRef) : Bool := d.get f == 1
/-- A signed field. -/
def Dev.geti (d : Dev) (f : FRef) : Int := signedOf (f.hi + 1 - f.lo) (d.get f)
/-- A field of the shadow copy. -/
def Dev.sget (d : Dev) (f : FRef) : Nat := bits (d.shadowReg f.key) f.hi f.lo
/-- A field of the live part. -/
def Dev.lget (d : Dev) (f : FRef) : Nat := bits (d.liveReg f.key) f.hi f.lo
/-- Write a field (status, latched part or active copy). -/
def Dev.put (d : Dev) (f : FRef) (v : Nat) : Dev := d.setReg f.key (setBits (d.reg f.key) f.hi f.lo v)
def Dev.puti (d : Dev) (f : FRef) (v : Int) : Dev := d.put f (ofSigned (f.hi + 1 - f.lo) v)
/-- Write a field of the live part of a TL word. -/
def Dev.lput (d : Dev) (f : FRef) (v : Nat) : Dev := d.setLive f.key (setBits (d.liveReg f.key) f.hi f.lo v)

/-- A field in another register table, such as the configuration of an earlier turn (R23). -/
def getIn (m : KMap Word) (f : FRef) : Nat :=
  bits (match kfind m f.key with
    | some w => w
    | none => resetWord f.key) f.hi f.lo

/-- The register table whose configuration governs a time in turn `t` (R23): the active copy, or the copy that a later
boundary replaced. The kept copies bear turns on the present numbering (R57). -/
def Dev.cfgAt (d : Dev) (t : Nat) : KMap Word :=
  match d.commit.prev.find? (fun p => d.presentTurn t < p.1) with
  | some p => p.2
  | none => d.regs

/-- A configuration field as it stood for data of turn `t` (R23). -/
def Dev.getAt (d : Dev) (t : Nat) (f : FRef) : Nat := getIn (d.cfgAt t) f
def Dev.isAt (d : Dev) (t : Nat) (f : FRef) : Bool := d.getAt t f == 1

/-! ### Free values -/

/-- Draw a free value: a number of which nothing is known but that it is at most `b`. -/
def drawFree (b : Nat) (d : Dev) : Nat × Dev := ((Config.freeWord d.free).toNat % (b + 1), { d with free := d.free + 1 })

/-- An integer of which nothing is known but that it lies from lo to hi. -/
def freeBetween (lo hi : Int) (d : Dev) : Int × Dev :=
  if hi ≤ lo then (lo, d)
  else
    let (x, d) := drawFree (hi - lo).toNat d
    (lo + x, d)

/-- Integer square root, rounded down: the largest r < 2^bits with r² ≤ n, found bit by bit. -/
def isqrtF : Nat → Nat → Nat → Nat
  | 0, _, r => r
  | b + 1, n, r => if (r + 2 ^ b) * (r + 2 ^ b) ≤ n then isqrtF b n (r + 2 ^ b) else isqrtF b n r

/-- Integer square root of a number below 2^192, rounded down. -/
def isqrt (n : Nat) : Nat := isqrtF 96 n 0

/-- A quotient whose rounding the spec leaves open: the floor, or one more by a free choice where it is not exact. -/
def roundFree (n : Int) (den : Nat) (d : Dev) : Int × Dev :=
  if n % (den : Int) == 0 then (n / (den : Int), d)
  else
    let (x, d) := drawFree 1 d
    (n / (den : Int) + x, d)

/-- floor(log2 n), 0 for n = 0. -/
def flog2 (n : Nat) : Nat := ((List.range 96).filter (fun i => 2 ^ i ≤ n)).length - 1

/-! ### Background work under a budget (R42) -/

/-- A background activity's record; one never touched has its reset state. -/
def Dev.budAct (d : Dev) (r a : Nat) : BudAct := kget d.bud.acts (8 * r + a) { allow := 16 * defaultPips r a }

def Dev.setBudAct (d : Dev) (r a : Nat) (b : BudAct) : Dev := { d with bud := { d.bud with acts := kset d.bud.acts (8 * r + a) b } }

/-- Work of activity `a` that draws n pips of 16 ct of resource `r`: done when they have been granted, else requested (R42). -/
def withPips (r a n : Nat) (f : Dev → Dev) (d : Dev) : Dev :=
  let b := d.budAct r a
  if 16 * n ≤ b.got then f (d.setBudAct r a { b with got := b.got - 16 * n })
  else d.setBudAct r a { b with want := max b.want (16 * n - b.got) }

/-- As `withPips`, for work that changes memory too. -/
def withPipsS (r a n : Nat) (f : State → State) (s : State) : State :=
  let b := s.dev.budAct r a
  if 16 * n ≤ b.got then f { s with dev := s.dev.setBudAct r a { b with got := b.got - 16 * n } }
  else { s with dev := s.dev.setBudAct r a { b with want := max b.want (16 * n - b.got) } }

/-! ### Operating mode (R200, R334) -/

/-- The twelve operating modes (R334), coded as in R200. -/
inductive Mode where
  | boot | standby | calibrate | stream | capture | hybrid | frequency | scan | hold | dormant | safe | test
  deriving DecidableEq, Repr

/-- The mode of a code of R200. -/
def modeOfCode : Nat → Mode
  | 0 => .boot | 1 => .standby | 2 => .calibrate | 3 => .stream | 4 => .capture | 5 => .hybrid | 6 => .frequency
  | 7 => .scan | 8 => .hold | 9 => .dormant | 10 => .safe | _ => .test

/-- The mode in force (PWR_STATUS.MODE). -/
def Dev.mode (d : Dev) : Mode := modeOfCode (d.get F.PWR_STATUS_MODE)

/-- The value that a running scan of PARAM puts in place of channel n's setting (R340). -/
def Dev.scanOf (d : Dev) (param n : Nat) : Option Nat :=
  match d.pwr.scan with
  | some r => if d.get F.PWR_SCAN_CFG_PARAM == param && bit (d.reg (if n < 32 then R.PWR_SCAN_MASK_LO else R.PWR_SCAN_MASK_HI)) (n % 32) then some r.v else none
  | none => none

/-- TURN_VALID (R20). -/
def Dev.turnValid (d : Dev) : Bool := d.is F.TRN_STATUS_TURN_VALID

/-- The role CONCENTRATOR is in force (R204). -/
def Dev.isConc (d : Dev) : Bool := d.is F.CAS_CFG_ROLE

/-- The active upstream port by the TQ state: the port in state ACTIVE, UA when both are (R242); none without one. -/
def Dev.upActive (d : Dev) : Option Nat :=
  if d.get F.TQ_STATUS_UA_STATE == 1 then some 0 else if d.get F.TQ_STATUS_UB_STATE == 1 then some 1 else none

/-! ### Counters, events and event messages (R38 to R40, R318 to R320, R518) -/

/-- The largest value of a 31-bit count field (R38). -/
def countMax : Nat := 2 ^ 31 - 1

/-- A live counter moved on by n: it stops at all-ones and sets SAT (R38). -/
def countWord (w : Word) (n : Nat) : Word :=
  if bit w 31 then w else if countMax ≤ w.toNat + n then 0xFFFFFFFF else toWord (w.toNat + n)

/-- Words two to a 64-bit word, the earlier in bits 63:32, the last half 0 for an odd count (R307, R330). -/
def pairWords : List Word → List Word64
  | [] => []
  | [a] => [BitVec.ofNat 64 (a.toNat * 2 ^ 32)]
  | a :: b :: r => BitVec.ofNat 64 (a.toNat * 2 ^ 32 + b.toNat) :: pairWords r

/-! ### Protected units and the flip mask (R378, R393) -/

/-- How many of the low `w` bits of a number are 1. -/
def ones (w n : Nat) : Nat := ((List.range w).filter (fun i => nbits n i i == 1)).length

/-- FLIP_ADDR. -/
def Dev.flipAddr (d : Dev) : Nat := bits (d.reg R.MEM_FLIP_ADDR_HI) 7 0 * 2 ^ 32 + (d.reg R.MEM_FLIP_ADDR_LO).toNat

/-- FLIP_DATA as one number. -/
def Dev.flipData (d : Dev) : Nat := (List.range 4).foldl (fun a i => a + (d.reg (R.MEM_FLIP_DATA i)).toNat * 2 ^ (32 * i)) 0

/-- Is the flip mask armed for a unit of a family, `len` bytes from an address (R393)? -/
def Dev.flipArmed (d : Dev) (fam addr len : Nat) : Bool :=
  d.is F.MEM_FLIP_CTRL_ARM && d.get F.MEM_FLIP_CTRL_FAMILY == fam &&
    (fam == 7 || !d.is F.MEM_FLIP_CTRL_ADDR_MATCH || (addr ≤ d.flipAddr && d.flipAddr < addr + len))

/-- What a flip of a data and a check mask leaves in a unit: 0 an error its code cannot see, 1 a correctable error,
2 an uncorrectable one; and the data bits that the unit then holds flipped (R378, R379, R393). What SECDED or the SDRAM code
makes of more errors than it detects is a free choice. -/
def flipOutcome (fam : Nat) (parity : Bool) (dm cm : Nat) (d : Dev) : (Nat × Nat) × Dev :=
  let wide (n : Nat) (mask : Nat) : (Nat × Nat) × Dev :=
    if n == 0 then ((0, mask), d)
    else if n == 1 then ((1, 0), d)
    else if n == 2 then ((2, mask), d)
    else
      let (x, d) := drawFree 1 d
      if x == 0 then ((2, mask), d)
      else
        let (b, d) := drawFree 71 d
        ((1, if b < 64 then mask ^^^ 2 ^ b else mask), d)
  if fam ≤ 4 then
    let len := if fam == 2 then 12 else 1
    let m := dm % 2 ^ (8 * len)
    (((if (List.range len).any (fun i => (ones 8 (m >>> (8 * i)) + nbits cm i i) % 2 == 1) then 2 else 0), m), d)
  else if fam == 7 && parity then
    (((if (ones 64 dm + nbits cm 0 0) % 2 == 1 then 2 else 0), dm % 2 ^ 64), d)
  else if fam == 8 then
    let sym (k : Nat) : Bool := nbits dm (4 * k + 3) (4 * k) != 0 || nbits dm (64 + 4 * k + 3) (64 + 4 * k) != 0
    wide (((List.range 16).filter sym).length + b2n (cm % 256 != 0) + b2n (nbits cm 15 8 != 0)) dm
  else wide (ones 64 dm + ones 8 cm) (dm % 2 ^ 64)

/-- A write to a unit takes the flip, where the mask is armed for it: its outcome, and ARM clears (R393). -/
def flipTake (fam : Nat) (parity : Bool) (addr len : Nat) (d : Dev) : Option (Nat × Nat) × Dev :=
  if d.flipArmed fam addr len then
    let (o, d) := flipOutcome fam parity d.flipData (bits (d.reg R.MEM_FLIP_CHECK) 15 0) (d.put F.MEM_FLIP_CTRL_ARM 0)
    (some o, d)
  else (none, d)

/-- Append an entry to the FIFO of source `s` (R170). The first word of an item written to a hit or an output FIFO takes an
armed flip of family 7 (R393). -/
def emitTo (s : Nat) (e : Entry) (d : Dev) : Dev :=
  let push (e : Entry) (d : Dev) : Dev := { d with fifos := kset d.fifos s (kget d.fifos s [] ++ [e]) }
  if 129 ≤ s then push e d
  else
    match flipTake 7 (if s % 2 == 0 then d.is F.MEM_FIFO_PROT_HIT else d.is F.MEM_FIFO_PROT_OUT) 0 8 d with
    | (none, d) => push e d
    | (some (cls, m), d) =>
      push { e with
        err := if cls == 2 then 3 else cls
        words := match e.words with
          | w :: r => (w ^^^ BitVec.ofNat 64 m) :: r
          | [] => [] } d

/-- Header words of a message (R304). -/
def header (id seq len chip flags mbx status : Nat) : List Word :=
  [pack32 [(31, 16, id), (15, 8, seq), (7, 0, len)], pack32 [(31, 16, chip), (15, 11, flags), (10, 8, mbx), (7, 0, status)]]

/-- Send one event message (R318, R319): to the active upstream port, the I²C event queue, the event log and the frame
being built. A full I²C queue drops its oldest entry, counted in EVT_LOST by the caller. -/
def sendEvent (e count : Nat) (first : Stamp) (lt : Word) (detail : List Word) (d : Dev) : Dev :=
  let w : List Word := [pack32 [(31, 27, e / 32), (26, 22, e % 32), (15, 0, count)], d.ev.seq, toWord (first.turn % 2 ^ 32),
    pack32 [(31, 16, first.turn / 2 ^ 32)], pack32 [(24, 0, first.ctFb)], lt]
  let p := w ++ detail
  let msg := header 1 (d.ev.seq.toNat % 256) p.length d.chipId 8 0 0 ++ p
  let pay := pairWords p
  let item : Entry := { t := first, src := 133, words := pack64 [(63, 60, 0xE), (57, 54, pay.length), (53, 49, e / 32), (48, 44, e % 32),
    (39, 0, first.t40)] :: pay }
  let ev := d.ev
  emitTo 133 item { d with
    out := d.out ++ [{ dst := .active, words := msg }]
    ev := { ev with
      seq := ev.seq + 1
      i2c := (if ev.i2c.length < 64 then ev.i2c else ev.i2c.drop 1) ++ [msg]
      log := (if ev.log.length < 256 then ev.log else ev.log.drop 1) ++ [w] } }

/-- The *_EVENT register that holds the bit of event e (R318). -/
def eventKey (e : Nat) : Nat := e / 32 * 65536 + eventOff (e / 32)

/-- Count one message on a counter; `sat` is what its COUNTER_SAT does, with the counter's offset (R38). -/
def tallyWith (sat : List Word → Dev → Dev) (k : Nat) (d : Dev) : Dev :=
  let c := d.liveReg k
  let d := d.setLive k (countWord c 1)
  if bit (countWord c 1) 31 && !bit c 31 then sat [toWord (k % 65536)] d else d

/-- Raise an event bit (R318, R319): set it in its *_EVENT register; where it is enabled, send a message at once or
count it in the running 256-turn interval. `fuel` bounds the COUNTER_SAT that EVT_LOST itself may raise. -/
def raiseF (fuel : Nat) (e : Nat) (detail : List Word) (d : Dev) : Dev :=
  let b := e / 32
  let key := b * 65536 + eventOff b
  let d := d.setReg key (setBits (d.reg key) (e % 32) (e % 32) 1)
  if !bit (d.reg (key + 4)) (e % 32) then d
  else if d.ev.open_.any (fun i => i.evt == e) then
    { d with ev := { d.ev with open_ := d.ev.open_.map (fun i =>
        if i.evt == e then
          { i with
            count := min (i.count + 1) 65535
            first := if i.count == 0 then d.now else i.first
            firstLt := if i.count == 0 then d.lt else i.firstLt
            detail := if i.count == 0 then detail else i.detail }
        else i) } }
  else
    let lost := 64 ≤ d.ev.i2c.length
    let d := sendEvent e 1 d.now d.lt detail d
    let d := { d with ev := { d.ev with open_ := d.ev.open_ ++ [({ evt := e, count := 0, first := d.now, firstLt := 0, detail := [] } : EvtInterval)] } }
    match fuel with
    | 0 => d.setLive (R.MBX_COUNT 4) (countWord (d.liveReg (R.MBX_COUNT 4)) 1)
    | f + 1 =>
      let d := tallyWith (raiseF f E.MBX_COUNTER_SAT) (R.MBX_COUNT 4) d
      if lost then tallyWith (raiseF f E.MBX_COUNTER_SAT) (R.MBX_COUNT 5) (raiseF f E.MBX_EVT_LOST [] d) else d

/-- Raise an event bit with its DETAIL words (R318 to R320). -/
def raise (e : Nat) (detail : List Word) (d : Dev) : Dev := raiseF 2 e detail d

/-- Raise an event that is raised once per episode, and mark its condition as seen in this turn (R518). -/
def raiseOnce (e : Nat) (detail : List Word) (d : Dev) : Dev :=
  let running := (kfind d.ev.epi e).isSome
  let d := { d with ev := { d.ev with epi := kset d.ev.epi e true } }
  if running then d else raise e detail d

/-- Close at a boundary the episodes whose condition did not occur in the turn that ends (R518); that of QUEUE_OVF ends with an
empty queue instead (R455). -/
def closeEpisodes (d : Dev) : Dev :=
  { d with ev := { d.ev with epi := (d.ev.epi.filter (fun p => p.2 || p.1 == E.FLT_QUEUE_OVF)).map (fun p => (p.1, false)) } }

/-- Count n on the saturating counter at a register key; the first stop at all-ones raises COUNTER_SAT with the
counter's offset (R38, R320). -/
def count (k n : Nat) (d : Dev) : Dev :=
  let w := d.liveReg k
  let w' := countWord w n
  let d := d.setLive k w'
  if bit w' 31 && !bit w 31 then raise (k / 65536 * 32 + satBit (k / 65536)) [toWord (k % 65536)] d else d

/-- Count one. -/
def count1 (k : Nat) (d : Dev) : Dev := count k 1 d

/-- Character errors count on their lane (R271); a K-code in a wrong place is one that neither counter names (R272). -/
def countCharErr (l : Nat) (e : CharErr) (d : Dev) : Dev :=
  let d := if e.code == 0 then d else count (R.LNK_LANE_COUNT l 0) e.code d
  if e.disp == 0 then d else count (R.LNK_LANE_COUNT l 1) e.disp d

/-! ### Pins and SAFE requests -/

/-- A SAFE cause (R349, PWR_STATUS.SAFE_CAUSE) asks for SAFE at the next boundary; several causes may wait together. Codes are the bits of SAFE_CAUSE: 8 HOST, 4 FAULT, 2 GUARD_TRIP, 1 GUARD_DEGRADED. -/
def requestSafe (cause : Nat) (d : Dev) : Dev :=
  { d with safeReq := d.safeReq ||| cause }

/-! ### Fault reports (R450 to R466) -/

/-- The 64-bit fault message (R450). -/
def faultMsg (source kind access master addr : Nat) : Word64 :=
  pack64 [(63, 54, source), (53, 48, kind), (47, 45, access), (44, 40, master), (39, 0, addr)]

/-- Ask for a targeted self-test of an element (R462): merged when it is queued, under test or isolated; dropped when
the queue of 16 is full. -/
def requestTest (t : TestReq) (d : Dev) : Dev :=
  let f := d.flt
  if f.tests.any (fun x => x.elem == t.elem) || f.isolated.contains t.elem ||
      (match f.running with
        | some r => r.1.elem == t.elem
        | none => false) then d
  else if 16 ≤ f.tests.length then raise E.FLT_TEST_DROP [] (count1 (R.FLT_COUNT 6) d)
  else { d with flt := { f with tests := f.tests ++ [t] } }

/-- First-error capture of a class (R457): the first message is held with its time; later ones count. -/
def captureFirst (c : Nat) (m : Word64) (d : Dev) : Dev :=
  if d.is (F.FLT_FE_w2_VALID c) then
    let k := R.FLT_FE c 6
    let w := d.reg k
    let d := d.setReg k (countWord w 1)
    if bit (countWord w 1) 31 && !bit w 31 then raise E.FLT_COUNTER_SAT [toWord (k % 65536)] d else d
  else
    let t := d.now
    ((((d.setReg (R.FLT_FE c 0) (toWord (m.toNat / 2 ^ 32))).setReg (R.FLT_FE c 1) (toWord m.toNat)).setReg (R.FLT_FE c 2)
      (pack32 [(31, 31, 1), (15, 0, t.turn / 2 ^ 32)])).setReg (R.FLT_FE c 3) (toWord t.turn)).setReg (R.FLT_FE c 4)
      (toWord t.ctFb) |>.setReg (R.FLT_FE c 5) d.lt

/-- Put a message into the collector queue (R455). -/
def queueFault (m : Word64) (d : Dev) : Dev :=
  if d.flt.q.length < 256 then
    -- an episode of QUEUE_OVF has ended once the queue was empty
    let d := if d.flt.q.isEmpty then { d with ev := { d.ev with epi := kdel d.ev.epi E.FLT_QUEUE_OVF } } else d
    { d with flt := { d.flt with q := d.flt.q ++ [(m, toWord d.clk.turn)] } }
  else
    let d := (count1 (R.FLT_COUNT 1) d).put F.FLT_STATUS_OVF 1
    let running := (kfind d.ev.epi E.FLT_QUEUE_OVF).isSome
    let d := { d with ev := { d.ev with epi := kset d.ev.epi E.FLT_QUEUE_OVF true } }
    if running then d else raise E.FLT_QUEUE_OVF [] d

/-- Is a lane bonded on this variant (R12)? -/
def laneBonded (l : Nat) : Bool :=
  if l < 8 then l % 4 < bits Config.features 21 19 else if l < 16 then l - 8 < bits Config.features 18 15 else l < 18

/-- Is the unit of a fault source present on this variant (R2, R12)? An absent one never reports. -/
def sourcePresent (source : Nat) : Bool :=
  if 0x100 ≤ source && source < 0x112 then laneBonded (source - 0x100)
  else if source == 0x141 then bit Config.features 2
  else if source == 0x160 then bit Config.features 3
  else true

/-- A fault report reaches the collector, if its unit is present (R2): it is counted, judged for severity and given its reaction (R450 to R460).
`elem` is the element that T tests, none for a kind without one; `onIsolate` carries out an I reaction. -/
def reportWith (onIsolate : Elem → Dev → Dev) (source kind access master addr : Nat) (elem : Option Elem) (d : Dev) : Dev :=
  match if sourcePresent source then faultKind kind else none with
  | none => d
  | some (cls, _, _, _, _) =>
    let d := count1 (R.FLT_COUNT 0) d
    let c := min (d.get (F.FLT_SRC_COUNT_COUNT source) + 1) 255
    let d := d.put (F.FLT_SRC_COUNT_COUNT source) c
    let severe := d.get (F.FLT_REACT_N kind) ≤ c
    let first := severe && !d.is (F.FLT_SRC_COUNT_SEVERE source)
    let d := if severe then d.put (F.FLT_SRC_COUNT_SEVERE source) 1 else d
    let d := if first then raise E.FLT_SEVERE [] d else d
    let mask := (if severe then d.get (F.FLT_REACT_SEVERE kind) else d.get (F.FLT_REACT_NORMAL kind)) ||| d.get (F.FLT_REACT_FORCED kind)
    if mask == 0 then d
    else
      let m := faultMsg source kind access master addr
      let d := queueFault m d
      let d := if cls < 8 then captureFirst cls m d else d
      let d := if nbits mask 1 1 == 1 then raise E.FLT_ALERT [] (d.put F.FLT_STATUS_ALERT 1) else d
      let iso := nbits mask 3 3 == 1
      let d := match elem with
        | none => d
        | some el =>
          if iso then onIsolate el { d with flt := { d.flt with tests := d.flt.tests.filter (fun t => !(t.elem == el)) } }
          else if nbits mask 2 2 == 1 then requestTest { elem := el, source := source, kind := kind, addr := addr } d else d
      if nbits mask 4 4 == 1 then
        let h := elem.getD (.source source)
        let began := d.flt.holds.isEmpty
        let d := { d with flt := { d.flt with holds := if d.flt.holds.contains h then d.flt.holds else d.flt.holds ++ [h] } }
        let d := if began then raise E.FLT_SAFE_HOLD [] d else d
        requestSafe 4 d
      else d

/-- Mark an element isolated until the next reset (R465); what follows for its unit is done where the unit reads it. -/
def markIsolated (el : Elem) (d : Dev) : Dev :=
  { d with flt := { d.flt with isolated := if d.flt.isolated.contains el then d.flt.isolated else d.flt.isolated ++ [el] } }

/-- Bytes of a protected unit of a family (R378). -/
def unitLen (fam : Nat) : Nat := if fam == 2 then 12 else if fam < 5 then 1 else if fam == 8 then 16 else 8

/-- Fabric address of a protected unit; its index where the family has none (R371, R373, R454). -/
def unitAddr (fam u : Nat) : Nat :=
  if fam == 0 then 0x01000000 + u else if fam == 1 then 0x02000000 + u
  else if fam == 2 then 0x20000000 + 12 * u
  else if fam == 5 then 0x31000000 + 8 * u else if fam == 6 then 0x32000000 + 8 * u
  else if fam == 8 then 0x100000000 + 16 * u else if fam == 9 then 0x40000000 + 8 * u else u

/-- Fault source of a unit of a family (R378). -/
def famSource (fam u : Nat) : Nat :=
  if fam == 2 then u / 4096 * 4 + 3
  else if fam == 4 then (if u < 51200 then u / 800 * 4 + 1 else 0x180)
  else if fam == 5 then 0x140 else if fam == 6 then 0x142 else if fam == 7 then 0x180 else if fam == 8 then 0x141
  else if fam == 9 then 0x171 else 0x170

/-- A LASTING unit finds the remap table of its family full (R392). -/
def remapFull (fam u : Nat) (d : Dev) : Dev :=
  let d := raise E.MEM_REMAP_FULL [] (d.setReg R.MEM_STATUS (setBits (d.reg R.MEM_STATUS) (16 + fam) (16 + fam) 1))
  reportWith (fun _ d => d) (famSource fam u) 0x04 7 0 (unitAddr fam u) none d

/-- The unit is redirected to the lowest free spare of its family (R390). -/
def remapSram (fam u : Nat) (d : Dev) : Dev :=
  let l := kget d.ram.remap fam []
  if l.length < 16 then
    raise E.MEM_REMAPPED [] (count1 (R.MEM_FAM_COUNT fam 3) (markIsolated (.sram fam u)
      { d with ram := { d.ram with remap := kset d.ram.remap fam (l ++ [u]) } }))
  else remapFull fam u d

/-- A row takes the lowest free slot, or its pages are retired (R391, R392). -/
def remapRow (r : Nat) (d : Dev) : Dev :=
  if d.ram.rows.length < 16 then
    markIsolated (.row r) { d with ram := { d.ram with rows := d.ram.rows ++ [(r, .copying)] } }
  else
    let ps := Config.rowPages r
    let d := { d with ram := { d.ram with retired := d.ram.retired ++ ps.filter (fun p => !d.ram.retired.contains p) } }
    remapFull 8 (256 * ps.headD 0) (count (R.MEM_COUNT 3) ps.length d)

/-- An element is isolated or remapped (R465). -/
def isolateElem (el : Elem) (d : Dev) : Dev :=
  if d.flt.isolated.contains el then d
  else
    match el with
    | .sram fam u => remapSram fam u d
    | .row r => remapRow r d
    | .mram _ => d
    | .chain _ _ => raise E.TDC_CHAIN_ISOLATED [] (markIsolated el d)
    | .core => requestSafe 4 (markIsolated el d)
    | .lane l =>
      let d := markIsolated el d
      { d.put (F.LNK_LANE_STATUS_ISOLATED l) 1 with lnk := { d.lnk with
        ports := d.lnk.ports.modify (if l < 8 then l / 4 else l - 6) (fun x => { x with retrain := true }) } }
    | _ => markIsolated el d

/-- A fault report reaches the collector (R450 to R466). -/
def report (source kind access master addr : Nat) (elem : Option Elem) (d : Dev) : Dev :=
  reportWith isolateElem source kind access master addr elem d

/-! ### Memory errors (R384 to R387) -/

/-- The element that a self-test of a protected unit takes (R463). -/
def unitElem (fam u : Nat) : Elem := if fam == 8 then .row (Config.rowOf (u / 256)) else if fam == 9 then .mram u else .sram fam u

/-- A correctable error: CORRECTED counts it and the family's bucket rises; at CAP it overflows (R384, R387). -/
def correctableAt (fam source addr : Nat) (el : Elem) (access master : Nat) (d : Dev) : Dev :=
  let d := count1 (R.MEM_FAM_COUNT fam 0) d
  let cap := d.get (F.MEM_BUCKET_CFG_CAP fam)
  let l := min cap (d.lget (F.MEM_BUCKET_LEVEL_LEVEL fam) + d.get (F.MEM_BUCKET_CFG_INC fam))
  if cap ≤ l then
    raise E.MEM_BUCKET_OVF [] (count1 (R.MEM_COUNT 1)
      (report source 0x03 access master addr (some el) (d.lput (F.MEM_BUCKET_LEVEL_LEVEL fam) 0)))
  else d.lput (F.MEM_BUCKET_LEVEL_LEVEL fam) l

/-- A correctable error in a protected unit. -/
def correctable (fam u access master : Nat) (d : Dev) : Dev :=
  correctableAt fam (famSource fam u) (unitAddr fam u) (unitElem fam u) access master d

/-- An uncorrectable error is counted, raised and reported at an address from a source (R385). -/
def uncorrectableAt (fam source addr : Nat) (el : Elem) (access master : Nat) (d : Dev) : Dev :=
  report source (if fam ≤ 4 then 0x01 else 0x02) access master addr (some el) (raise E.MEM_UNCORRECTABLE [] (count1 (R.MEM_FAM_COUNT fam 1) d))

/-- An uncorrectable error in a protected unit, its mark apart (R380, R385). -/
def uncorrectableNote (fam u access master : Nat) (d : Dev) : Dev :=
  let d := uncorrectableAt fam (famSource fam u) (unitAddr fam u) (unitElem fam u) access master d
  if fam == 8 && !d.ram.pagePoison.contains (u / 256) then { d with ram := { d.ram with pagePoison := (u / 256) :: d.ram.pagePoison } } else d

/-- Units of a family are written whole by their own writer: their marks and pending errors go (R380), and the first of them takes an
armed flip of its family (R393). Answers the unit and the flipped data bits of an error that its code cannot see. -/
def unitsWritten (fam : Nat) (us : List Nat) (d : Dev) : Option (Nat × Nat) × Dev :=
  let d := if d.ram.poison.isEmpty && d.ram.faulty.isEmpty then d
    else { d with ram := { d.ram with
      poison := d.ram.poison.filter (fun k => !us.contains (k - fam * 2 ^ 40) || k < fam * 2 ^ 40)
      faulty := d.ram.faulty.filter (fun p => !us.contains (p.1 - fam * 2 ^ 40) || p.1 < fam * 2 ^ 40) } }
  if !d.is F.MEM_FLIP_CTRL_ARM then (none, d)
  else
    match us.find? (fun u => d.flipArmed fam (unitAddr fam u) (unitLen fam)) with
    | none => (none, d)
    | some u =>
      let (o, d) := flipOutcome fam false d.flipData (bits (d.reg R.MEM_FLIP_CHECK) 15 0) (d.put F.MEM_FLIP_CTRL_ARM 0)
      if o.1 == 0 then (some (u, o.2), d) else (none, { d with ram := { d.ram with faulty := kset d.ram.faulty (fam * 2 ^ 40 + u) o.1 } })

/-- Is an element isolated (R465)? -/
def Dev.isolated (d : Dev) (el : Elem) : Bool := d.flt.isolated.contains el

/-- Is an element under self-test (R463)? -/
def Dev.underTest (d : Dev) (el : Elem) : Bool :=
  match d.flt.running with
  | some r => r.1.elem == el
  | none => false

/-- An element that takes no part at present: isolated or under self-test (R463, R465). -/
def Dev.outOfUse (d : Dev) (el : Elem) : Bool := d.isolated el || d.underTest el

/-! ### Commands over Dev -/

/-- A command that changes everything but memory and the queue of commands, and always completes. -/
def onDev (f : Dev → Dev) (s : State) : Host.Outcome State Fault Refusal := .next { s with dev := f s.dev }

/-- A read: its word is shown in rdata. -/
def onRead (f : Dev → Word × Dev) (s : State) : Host.Outcome State Fault Refusal :=
  .next { s with dev := { (f s.dev).2 with rdata := [(f s.dev).1] } }

end Sys2Proof.Machine
end

