-- ==== Sys2Proof/Machine/Frames.lean ====
section
/-! DEFINITION. Frames and items as 64-bit words: wire order, lengths, items, the CRC and the TURN_TAIL (R177 to R181, R200,
R201). -/

namespace Sys2Proof.Machine

/-! ### Bytes and checks (R201, R293) -/

/-- A number from bytes, most significant first. -/
def bytesNat (bs : List Byte) : Nat := bs.foldl (fun a b => a * 256 + b.toNat) 0

/-- One bit step of the reflected CRC-32C (R201). -/
def crc32cBit (c : Nat) : Nat := if c % 2 == 1 then (c / 2) ^^^ 0x82F63B78 else c / 2

/-- CRC-32C register after one byte (R201). -/
def crc32cByte (c : Nat) (b : Nat) : Nat :=
  crc32cBit (crc32cBit (crc32cBit (crc32cBit (crc32cBit (crc32cBit (crc32cBit (crc32cBit (c ^^^ b))))))))

/-- CRC-32C of bytes in wire order (R201). -/
def crc32c (bs : List Byte) : Nat := (bs.foldl (fun c b => crc32cByte c b.toNat) 0xFFFFFFFF) ^^^ 0xFFFFFFFF

/-- One bit step of the CRC-16 of short messages: polynomial 0x1021, not reflected (R293). -/
def crc16Bit (c : Nat) : Nat := if 32768 ≤ c then (c * 2 % 65536) ^^^ 0x1021 else c * 2

/-- CRC-16 register after one byte (R293). -/
def crc16Byte (c b : Nat) : Nat :=
  crc16Bit (crc16Bit (crc16Bit (crc16Bit (crc16Bit (crc16Bit (crc16Bit (crc16Bit (c ^^^ b * 256))))))))

/-- CRC-16 of bytes (R293). -/
def crc16 (bs : List Byte) : Nat := bs.foldl (fun c b => crc16Byte c b.toNat) 0xFFFF

/-! ### Frames as words (R179, R200, R201) -/

/-- The 8 bytes of a word in wire order (R180). -/
def wordBytes (w : Word64) : List Byte := (List.range 8).map (fun i => BitVec.ofNat 8 (w.toNat / 2 ^ (8 * (7 - i))))

/-- Bits of a 64-bit word. -/
def wbits (w : Word64) (hi lo : Nat) : Nat := nbits w.toNat hi lo

/-- A 64-bit word with bits hi to lo replaced. -/
def wset (w : Word64) (hi lo v : Nat) : Word64 :=
  BitVec.ofNat 64 (w.toNat - nbits w.toNat hi lo * 2 ^ lo + v % 2 ^ (hi + 1 - lo) * 2 ^ lo)

/-- Words of an item by its first word, without the enclosed frame of a SUBFRAME_HEAD (R179). -/
def itemLen (w : Word64) : Nat :=
  let nw := wbits w 57 54
  [1, 1, 2, 4, 1 + nw, 2, 2, 4, 2, 1 + nw, 2, 1 + nw, 3, 2, 1 + nw, 1].getD (wbits w 63 60) 1

/-- CRC-32C of a frame whose words are those from TURN_HEAD to word 0 of TURN_TAIL, REPLAY taken as 0 (R201). -/
def frameCrc (ws : List Word64) (turnLo : Nat) : Nat :=
  let ws := match ws with
    | h :: r => wset h 56 56 0 :: r
    | [] => []
  crc32c (ws.flatMap wordBytes ++ (wordBytes (BitVec.ofNat 64 (turnLo * 2 ^ 32))).take 4)

/-- TURN_HEAD and items with the TURN_TAIL that closes them (R200). -/
def withTail (ws : List Word64) (turn late items : Nat) : List Word64 :=
  let t0 := pack64 [(63, 60, 0xD), (55, 40, min late 65535), (31, 0, items)]
  let ws := ws ++ [t0]
  let lo := turn % 2 ^ 32
  ws ++ [pack64 [(63, 32, lo), (31, 0, frameCrc ws lo)]]

/-- Items of a frame from word index i on, with their first index and words; the enclosed frame of a SUBFRAME_HEAD counts
as words of that item. -/
def frameItems : Nat → Nat → List Word64 → List (Nat × List Word64)
  | 0, _, _ => []
  | _ + 1, _, [] => []
  | f + 1, i, w :: r =>
    let n := if wbits w 63 60 == 0xA then 2 + wbits (r.headD 0) 63 32 else itemLen w
    let n := max n 1
    (i, (w :: r).take n) :: frameItems f (i + n) ((w :: r).drop n)

/-- Payload words that ns code values take (R190). -/
def wavePayload (ns : Nat) : Nat := (ns - 2 + 4) / 5

/-- A WAVE_DATA item from its fields and values (R190). -/
def waveItem (poison late : Bool) (ch gain start : Nat) (vals : List Nat) : List Word64 :=
  let ns := vals.length
  let nw := wavePayload ns
  let v (i : Nat) : Nat := vals.getD i 0
  pack64 [(63, 60, 4), (59, 59, b2n poison), (58, 58, b2n late), (57, 54, nw), (53, 48, ch), (47, 46, gain), (45, 32, start), (31, 25, ns),
      (23, 12, v 0), (11, 0, v 1)] ::
    (List.range nw).map (fun k => pack64 [(59, 48, v (5 * k + 2)), (47, 36, v (5 * k + 3)), (35, 24, v (5 * k + 4)), (23, 12, v (5 * k + 5)),
      (11, 0, v (5 * k + 6))])

end Sys2Proof.Machine
end

