-- ==== Sys2Proof/Machine/Coding.lean ====
section
/-! DEFINITION. What a lane sends as characters: 8b/10b codes and running disparity, filler, and the characters of each unit (R271
to R273, R288, R293). -/

namespace Sys2Proof.Machine

def Dev.lane (d : Dev) (l : Nat) : Lane := d.lnk.lanes.getD l {}
def Dev.setLane (d : Dev) (l : Nat) (x : Lane) : Dev := { d with lnk := { d.lnk with lanes := d.lnk.lanes.set l x } }

/-- What a lane starts anew when it enters a stage: disparity and scrambler in TRAIN (R271, R273), the sets of a timing lane in
EXCHANGE (R281), the flags of TS in ACTIVE, and the entry sets of LP_DEEP (R295). -/
def Lane.enter (x : Lane) (timing : Bool) (st : Nat) : Lane :=
  if st == 2 then { x with txPos := false, scrambler := 0x7FFFFF, sinceIdle := 0 }
  else if st == 4 then { x with capOut := if timing then 16 else 0 }
  else if st == 5 then { x with capOut := 0, capTurns := 0, warm := false, lpExit := false }
  else if st == 6 then { x with lpOut := 4 }
  else x

/-! ### 8b/10b (R271; PRESUMED, log entry 146: the code tables are the standard ones, which the spec names and does not print) -/

/-- The 6-bit codes abcdei of the values of the low five bits, for negative running disparity. -/
def codes6 : List Nat :=
  [0b100111, 0b011101, 0b101101, 0b110001, 0b110101, 0b101001, 0b011001, 0b111000, 0b111001, 0b100101, 0b010101, 0b110100, 0b001101, 0b101100,
   0b011100, 0b010111, 0b011011, 0b100011, 0b010011, 0b110010, 0b001011, 0b101010, 0b011010, 0b111010, 0b110011, 0b100110, 0b010110, 0b110110,
   0b001110, 0b101110, 0b011110, 0b101011]

/-- The 4-bit codes fghj of the high three bits, for negative running disparity: data, and K-codes. -/
def codes4 : List Nat := [0b1011, 0b1001, 0b0101, 0b1100, 0b1101, 0b1010, 0b0110, 0b1110]
def codes4K : List Nat := [0b1011, 0b0110, 0b1010, 0b1100, 0b1101, 0b0101, 0b1001, 0b0111]

/-- One character, a K-code or data, under a running disparity (true is positive): its 10-bit code, bit a the most significant, and
the running disparity after it. -/
def encode10 (k : Bool) (b : Nat) (pos : Bool) : Nat × Bool :=
  let x := b % 32
  let y := b / 32 % 8
  let n6 := if k && x == 28 then 0b001111 else codes6.getD x 0
  let flip6 := popcount n6 6 != 3
  let c6 := if pos && (flip6 || x == 7) then 63 - n6 else n6
  let pos' := pos != flip6
  let alt := if pos' then x == 11 || x == 13 || x == 14 else x == 17 || x == 18 || x == 20
  let n4 := if k then codes4K.getD y 0 else if y == 7 && alt then 0b0111 else codes4.getD y 0
  let flip4 := popcount n4 4 != 2
  let c4 := if pos' && (k || flip4 || y == 3) then 15 - n4 else n4
  (c6 * 16 + c4, pos' != flip4)

/-- Characters one after another. -/
def encodeAll (cs : List (Bool × Byte)) (pos : Bool) : List Nat × Bool :=
  cs.foldl (fun a c => let (w, p) := encode10 c.1 c.2.toNat a.2; (a.1 ++ [w], p)) ([], pos)

/-! ### Filler (R273; DESIGN CHOICE, log entry 155: the spec gives the polynomial, not which bit of a character comes first) -/

/-- One bit of the PRBS-23 scrambler x^23 + x^18 + 1: the bit, and the state after it. -/
def prbsStep (s : Nat) : Nat × Nat :=
  let b := (s / 2 ^ 22 + s / 2 ^ 17) % 2
  (b, s * 2 % 2 ^ 23 + b)

/-- One filler character, its first bit the least significant, and the scrambler after it. -/
def fillerByte (s : Nat) : Byte × Nat :=
  let r := (List.range 8).foldl (fun (a : Nat × Nat) i => let (b, s) := prbsStep a.2; (a.1 + b * 2 ^ i, s)) (0, s)
  (BitVec.ofNat 8 r.1, r.2)

/-- n filler characters. -/
def fillers (n s : Nat) : List Byte × Nat :=
  (List.range n).foldl (fun a _ => let (b, s) := fillerByte a.2; (a.1 ++ [b], s)) ([], s)

/-! ### Units as characters (R272, R273, R288, R293) -/

/-- A K-code and data characters. -/
def kChar (b : Byte) : Bool × Byte := (true, b)
def dChars (bs : List Byte) : List (Bool × Byte) := bs.map (fun b => (false, b))

/-- The bytes of a 32-bit word, most significant first. -/
def word32Wire (w : Word) : List Byte := (List.range 4).map (fun i => BitVec.ofNat 8 (w.toNat / 2 ^ (8 * (3 - i))))
/-- A CRC in n bytes, most significant first. -/
def crcBytes (n c : Nat) : List Byte := (List.range n).map (fun i => BitVec.ofNat 8 (c / 2 ^ (8 * (n - 1 - i))))

/-- The characters of a unit (R272): the first is a K-code. -/
def unitChars : SentUnit → List (Bool × Byte)
  | .nothing => []
  | .short body => let b := body.flatMap word32Wire; kChar 0x1C :: dChars (b ++ crcBytes 2 (crc16 b)) ++ [kChar 0xFD]
  | .control w => let b := wordBytes w; kChar 0x9C :: dChars (b ++ crcBytes 2 (crc16 b)) ++ [kChar 0xFD]
  | .capability bytes => kChar 0xBC :: kChar 0xDC :: dChars bytes
  | .block hdr words aborted =>
    let b := word32Wire hdr ++ words.flatMap wordBytes
    kChar 0xFB :: dChars (b ++ crcBytes 4 (crc32c b)) ++ [kChar (if aborted then 0xFE else 0xFD)]
  | .idle filler => kChar 0xBC :: dChars filler
  | .training rate flags filler => kChar 0xBC :: kChar 0x7C :: dChars (BitVec.ofNat 8 rate :: BitVec.ofNat 8 flags :: filler)
  | .lpEntry filler => kChar 0xBC :: kChar 0xF7 :: dChars filler
  | .linkFrame bytes => kChar 0x5C :: dChars bytes ++ [kChar 0xFD]

/-- A lane sends a unit: its codes, the lane's running disparity, and the characters since the last idle set (R271, R283). -/
def emitUnit (l : Nat) (u : SentUnit) (d : Dev) : Dev :=
  let x := d.lane l
  let cs := unitChars u
  let (codes, pos) := encodeAll cs x.txPos
  let idle := match u with
    | .idle _ => true
    | _ => false
  let d := d.setLane l { x with txPos := pos, sinceIdle := if idle then 0 else x.sinceIdle + cs.length }
  { d with lnk := { d.lnk with sent := (l, u), codes := codes } }

/-- A unit that ends with filler takes it from the lane's scrambler (R273). -/
def emitFilled (l n : Nat) (u : List Byte → SentUnit) (d : Dev) : Dev :=
  let (bs, s) := fillers n (d.lane l).scrambler
  emitUnit l (u bs) (d.setLane l { d.lane l with scrambler := s })

/-- An idle ordered set leaves (R273). -/
def emitIdle (l : Nat) (d : Dev) : Dev := emitFilled l 15 .idle d

end Sys2Proof.Machine
end

