-- ==== Sys2Proof/Machine/Commit.lean ====
section
/-! DEFINITION. Commits (R25 to R37, R515): the checks of a commit set, seals, cancels, DISCARD_SHADOW and the application
of slots. -/

namespace Sys2Proof.Machine

/-! ### Units absent from a variant (R2, R12) -/

/-- Is the register word at a key part of a unit that this Burjor lacks (R2, R12)? -/
def Dev.absentKey (d : Dev) (k : Nat) : Bool :=
  let f := d.reg R.PWR_FEATURES
  let b := k / 65536
  let o := k % 65536
  let dn := bits f 18 15
  if b == 7 then !bit f 0 || (0x1000 ≤ o && dn ≤ (o - 0x1000) / 0x40)
  else if b == 9 then !bit f 3
  else if b == 10 then
    (if 0x100 ≤ o && o < 0x1C0 then (let p := (o - 0x100) / 16; 2 ≤ p && p < 10 && dn ≤ p - 2)
     else if 0x400 ≤ o && o < 0x580 then (let p := (o - 0x400) / 0x20; 2 ≤ p && p < 10 && dn ≤ p - 2)
     else if 0x1000 ≤ o && o < 0x1480 then
      (let l := (o - 0x1000) / 0x40
       if l < 8 then bits f 21 19 ≤ l % 4 else l < 16 && dn ≤ l - 8)
     else false)
  else false

/-! ### Field ranges (R26, FIELD_RANGE of R37) -/

/-- Is a number within bounds? -/
def inRange (lo v hi : Nat) : Bool := lo ≤ v && v ≤ hi

/-- INPUT and EXC of a sequencer entry or injection name an input of R400, and EXC only an SP input. -/
def monEntryOk (w0 : Word) : Bool :=
  let i := bits w0 29 24
  (i < 8 || inRange 0x10 i 0x17 || inRange 0x20 i 0x24 || inRange 0x28 i 0x2B || i == 0x30) && (!bit w0 17 || i < 8)

/-- A bank of the adjacency table holds no neighbour value from 576 to 1 022 (R214). -/
def adjBankOk (d : Dev) (bank : Nat) : Bool :=
  d.cas.adj.all (fun p => p.1 / 2048 != bank ||
    ([bits p.2 29 20, bits p.2 19 10, bits p.2 9 0].all (fun n => n < 576 || n == 1023)))

/-- The turn queues live in the reservoir (TQ_STATUS.STORE). -/
def Dev.reservoir (d : Dev) : Bool := d.is F.TQ_STATUS_STORE

/-- Each field of the SH word at a key lies in its documented range, in a configuration `cfg` (R26). -/
def rangeOk (d : Dev) (cfg : Nat → Word) (k : Nat) : Bool :=
  let w := cfg k
  let b := k / 65536
  let o := k % 65536
  if b == 1 then
    (if o == 0x04 then bits w 27 24 != 0 && bits w 15 12 ≤ 6 && inRange 1 (bits w 8 0) 256
     else if o == 0x08 then inRange 4 (bits w 12 8) 16 && inRange 8 (bits w 4 0) 30
     else if o == 0x0C then 100 ≤ bits w 31 16 && bits w 15 8 != 0 && bits w 7 0 != 0
     else if 0x40 ≤ o && o < 0x60 then
      (if o % 16 == 8 then -1048575 ≤ signedOf 32 w.toNat && signedOf 32 w.toNat ≤ 1048575 else w.toNat ≤ 65535)
     else true)
  else if b == 2 then
    (if 0x1000 ≤ o && o % 0x40 == 0x0C then bits w 25 16 != 0x200 && bits w 9 0 != 0x200 else true)
  else if b == 3 then
    (if o == 0x04 then 2 ≤ bits w 7 4 && (bits w 3 0 == 0 || inRange 10 (bits w 3 0) 15)
     else if o == 0x08 then 8 ≤ bits w 31 24
     else if o == 0x80 then bits w 7 4 ≤ 8
     else if 0x800 ≤ o && o < 0x900 then
      (if o % 0x40 == 0 then bits w 30 29 != 3 && bits w 15 8 < 130 && bits w 7 0 < 130
       else if o % 0x40 == 4 then bits w 31 30 != 3 && bits w 15 0 ≤ 32768
       else true)
     else true)
  else if b == 4 then
    (if o == 0x04 then inRange 6 (bits w 19 16) 13 && inRange 1 (bits w 3 0) 15
     else if o == 0x08 then inRange 1 (bits w 29 16) 8192 && bits w 13 0 ≤ 8191
     else if o == 0x10 then bits w 18 16 ≤ 4 && inRange 1 (bits w 13 7) 64
     else if 0x20 ≤ o && o < 0x40 then bits w 29 28 != 3
     else if 0x1000 ≤ o && o % 0x40 == 0 then
      !(bits w 11 0 == 0 && (bit w 26 || bit w 23))
     else true)
  else if b == 5 then
    (if 0x1000 ≤ o then
      (if o % 0x40 == 0 then bits w 31 28 != 0 && bits w 27 26 != 3 && bits w 23 16 != 0 && inRange 3 (bits w 15 12) 13
       else if o % 0x40 == 4 then bits w 29 16 != 0x2000 && bits w 13 0 ≤ 8192
       else if o % 0x40 == 0x10 then inRange 0xF000 (bits w 16 0) 0x11000
       else true)
     else true)
  else if b == 7 then
    (if o == 0x04 then inRange 1 (bits w 26 24) 4 && bits w 9 8 < 2
     else if o == 0x08 then
      inRange 1 (bits w 25 16) 576 && inRange 512 (bits w 10 0) 1536 && adjBankOk d (bits w 30 30)
     else if 0x10 ≤ o && o < 0x20 then (if bit w 30 then inRange 1 (bits w 9 0) 576 else inRange 1 (bits w 9 0) 7)
     else if 0x1000 ≤ o && o % 0x40 == 0 then
      (let j := (o - 0x1000) / 0x40
       let q := bits w 14 12
       let v := cfg (R.CAS_PORT_CFG q)
       if bit w 15 then q != j && bit v 15 && bits v 14 12 == j
       else (List.range 8).all (fun i => i == j || !(bit (cfg (R.CAS_PORT_CFG i)) 15 && bits (cfg (R.CAS_PORT_CFG i)) 14 12 == j)))
     else true)
  else if b == 8 then
    (if o == 0x04 then inRange 8 (bits w 15 0) 4096
     else if o == 0x08 then inRange 64 (bits w 31 16) 32000 && 16 ≤ bits w 15 0
     else if o == 0x0C || o == 0x10 then
      (let base := bits (cfg R.TQ_AREA_BASE) 22 0
       let pages := bits (cfg R.TQ_AREA_PAGES) 23 0
       if d.reservoir then (if o == 0x0C then base == 0 else pages == 1024)
       else (o == 0x0C || 1024 ≤ pages) && base + pages ≤ areaPages (d.get F.PWR_FEATURES_SDRAM_GIB))
     else true)
  else if b == 10 then
    (if 0x100 ≤ o && o < 0x1A0 then
      (let p := (o - 0x100) / 16
       let n := if p < 2 then d.get F.PWR_FEATURES_UP_LANES else 1
       let wd := bits w 29 27
       bits w 31 30 != 3 && (wd == 1 || wd == 2 || wd == 4) && wd ≤ n && bits w 7 4 != 0)
     else true)
  else if b == 13 then
    (if 0x100 ≤ o && o < 0x128 then bits w 19 16 != 0 && bits w 15 0 != 0 else true)
  else if b == 14 then
    (if o == 0x04 then bits w 29 24 != 63
     else if o == 0x08 then 16 ≤ bits w 15 0
     else if o == 0x0C then bits w 31 16 != 0 && bits w 15 0 != 0
     else if 0x400 ≤ o && o < 0x600 && o % 8 == 0 then monEntryOk w
     else if 0x800 ≤ o && o < 0xA00 && o % 0x40 == 0 then bits w 31 30 != 3 && bits w 28 27 != 3
     else if 0xC00 ≤ o && o < 0x1000 && o % 0x80 == 0 then bits w 3 0 < 12
     else true)
  else if b == 16 then
    (if o == 0x04 then inRange 4 (bits w 4 0) 20
     else if 0x100 ≤ o && o < 0x200 then (if (faultKind ((o - 0x100) / 4)).isSome then bits w 7 0 != 0 else true)
     else true)
  else if b == 18 then
    (if o == 0x10 then bits w 3 0 < 12
     else if o == 0x20 then bits w 15 0 != 0
     else true)
  else true

/-! ### The checks of a set (R26, R37) -/

/-- Mode transitions that a commit may make (R337). -/
def transitionOk (src dst : Mode) (turnValid testUnlocked : Bool) : Bool :=
  let acq (m : Mode) : Bool := match m with
    | .stream | .capture | .hybrid | .frequency | .scan => true
    | _ => false
  if dst == src then true
  else
    let listed : Bool := match src with
      | .boot => false
      | .standby => acq dst || dst == .calibrate || dst == .dormant || dst == .test || dst == .safe
      | .calibrate => acq dst || dst == .standby || dst == .safe
      | .hold => acq dst || dst == .standby || dst == .calibrate || dst == .dormant || dst == .safe
      | .dormant => dst == .standby || dst == .safe
      | .safe => false
      | .test => false
      | _ => acq dst || dst == .standby || dst == .calibrate || dst == .hold || dst == .safe
    listed && (!acq dst || turnValid) && (dst != .test || testUnlocked)

/-- The capture geometry rules (R130). -/
def geometryOk (cfg : Nat → Word) : Bool :=
  let g := cfg R.CAP_GEOM
  let r := cfg R.CAP_REC
  let s := 2 ^ bits g 19 16
  let w := bits g 3 0 * 1024
  let l := bits r 29 16 + bits r 13 0
  l ≤ s && s + w ≤ 16384 && l + 4 * bits (cfg R.CAP_DEC) 11 0 + 64 ≤ w

/-- Sum of the seven budgets of a resource (R43). -/
def budgetSum (cfg : Nat → Word) (r : Nat) : Nat :=
  (List.range 7).foldl (fun s a => s + bits (cfg (R.TRN_BUDGET r a)) 9 0) 0

/-- Is a key one of the three words of the capture geometry (R130)? -/
def isGeometry (k : Nat) : Bool := k == R.CAP_GEOM || k == R.CAP_REC || k == R.CAP_DEC

/-- Words whose change may land only in STANDBY: the role (R204), the queue area (R224), FIFO_PROT (R382). -/
def standbyOnlyChange (cfg old : Nat → Word) (k : Nat) : Bool :=
  (k == R.CAS_CFG && bits (cfg k) 31 31 != bits (old k) 31 31) ||
    ((k == R.TQ_AREA_BASE || k == R.TQ_AREA_PAGES || k == R.MEM_FIFO_PROT) && cfg k != old k)

/-- The reason for which a set fails its checks, in the order of R37; 0 NONE. `cfg` is the resulting configuration, `old`
the one before it, `also` a second configuration on which the rules that link fields are judged, `src` the mode in force before
the set lands. -/
def checkSet (d : Dev) (keys : List Nat) (cfg old also : Nat → Word) (isNow : Bool) (src : Mode) : Nat :=
  let hasMode := keys.contains R.PWR_MODE_CTRL
  let dst := bits (cfg R.PWR_MODE_CTRL) 3 0
  if d.is F.TRN_STATUS_DIRTY_OVF || 512 < keys.length then 6
  else if keys.any d.absentKey then 3
  else if keys.any (fun k => !rangeOk d cfg k) then 4
  else if (hasMode && (isNow || dst == 0 ||
      !transitionOk src (modeOfCode dst) d.turnValid (d.get F.SEC_STATUS_SCOPE / 4 % 2 == 1))) ||
      (keys.any (standbyOnlyChange cfg old) && src != .standby) then 5
  else if keys.any isGeometry && !(geometryOk cfg && geometryOk also) then 1
  else if keys.any (fun k => k / 65536 == 0) && (List.range 3).any (fun r => 409 < max (budgetSum cfg r) (budgetSum also r)) then 2
  else 0

/-- The status that a refusal reason returns (R37). -/
def reasonStatus (r : Nat) : Nat := if r == 0 then 0 else if r == 3 then 4 else if r == 4 then 5 else 9

/-! ### Slots -/

/-- A slot of the commit unit. -/
def Dev.slot (d : Dev) (i : Nat) : Slot := d.commit.slots.getD i {}

/-- Replace a slot. -/
def Dev.setSlot (d : Dev) (i : Nat) (s : Slot) : Dev :=
  { d with commit := { d.commit with slots := d.commit.slots.set i s } }

/-- Is a slot pending? -/
def Slot.busy (s : Slot) : Bool := s.st != .free

/-- Is a slot taken in the present period of the coarse clock: pending, or applied or cancelled in this very period (R31)? -/
def Dev.slotTaken (d : Dev) (s : Slot) : Bool := s.busy || (match s.gone with
  | some g => g.1 == d.nowCt
  | none => false)

/-- The slot that an accepted seal takes (R31): of several that are free, the lowest-numbered. The spec says only that the set takes
a slot (DESIGN CHOICE, log entry 135). -/
def Dev.freeSlot (d : Dev) : Option Nat := (List.range 8).find? (fun i => !d.slotTaken (d.slot i))

/-- A slot was applied or cancelled: it is pending no longer, and free from the next ct on (R31). -/
def Dev.clearSlot (d : Dev) (i : Nat) : Dev := d.setSlot i { gone := some (d.nowCt, (d.slot i).st) }

/-! ### When a slot lands (R28, R29, R35) -/

/-- Turns from turn a to turn t, on the wrapping turn count. -/
def turnGap (a t : Nat) : Nat := (t + turnMod - a) % turnMod

/-- The split of δ into whole turns and a fine part (R57). -/
def stepSplit (delta : Int) : Int × Int :=
  let f := (delta + 33521664) % 33554432 - 33521664
  ((delta - f) / 33554432, f)

/-- The pending step's target turn S and its whole turns W, as far as δ is known (R55, R57). -/
def Dev.stepPlan (d : Dev) : Option (Nat × Int) := d.time.step.map (fun s => (s.n, (stepSplit (s.delta.getD 0)).1))

/-- The boundary at which a slot sealed for turn n is due, counted from the next one as 1. A pending step at S that opens S + W
takes with it the targets up to S + W, and brings later targets nearer or further by W (R35). -/
def Dev.boundsTo (d : Dev) (n : Nat) : Nat :=
  let g := turnGap d.clk.turn n
  match d.stepPlan with
  | none => g
  | some (s, w) =>
    let gs := turnGap d.clk.turn s
    if g < gs then g else if 0 ≤ w then max gs (g - w.toNat) else g + w.natAbs

/-- The place of a slot in the order of landing: NOW slots of the present turn, then boundary by boundary the slots due there, and
after those the NOW slots whose verdict fell into the guard window (R28, R29, R35). -/
def Dev.landKey (d : Dev) (s : Slot) : Nat :=
  match s.st with
  | .free => 0
  | .now => if s.late then 3 else 0
  | .due => 2
  | .next => if s.late then 4 else 2
  | .at => 2 * d.boundsTo s.target

/-- Does slot `a` apply before slot `b`: at an earlier moment, or at the same one and sealed earlier (R32)? -/
def Dev.lands (d : Dev) (a b : Slot) : Bool :=
  d.landKey a < d.landKey b || (d.landKey a == d.landKey b && a.order < b.order)

/-- The slots in application order (R32). -/
def insertSlot (d : Dev) (s : Slot) : List Slot → List Slot
  | [] => [s]
  | x :: r => if d.lands x s then x :: insertSlot d s r else s :: x :: r

/-- Pending slots in application order (R32). -/
def Dev.pendingSlots (d : Dev) : List Slot :=
  (d.commit.slots.filter Slot.busy).foldr (insertSlot d) []

/-- The value that slots give a word when they land in the order listed, `v` without one. -/
def slotsValue (l : List Slot) (k : Nat) (v : Word) : Word :=
  l.foldl (fun v s => match kfind s.words k with
    | some w => w
    | none => v) v

/-- The value that the last pending slot writing a word gives it, the active value without one (R34). -/
def Dev.pendingValue (d : Dev) (k : Nat) : Word := slotsValue d.pendingSlots k (d.reg k)

/-- The value of a word once every pending slot that lands before `s` has landed. -/
def Dev.valueBefore (d : Dev) (s : Slot) (k : Nat) : Word := slotsValue (d.pendingSlots.filter (fun x => d.lands x s)) k (d.reg k)

/-- The configuration that results when `s` lands, after the pending slots that land before it (R26, R43). -/
def Dev.resultOf (d : Dev) (s : Slot) (k : Nat) : Word := slotsValue [s] k (d.valueBefore s k)

/-- The mode in force at a boundary once every pending slot that lands before `s` has landed (R337); once SAFE_ACK has been
accepted, STANDBY stands at the next boundary (R350). -/
def Dev.modeBefore (d : Dev) (s : Slot) : Mode :=
  let now := if d.pwr.exitOk && d.safeReq == 0 && d.mode == .safe && 2 ≤ d.landKey s then 1 else d.get F.PWR_STATUS_MODE
  modeOfCode ((d.pendingSlots.filter (fun x => d.lands x s)).foldl (fun v x => match kfind x.words R.PWR_MODE_CTRL with
    | some w => bits w 3 0
    | none => v) now)

/-- Is the guard window open (R22)? -/
def Dev.guardOpen (d : Dev) : Bool := 16368 ≤ d.clk.ct

/-- The step that the next boundary takes: W (R57). -/
def Dev.stepNext (d : Dev) : Option Int := match d.stepPlan with
  | some (s, w) => if turnAdd d.clk.turn 1 == s then some w else none
  | none => none

/-- The turn that the next boundary opens (R17, R57), where any step for it is due. -/
def Dev.nextOpens (d : Dev) : Nat :=
  (((d.clk.turn : Int) + 1 + (d.stepNext.getD 0)) % (turnMod : Int)).toNat

/-- From ct 16 368 of a turn the step for the next boundary is due, and with it every slot that applies there (R22, R33, R35, R56):
NEXT slots but for a deferred one, AT slots for the turn that opens, and those whose targets the step skips. -/
def guardMark (d : Dev) : Dev :=
  let n := turnAdd d.clk.turn 1
  let w := d.stepNext.getD 0
  let opens := d.nextOpens
  let mark (x : Slot) : Slot :=
    match x.st with
    | .next => if x.late then x else { x with st := .due, target := opens }
    | .at =>
      if n < x.target && (x.target : Int) ≤ n + w then { x with st := .due, skipped := true }
      else if x.target == (if w < 0 then opens else n) then { x with st := .due } else x
    | _ => x
  { d with
    time := { d.time with step := d.time.step.map (fun s => if s.n == n then { s with due := true } else s) }
    commit := { d.commit with slots := d.commit.slots.map mark } }

/-! ### DISCARD_SHADOW (R34) -/

/-- Is the word at a key an SH word? -/
def isSH (k : Nat) : Bool := match regRow k with
  | some r => r.sh != 0
  | none => false

/-- Reload every shadow word from its active or last pending value, and clear the dirty marks and DIRTY_OVF (R34). -/
def discardShadow (d : Dev) : Dev :=
  let keys := d.shadow.map (·.1) ++ (d.regs.map (·.1)).filter isSH ++ d.pendingSlots.flatMap (fun s => s.words.map (·.1))
  let sh := keys.foldl (fun m k => kset m k (d.pendingValue k)) d.shadow
  { d with shadow := sh, commit := { d.commit with dirty := [] } }.put F.TRN_STATUS_DIRTY_OVF 0

/-! ### Seals (R28 to R31, R515) -/

/-- The kinds of a seal (R28). -/
inductive SealKind where
  | now
  | next
  | at (n : Nat)
  deriving DecidableEq, Repr

/-- The outcome of a commit operation: what COMMIT_STATUS and R317 report. -/
structure SealRes where
  status : Nat
  reason : Nat := 0
  slot : Nat := 7
  deferred : Bool := false
  apply : Nat := 0
  deriving DecidableEq, Repr

/-- Record the last operation in COMMIT_STATUS. -/
def noteCommit (status reason tag : Nat) (slot : Option Nat) (d : Dev) : Dev :=
  let d := ((d.put F.TRN_COMMIT_STATUS_LAST_RESULT status).put F.TRN_COMMIT_STATUS_LAST_REASON reason).put F.TRN_COMMIT_STATUS_LAST_TAG tag
  match slot with
  | some s => d.put F.TRN_COMMIT_STATUS_LAST_SLOT s
  | none => d

/-- The conditions of a seal's kind (step 2 of R515): the status that rejects it, 0 when it is permitted. -/
def kindStatus (d : Dev) (k : SealKind) : Nat :=
  match k with
  | .now => (match d.mode with
    | .boot | .standby | .calibrate | .hold | .dormant | .safe | .test => 0
    | _ => 3)
  | .next => 0
  | .at n => if !d.turnValid then 3 else if n ≤ d.clk.turn + 1 then 2 else if d.clk.turn + 32767 < n then 5 else 0

/-- The slot that an accepted seal of a kind gets: its turn, and for NOW its pip boundary. A NOW seal whose verdict, 4 ct after it,
falls into the guard window and a NEXT seal in the guard window let the next boundary pass (R28, R29). -/
def sealPlace (d : Dev) (k : SealKind) : Slot :=
  match k with
  | .now =>
    if 16368 ≤ d.clk.ct + 4 then { st := .now, target := d.nextOpens, late := true }
    else { st := .now, target := d.clk.turn, pip := (d.clk.ct + 4) / 16 * 16 + 16 }
  | .next =>
    if d.guardOpen then { st := .next, target := turnAdd d.nextOpens 1, late := true }
    else { st := .next, target := turnAdd d.clk.turn 1 }
  | .at n => { st := .at, target := n }

/-- The slot of a seal of the dirty set. -/
def sealSlot (d : Dev) (k : SealKind) (tag : Nat) : Slot :=
  { sealPlace d k with tag := tag, order := d.commit.nextOrder, words := d.commit.dirty.map (fun x => (x, d.shadowReg x)) }

/-- Judge and seal the dirty set (R28, R515). -/
def sealSet (k : SealKind) (tag : Nat) (d : Dev) : SealRes × Dev :=
  let keys := d.commit.dirty
  if keys.isEmpty && !d.is F.TRN_STATUS_DIRTY_OVF then ({ status := 0 }, noteCommit 0 0 tag none d)
  else
    let s := sealSlot d k tag
    let deferred := k == .next && s.late
    let reason := checkSet d keys (d.resultOf s) (d.valueBefore s) d.shadowReg (k == .now) (d.modeBefore s)
    let status := if reason != 0 then reasonStatus reason else
      let ks := kindStatus d k
      if ks != 0 then ks else (match d.freeSlot with
        | some _ => 0
        | none => 1)
    match status, d.freeSlot with
    | 0, some i =>
      let d := d.setSlot i s
      let d := { d with commit := { d.commit with dirty := [], nextOrder := d.commit.nextOrder + 1 } }
      let d := noteCommit 0 0 tag (some i) d
      let d := if deferred then raise E.TRN_COMMIT_DEFERRED [] (d.put F.TRN_COMMIT_STATUS_DEFERRED 1) else d
      ({ status := 0, slot := i, deferred := deferred, apply := s.target }, d)
    | _, _ =>
      let d := noteCommit status reason tag none (d.put F.TRN_COMMIT_STATUS_REFUSED 1)
      ({ status := status, reason := reason },
        raise E.TRN_COMMIT_REFUSED [pack32 [(26, 24, 7), (23, 16, tag), (15, 12, reason)]] d)

/-- Cancel a slot (R33). In the guard window the slots that the next boundary applies are DUE. -/
def cancelSlot (i tag : Nat) (d : Dev) : SealRes × Dev :=
  let i := i % 8
  let d := if d.guardOpen then guardMark d else d
  let s := d.slot i
  match s.st with
  | .free => ({ status := 5, slot := i }, noteCommit 5 0 tag (some i) d)
  | .now => ({ status := 2, slot := i, apply := s.target }, noteCommit 2 0 tag (some i) d)
  | .due => ({ status := 2, slot := i, apply := s.target }, noteCommit 2 0 tag (some i) d)
  | _ => ({ status := 0, slot := i }, noteCommit 0 0 tag (some i) (d.clearSlot i))

/-- COMMIT_CTRL.OP 6 or 7 is ignored and reported as BAD_ARG. -/
def commitBadOp (tag : Nat) (d : Dev) : Dev := noteCommit 5 0 tag none d

/-- A write of COMMIT_CTRL (R28, R33, R34). -/
def commitCtrl (op slot tag : Nat) (d : Dev) : Dev :=
  match op with
  | 0 => d
  | 1 => (sealSet .now tag d).2
  | 2 => (sealSet .next tag d).2
  | 3 => (sealSet (.at ((d.reg R.TRN_COMMIT_TARGET_HI).toNat % 65536 * 2 ^ 32 + (d.reg R.TRN_COMMIT_TARGET_LO).toNat)) tag d).2
  | 4 => (cancelSlot slot tag d).2
  | 5 => noteCommit 0 0 tag none (discardShadow d)
  | _ => commitBadOp tag d

/-- A write to an SH word (R25): the shadow takes it, the word becomes dirty, a 513th word sets DIRTY_OVF. -/
def shadowWrite (k mask : Nat) (v : Word) (d : Dev) : Dev :=
  let old := (d.shadowReg k).toNat
  let d := d.setShadow k (BitVec.ofNat 32 (old - (old &&& mask) + (v.toNat &&& mask)))
  if d.commit.dirty.contains k then d
  else if d.commit.dirty.length < 512 then
    { d with commit := { d.commit with dirty := (d.commit.dirty.filter (· < k)) ++ [k] ++ d.commit.dirty.filter (k < ·) } }
  else d.put F.TRN_STATUS_DIRTY_OVF 1

/-! ### Application (R32) -/

/-- Revalidate and apply one slot of the group due (R32): the word of COMMIT_APPLIED if it landed, the word of
COMMIT_DROPPED if it was dropped with reason REVALIDATION. -/
def applySlot (i : Nat) (d : Dev) : Dev × List Word × List Word :=
  let s := d.slot i
  let keys := s.words.map (·.1)
  let cfg (k : Nat) : Word := match kfind s.words k with
    | some w => w
    | none => d.reg k
  if checkSet (d.put F.TRN_STATUS_DIRTY_OVF 0) keys cfg d.reg cfg false d.mode != 0 then
    (noteCommit 9 7 s.tag (some i) ((d.put F.TRN_COMMIT_STATUS_REFUSED 1).clearSlot i), [],
      [pack32 [(26, 24, i), (23, 16, s.tag), (15, 12, 7)]])
  else
    let d := s.words.foldl (fun d kw => d.setReg kw.1 kw.2) d
    let d := match kfind s.words R.PWR_MODE_CTRL with
      | some w => d.put F.PWR_STATUS_MODE (bits w 3 0)
      | none => d
    (d.clearSlot i, [pack32 [(26, 24, i), (23, 16, s.tag), (0, 0, b2n s.skipped)]], [])

/-- Apply the listed slots in order (R32); CFG_GEN moves on once if one landed (R22). The detail words of the slots that
landed and of those dropped. -/
def applySlots (is : List Nat) (d : Dev) : Dev × List Word × List Word :=
  let (d, landed, dropped) := is.foldl (fun (acc : Dev × List Word × List Word) i =>
    let (d', l, x) := applySlot i acc.1
    (d', acc.2.1 ++ l, acc.2.2 ++ x)) (d, [], [])
  if landed.isEmpty then (d, [], dropped)
  else
    let g := (d.get F.TRN_STATUS_CFG_GEN + 1) % 256
    (d.put F.TRN_STATUS_CFG_GEN g, landed.map (fun w => setBits w 15 8 g), dropped)

/-- Indices of the slots that satisfy `p`, in application order (R32). -/
def Dev.slotsWhere (d : Dev) (p : Slot → Bool) : List Nat :=
  (d.pendingSlots.filter p).filterMap (fun s => (List.range 8).find? (fun i => d.slot i == s))

end Sys2Proof.Machine
end

