-- ==== Sys2Proof/Machine/Tdc.lean ====
section
/-! DEFINITION. Picosecond time measurement: chains and fine time, dice runs, rotation, calibration states, pairing of edges,
hit FIFOs and the frequency engines (R95 to R123, R168, R169). -/

namespace Sys2Proof.Machine

/-! ### Units and chains -/

/-- Unit numbers of the auxiliary units. -/
def auxTrig : Nat := 128
def auxFreq : Nat := 129

/-- The units that are present: two for each of the 64 channels, and four auxiliary units. -/
def allUnits : List Nat := List.range 132

/-- A TDC unit. -/
def Dev.unit (d : Dev) (u : Nat) : TUnit := kget d.tdc.units u {}
def Dev.setUnit (d : Dev) (u : Nat) (x : TUnit) : Dev := { d with tdc := { d.tdc with units := kset d.tdc.units u x } }
def TUnit.chain (x : TUnit) (q : Nat) : Chain := x.chains.getD q {}
def TUnit.setChain (x : TUnit) (q : Nat) (c : Chain) : TUnit := { x with chains := x.chains.set q c }

/-- The chains of a unit that are neither isolated nor under self-test (R95, R463). -/
def Dev.healthy (d : Dev) (u : Nat) : List Nat := (List.range 5).filter (fun q => !d.outOfUse (.chain u q))

/-- The chains of a unit that are not isolated: one under self-test is among them (R107, R463). -/
def Dev.chainsLeft (d : Dev) (u : Nat) : List Nat := (List.range 5).filter (fun q => !d.isolated (.chain u q))

/-- The service set (R95, R98). -/
def Dev.service (d : Dev) (u : Nat) : List Nat := (d.healthy u).filter (fun q => ((d.unit u).chain q).service)

/-- The calibrating chain: neither isolated nor in service, in a dice run (R95). It stays the calibrating chain while a self-test has
taken it, so that a unit never calibrates two. -/
def Dev.calChain (d : Dev) (u : Nat) : Option Nat :=
  (d.chainsLeft u).find? (fun q => !((d.unit u).chain q).service && ((d.unit u).chain q).phase != .idle)

/-- Is a unit in its initial or full calibration? -/
def unitInitial (u : Nat) (d : Dev) : Bool := (d.unit u).initial

/-- 2^ROT_LOG2. -/
def Dev.rotTurns (d : Dev) : Nat := 2 ^ d.get F.TDC_CTRL_ROT_LOG2

/-- Age of the oldest service table (R112). -/
def Dev.unitAge (d : Dev) (u : Nat) : Nat := (d.service u).foldl (fun m q => max m ((d.unit u).chain q).age) 0

/-- May unit u run (R110)? In BOOT none does. -/
def Dev.unitRuns (d : Dev) (u : Nat) : Bool := !(d.unit u).off && d.mode != .boot

/-- CAL_STATE of a unit: the first row of R112 that applies. -/
def calState (u : Nat) (d : Dev) : Nat :=
  let x := d.unit u
  if (d.healthy u).isEmpty then 5
  else if !d.unitRuns u then 6
  else if x.initial then 1
  else if x.chains.all (fun c => c.tbl.isNone) then 0
  else
    let per := if d.get F.TDC_CTRL_ROT_LOG2 == 0 then 2 ^ 13 else d.rotTurns
    if d.get F.TDC_CTRL_STALE_MULT * per < d.unitAge u then 4
    else if (d.service u).length < 4 then 3
    else 2

/-- UNIT_STATUS (R112). -/
def unitStatus (u : Nat) (d : Dev) : Word :=
  let mask (l : List Nat) : Nat := l.foldl (fun a q => a + 2 ^ q) 0
  let cal := if (d.unit u).initial then none else d.calChain u
  let c := (d.unit u).chain (cal.getD 0)
  let phase : Nat := match c.phase with
    | .idle => 0 | .collect => 1 | .integrate => 2 | .align => 3 | .check => 4 | .ready => 5 | .failed => 6
  pack32 [(31, 29, calState u d), (28, 24, mask (d.service u)), (23, 19, mask ((List.range 5).filter (fun q => d.isolated (.chain u q)))),
    (18, 16, cal.getD 7), (15, 13, if cal.isNone && !(d.unit u).initial then 0 else phase),
    (12, 11, if cal.isNone && !(d.unit u).initial then 0 else min c.failRun 2)]

/-- UNIT_QUAL (R104). -/
def unitQual (u : Nat) (d : Dev) : Word :=
  let (m, a, dr) := (d.unit u).qual
  pack32 [(31, 24, min m 255), (23, 16, min a 255), (15, 0, min dr 65535)]

/-- NOT_VALID and the events of R114. -/
def judgeCal (d : Dev) : Dev :=
  let valid := allUnits.filter (fun u => calState u d == 2)
  let left := d.tdc.valid.any (fun u => !valid.contains u)
  let was := d.get F.TDC_STATUS_NOT_VALID
  let now := allUnits.length - valid.length
  let starts := left && !d.tdc.episode
  let d := { d.put F.TDC_STATUS_NOT_VALID now with tdc := { d.tdc with valid := valid, episode := (left || d.tdc.episode) && now != 0 } }
  let d := if starts then raise E.TDC_CAL_NOT_VALID [] d else d
  if now == 0 && was != 0 then raise E.TDC_CAL_VALID [] d else d

/-! ### Fine time (R97, R98) -/

/-- The nominal table of R109: 7.08 fb a tap. -/
def nominalTable (k : Nat) : Nat := 1812 * k + 906

/-- The time in fb from turn 0 of an edge sampled at coarse edge (turn, ct), from the tap counts `k` of the five chains,
without SKEW (R97, R109). None where no chain resolves it. In INITIAL the nominal table stands alone: no alignment is subtracted from
it (R109; DESIGN CHOICE, log entry 140). -/
def edgeStamp (u turn ct : Nat) (k : List Nat) (d : Dev) : Option Int :=
  let x := d.unit u
  let parts : List Nat :=
    if x.initial then
      (if k.getD 0 320 < 320 && !d.outOfUse (.chain u 0) then [nominalTable (k.getD 0 0)] else [])
    else (d.service u).filterMap (fun q =>
      let kq := k.getD q 320
      if kq < 320 then (x.chain q).tbl.map (fun t => t.getD kq 0 + (x.chain q).a) else none)
  if parts.isEmpty || !d.unitRuns u then none
  else
    let m := parts.length
    let c : Int := (turn * 16384 + ct : Nat)
    let s := c * 524288 * m - (parts.foldl (· + ·) 0 : Nat)
    some ((s + 128 * m) / (256 * m : Nat) + d.clk.fbOff)

/-- The turn of an absolute time in fb, modulo 2^48. -/
def turnOfFb (t : Int) : Nat := (t / (2 ^ 25 : Nat) % (turnMod : Int)).toNat

/-- The timestamp of an absolute time in fb. -/
def stampFb (t : Int) : Stamp := stampOf (t % ((turnMod * 2 ^ 25 : Nat) : Int)).toNat

/-- SKEW of a channel at a time (R85). -/
def Dev.skewAt (d : Dev) (turn ch : Nat) : Int := signedOf 16 (d.getAt turn (F.AFE_SKEW_SKEW ch))

/-! ### Dice runs (R99 to R106) -/

/-- The table of a histogram: C[k] = 2·(h[0] + … + h[k−1]) + h[k]; entries beyond the last tap with h > 0 are 524 288 (R99). -/
def diceTable (hist : List Nat) : List Nat :=
  let last := hist.foldl (fun a h => (a.1 + 1, if h == 0 then a.2 else a.1 + 1)) (0, 0) |>.2
  (hist.foldl (fun a h => (a.1 + 1, a.2.1 + h, (if a.1 < last then 2 * a.2.1 + h else 524288) :: a.2.2)) (0, 0, [])).2.2.reverse

/-- COLLECT has taken 2^18 edges: the histogram, with the overrun count after its 320 bins (R99). -/
def diceCollectDone (u q : Nat) (hist : List Nat) (d : Dev) : Dev :=
  let x := d.unit u
  let c := x.chain q
  if c.phase != .collect || !d.unitRuns u || d.outOfUse (.chain u q) then d
  else d.setUnit u (x.setChain q { c with hist := some (hist.take 320), overrun := hist.getD 320 0, phase := .integrate })

/-- INTEGRATE: the new table, under 2 CAL pips on the fabric (R99, R101). -/
def diceIntegrateDone (u q : Nat) (d : Dev) : Dev :=
  let x := d.unit u
  let c := x.chain q
  if c.phase != .integrate || !d.unitRuns u || d.outOfUse (.chain u q) then d
  else withPips 0 1 2 (fun d => d.setUnit u (x.setChain q { c with new := some (diceTable (c.hist.getD []), 0), phase := .align })) d

/-- ALIGN: 1 024 reference edges at the given distances behind their launching edges, in fb/256 (R99). -/
def diceAlignDone (u q : Nat) (dist : List Int) (d : Dev) : Dev :=
  let x := d.unit u
  let c := x.chain q
  if c.phase != .align || !d.unitRuns u || d.outOfUse (.chain u q) then d
  else
    let n := dist.length
    let s := dist.foldl (· + ·) 0
    let (m, d) := if n == 0 then (0, d) else roundFree s n d
    let v := (n : Int) * dist.foldl (fun a y => a + y * y) 0 - s * s
    d.setUnit u (x.setChain q { c with new := c.new.map (fun p => (p.1, m.toNat)), spread := (n, v.toNat), phase := .check })

/-- Largest tap width of a histogram in units of fb/128 (R100). -/
def maxBin (hist : List Nat) : Nat := hist.foldl max 0

/-- Largest difference of two tables over the taps with h > 0, in fb/256 (R104). -/
def tableDrift (hist old new : List Nat) : Nat :=
  (hist.zip (old.zip new)).foldl (fun m p => if p.1 == 0 then m else max m (max (p.2.1 - p.2.2) (p.2.2 - p.2.1))) 0

/-- Is the drift check of R104 made on a chain? -/
def driftApplies (c : Chain) (d : Dev) : Bool := c.tbl.isSome && c.age ≤ 8 * d.rotTurns

/-- The fault source of a unit's chains (R106). -/
def chainSource (u : Nat) : Nat := if u < 128 then u / 2 * 4 + 1 else 0x180

/-- A dice run fails (R106). The second failure in a row reports the chain, and so does every further one until a run passes (DESIGN
CHOICE, log entry 141). -/
def diceFail (u q : Nat) (d : Dev) : Dev :=
  let x := d.unit u
  let c := x.chain q
  let n := min (c.failRun + 1) 2
  let stop := d.get F.TDC_CTRL_ROT_LOG2 == 0 && !x.initial
  let d := d.setUnit u (x.setChain q { c with failRun := n, new := none, phase := if stop then .failed else .collect })
  let d := count1 (R.TDC_COUNT u 4) d
  if n == 2 then
    report (chainSource u) 0x0A 0 0 (u * 256 + q) (some (.chain u q)) (raise E.TDC_CAL_FAIL [] d)
  else d

/-- CHECK: the checks of R104, and READY or FAILED. -/
def diceCheck (u q : Nat) (d : Dev) : Dev :=
  let x := d.unit u
  let c := x.chain q
  if c.phase != .check || !d.unitRuns u || d.outOfUse (.chain u q) then d
  else
    let h := c.hist.getD []
    let (tbl, _) := c.new.getD ([], 0)
    let (n, v) := c.spread
    let drift := if driftApplies c d then tableDrift h (c.tbl.getD []) tbl else 0
    let ok := c.overrun == 0 && maxBin h ≤ d.get F.TDC_QUAL_CFG_MAX_BIN_FB * 128 &&
      v ≤ (d.get F.TDC_QUAL_CFG_ALIGN_RMS_FB * 64 * n) ^ 2 && drift ≤ d.get F.TDC_QUAL_CFG_DRIFT_LIMIT * 256
    let (b, d) := roundFree (maxBin h) 128 d
    let r2 := if n == 0 then 0 else v / (n * n) / 4096
    let (r, d) := if n == 0 || isqrt r2 * isqrt r2 * 4096 * (n * n) == v then (isqrt r2, d) else
      let (y, d) := drawFree 1 d
      (isqrt r2 + y, d)
    let (dr, d) := roundFree drift 256 d
    let x := { x with qual := (min b.toNat 255, min r 255, min dr.toNat 65535) }
    if ok then d.setUnit u (x.setChain q { c with phase := .ready, failRun := 0, newAge := 0 })
    else diceFail u q (d.setUnit u x)

/-! ### Start-up, swaps and full calibration (R105 to R111) -/

/-- A unit starts the initial calibration on all healthy chains (R109). -/
def startInitial (u : Nat) (d : Dev) : Dev :=
  let x := d.unit u
  d.setUnit u { x with initial := true, off := false, chains := x.chains.map (fun c =>
    { c with service := false, phase := .collect, new := none, failRun := 0 }) }

/-- A chain enters service with its waiting table (R105). -/
def enterService (c : Chain) : Chain :=
  match c.new with
  | some (t, a) => { c with tbl := some t, a := a, age := c.newAge, new := none, service := true, phase := .idle }
  | none => { c with service := true, phase := .idle }

/-- The service chain with the oldest table (R105); of several of one age, the lowest-numbered (DESIGN CHOICE, log entry 142). -/
def Dev.oldest (d : Dev) (u : Nat) : Option Nat :=
  (d.service u).foldl (fun m q => match m with
    | none => some q
    | some p => if ((d.unit u).chain p).age < ((d.unit u).chain q).age then some q else some p) none

/-- The oldest service chain leaves service and starts COLLECT (R105). -/
def leaveOldest (u : Nat) (d : Dev) : Dev :=
  match d.oldest u with
  | none => d
  | some q => d.setUnit u ((d.unit u).setChain q { (d.unit u).chain q with service := false, phase := .collect, failRun := 0 })

/-- How many chains serve when `h` are healthy (R107). -/
def serveCount (h : Nat) : Nat := if h ≤ 1 then h else h - 1

/-- The table of a chain is written to the table memory: it takes an armed flip of family 4 (R393). A change that parity cannot see
falls on an entry the spec does not place. -/
def tableWritten (u q : Nat) (d : Dev) : Dev :=
  match unitsWritten 4 ((List.range 80).map (fun k => (5 * u + q) * 80 + k)) d with
  | (none, d) => d
  | (some (_, m), d) =>
    if m == 0 then d
    else
      let (k, d) := drawFree 319 d
      let (v, d) := drawFree 524288 d
      d.setUnit u ((d.unit u).setChain q { (d.unit u).chain q with tbl := ((d.unit u).chain q).tbl.map (fun t => t.set k v) })

/-- The swap of one unit at a swap boundary (R105, R107): a READY chain enters service and the oldest leaves; a unit whose
calibrating chain is not READY, or under self-test, does not swap. A chain that isolation leaves as the last one enters service once its
dice run is READY, at a swap boundary; till then the unit stamps nothing (DESIGN CHOICE, log entry 143). -/
def swapUnit (u : Nat) (d : Dev) : Dev :=
  if (d.unit u).initial || !d.unitRuns u then d
  else
    let n := serveCount (d.healthy u).length
    match d.calChain u with
    | some q =>
      if ((d.unit u).chain q).phase == .ready && !d.underTest (.chain u q) then
        let others := d.service u
        let d := if others.length < n then d else leaveOldest u d
        tableWritten u q (d.setUnit u ((d.unit u).setChain q (enterService ((d.unit u).chain q))))
      else raise E.TDC_SWAP_LATE [] (count1 (R.TDC_COUNT u 5) d)
    | none => if 2 ≤ (d.healthy u).length then leaveOldest u d else d

/-- A unit whose chains have all passed, but for isolated ones, enters service (R109). -/
def initialEnter (u : Nat) (d : Dev) : Dev :=
  let h := d.chainsLeft u
  if !(d.unit u).initial || !d.unitRuns u || h.isEmpty || h.any (fun q => ((d.unit u).chain q).phase != .ready) then d
  else
    let x := d.unit u
    let x := (h.take (serveCount h.length)).foldl (fun x q => x.setChain q (enterService (x.chain q))) x
    (h.take (serveCount h.length)).foldl (fun d q => tableWritten u q d) (d.setUnit u { x with initial := false })

/-- A request for a full calibration: its status (R111). -/
def fullCalRequest (d : Dev) : Dev × Nat :=
  let st := if d.mode != .calibrate && d.mode != .test then 3 else if d.is F.TDC_STATUS_FULL_RUNNING then 1 else 0
  let d := d.put F.TDC_CMD_STATUS_RESULT st
  if st == 0 then ({ (d.put F.TDC_STATUS_FULL_RUNNING 1) with tdc := { d.tdc with fullReq := true } }, 0) else (d, st)

/-- The initial or full calibration completes on every unit that runs (R109, R111). -/
def initialCalDone (d : Dev) : Dev :=
  if d.is F.TDC_STATUS_INIT_DONE || d.tdc.fullReq || allUnits.any (fun u => (d.unit u).initial && !(d.unit u).off && !(d.healthy u).isEmpty) then d
  else
    let d := (d.put F.TDC_STATUS_INIT_DONE 1).put F.TDC_STATUS_FULL_RUNNING 0
    let d := if d.mode == .test then allUnits.foldl (fun d u => d.setUnit u { d.unit u with off := true }) d else d
    judgeCal d

/-- What the TDC units do at the boundary that opens turn n: tables age, calibrations start and end, chains swap (R105,
R109, R111). Where chains 0 to 3 enter service at a swap boundary, chain 4 swaps at that same boundary (R109; DESIGN CHOICE, log entry
144). -/
def tdcBoundary (n : Nat) (d : Dev) : Dev :=
  let older (c : Chain) : Chain := { c with age := if c.tbl.isSome then c.age + 1 else 0, newAge := if c.phase == .ready then c.newAge + 1 else 0 }
  let d := allUnits.foldl (fun d u => d.setUnit u { d.unit u with chains := (d.unit u).chains.map older, ageLatch := d.unitAge u }) d
  let d := allUnits.foldl (fun d u => initialEnter u d) d
  let d := if d.tdc.fullReq then
      let d := allUnits.foldl (fun d u => startInitial u d) d
      { d.put F.TDC_STATUS_INIT_DONE 0 with tdc := { d.tdc with fullReq := false } }
    else d
  let rot := d.get F.TDC_CTRL_ROT_LOG2
  let d := if rot == 0 then d
    else allUnits.foldl (fun d u => d.setUnit u { d.unit u with chains := (d.unit u).chains.map (fun c => if c.phase == .failed then { c with phase := .collect } else c) }) d
  if rot != 0 && n % 2 ^ rot == 0 then allUnits.foldl (fun d u => swapUnit u d) d else d

/-- Units that DORMANT powers down (R110). -/
def dormantUnits : List Nat := List.range 130

/-- The units stop or start as the mode changes (R109, R110). -/
def tdcModeChange (old new : Mode) (d : Dev) : Dev :=
  let stop (l : List Nat) (d : Dev) : Dev := l.foldl (fun d u => d.setUnit u { d.unit u with off := true, pulse := none }) d
  if new == .dormant then stop dormantUnits d
  else if new == .test || new == .boot then stop allUnits d
  else if old == .dormant then dormantUnits.foldl (fun d u => startInitial u d) (d.put F.TDC_STATUS_INIT_DONE 0)
  else d

/-! ### Reading tables (R103) -/

/-- TABLE_DATA of a selection: VALID and DATA. A histogram being taken is not yet known (R99). -/
def tableEntry (kind u q entry : Nat) (d : Dev) : Word × Dev :=
  let c := (d.unit u).chain q
  let val (x : Option Nat) : Word := match x with
    | some v => pack32 [(31, 31, 1), (19, 0, v)]
    | none => 0
  if 131 < u || 4 < q then (0, d)
  else if kind == 0 then (val (if entry < 320 then c.tbl.map (fun t => t.getD entry 0) else none), d)
  else if kind == 1 then
    (if c.phase == .collect then
      let (x, d) := drawFree (2 ^ 18) d
      (val (if entry < 320 then some x else none), d)
    else (val (if entry < 320 then c.hist.map (fun h => h.getD entry 0) else none), d))
  else if kind == 2 then (val (c.tbl.map (fun _ => c.a)), d)
  else (val (if entry < 320 then c.new.map (fun p => p.1.getD entry 0) else c.new.map (·.2)), d)

/-- A read of TABLE_DATA: the entry, and ENTRY advances (R103). -/
def tableDataRead (d : Dev) : Word × Dev :=
  let e := d.get F.TDC_TABLE_SEL_ENTRY
  let (w, d) := tableEntry (d.get F.TDC_TABLE_SEL_KIND) (d.get F.TDC_TABLE_SEL_UNIT) (d.get F.TDC_TABLE_SEL_CHAIN) e d
  (w, d.put F.TDC_TABLE_SEL_ENTRY ((e + 1) % 512))

/-! ### Hit FIFOs and losses (R118, R168, R169) -/

/-- The spill counter of a hit source: 0 to 63 a channel, 64 AUX_TRIG. -/
def spillIndex (u : Nat) : Nat := u / 2

/-- The collector source of a unit's hit FIFO (R170). -/
def hitSource (u : Nat) : Nat := if u < 128 then u / 2 * 2 else 128

/-- n items of a source are lost, the earliest at time t (R169). -/
def loseItems (src n : Nat) (t : Stamp) (d : Dev) : Dev :=
  let d := count (R.COL_SPILL (src / 2)) n d
  let l := match kfind d.lost src with
    | some (t0, m) => (t0, m + n)
    | none => (t, n)
  raiseOnce E.COL_SPILL [] { d with lost := kset d.lost src l }

/-- Words held in a FIFO. -/
def fifoWords (l : List Entry) : Nat := l.foldl (fun a e => a + e.words.length) 0

/-- An item enters a hit FIFO of 1 024 words; a full one overwrites its oldest item (R168, R169). -/
def hitPush (src : Nat) (e : Entry) (d : Dev) : Dev :=
  match kget d.fifos src [] with
  | old :: rest => if fifoWords (old :: rest) < 1024 then emitTo src e d
      else loseItems src 1 old.t { d with fifos := kset d.fifos src (rest ++ [e]) }
  | [] => emitTo src e d

/-- The staging queue of a unit: 16 entries, drained at one in 4 ct (R118). Answers the item's fate. -/
def stagePush (u : Nat) (e : Entry) (d : Dev) : Dev :=
  let x := d.unit u
  let now := d.nowCt
  let gone := (now - x.stageCt) / 4
  let level := x.stage - gone
  let from_ := if level == 0 then now else x.stageCt + 4 * gone
  if 16 ≤ level then loseItems (hitSource u) 1 e.t (d.setUnit u { x with stage := level, stageCt := from_ })
  else hitPush (hitSource u) e (d.setUnit u { x with stage := level + 1, stageCt := from_ })

/-- CH of a unit in HIT and EDGE items (R185). -/
def unitCh (u : Nat) : Nat := if u < 128 then u / 2 else 64
def unitBit (u : Nat) : Nat := if u < 128 then u % 2 else 0

/-- A HIT item (R185). -/
def hitItem (u tot : Nat) (uncal : Bool) (t : Stamp) : Entry :=
  { t := t, src := hitSource u, words := [pack64 [(63, 60, 0), (57, 57, b2n uncal), (56, 50, unitCh u), (49, 49, unitBit u), (48, 37, tot),
      (36, 25, t.turn % 4096), (24, 11, t.ct), (10, 0, t.fb)]] }

/-- An EDGE item (R186). -/
def edgeItem (u : Nat) (trailing narrow orphan uncal : Bool) (t : Stamp) : Entry :=
  { t := t, src := hitSource u, words := [pack64 [(63, 60, 1), (57, 57, b2n uncal), (56, 50, unitCh u), (49, 49, unitBit u), (48, 48, b2n trailing),
      (47, 47, b2n narrow), (46, 46, b2n orphan), (39, 0, t.t40)]] }

/-! ### Pairing (R115 to R117) -/

/-- The settings that govern an edge of unit u in a turn (R85, R117): does the unit pair, EDGES mode, ORPHAN_DROP. -/
def pairCfg (u turn : Nat) (d : Dev) : Bool × Bool × Bool :=
  let n := u / 2
  if u == auxTrig then (d.isAt turn F.TDC_AUX_CFG_TRIG_EN, d.isAt turn F.TDC_AUX_CFG_TRIG_MODE, d.isAt turn F.TDC_AUX_CFG_TRIG_ORPHAN_DROP)
  else if 128 ≤ u then (false, false, false)
  else if u % 2 == 0 then
    (d.isAt turn (F.TDC_CH_CFG_LOW_EN n) && d.isAt turn (F.AFE_CH_CFG_EN n), d.isAt turn (F.TDC_CH_CFG_LOW_MODE n), d.isAt turn (F.TDC_CH_CFG_LOW_ORPHAN_DROP n))
  else
    (d.isAt turn (F.TDC_CH_CFG_HIGH_EN n) && d.isAt turn (F.AFE_CH_CFG_EN n), d.isAt turn (F.TDC_CH_CFG_HIGH_MODE n), d.isAt turn (F.TDC_CH_CFG_HIGH_ORPHAN_DROP n))

/-- The mode in force in a turn (R335). -/
def Dev.modeAt (d : Dev) (turn : Nat) : Mode := modeOfCode (d.getAt turn F.PWR_MODE_CTRL_MODE)

/-- HIT and EDGE items are emitted for times in a turn (R119, R334). -/
def Dev.itemsAt (d : Dev) (turn : Nat) : Bool := d.modeAt turn == .stream || d.modeAt turn == .hybrid

/-- The TOT of a pulse (R115). -/
def totOf (p : OpenPulse) (trail : Int) : Nat := (min 4095 ((trail - (p.lead + p.shift) + 64) / 128)).toNat

/-- Is a pulse narrow (R115)? -/
def OpenPulse.narrow (p : OpenPulse) : Bool :=
  match p.trail with
  | some t => t - (p.lead + p.shift) ≤ 786
  | none => p.trailLost

/-- Set or clear the open pulse of a unit. -/
def setPulse (u : Nat) (p : Option OpenPulse) (d : Dev) : Dev := d.setUnit u { d.unit u with pulse := p }

/-- A pulse closes and leaves as HIT or EDGE (R115, R116). -/
def closePulse (u : Nat) (p : OpenPulse) (d : Dev) : Dev :=
  let t := stampFb p.lead
  let d := setPulse u none d
  if p.longDone then d
  else if p.edges then
    (if p.leadSent then d
    else
      let d := if p.narrow then count1 (R.TDC_COUNT u 1) d else d
      if p.emits then stagePush u (edgeItem u false p.narrow false p.uncal t) d else d)
  else
    match p.trail with
    | some tr =>
      if p.narrow then
        let d := count1 (R.TDC_COUNT u 1) d
        if p.emits then stagePush u (edgeItem u false true false p.uncal t) d else d
      else if p.emits then stagePush u (hitItem u (totOf p tr) p.uncal t) d else d
    | none =>
      let d := count1 (R.TDC_COUNT u 1) d
      if p.emits then stagePush u (edgeItem u false true false p.uncal t) d else d

/-- Does an edge at t merge: does it lie 1.6 ns or less after the last edge of its polarity that the unit resolved (R115)? -/
def mergesAt (last : Option Int) (t : Int) : Bool := match last with
  | some l => decide (l ≤ t) && decide (t - l ≤ 2097)
  | none => false

/-- Does an edge of unit u at t merge into the edge before it (R115, R116)? -/
def Dev.mergesEdge (d : Dev) (u : Nat) (trailing : Bool) (t : Int) : Bool :=
  mergesAt (if trailing then (d.unit u).lastTrail else (d.unit u).lastLead) t

/-- A leading edge at time t, SKEW included, whose settings are those of `turn` (R115 to R117). -/
def leadEdge (u turn : Nat) (t : Int) (uncal : Bool) (d : Dev) : Dev :=
  let x := d.unit u
  let d := d.setUnit u { x with lastLead := some t }
  if mergesAt x.lastLead t then
    let d := count1 (R.TDC_COUNT u 0) d
    match x.pulse with
    | some p => if p.edges then d else setPulse u (some { p with trail := none }) d
    | none => d
  else
    let d := match x.pulse with
      | some p => closePulse u p d
      | none => d
    let (en, edges, _) := pairCfg u turn d
    if !en then d
    else
      let p : OpenPulse := { lead := t, shift := 0, trail := none, trailLost := false, uncal := uncal, edges := edges, emits := d.itemsAt turn, leadSent := false, longDone := false }
      setPulse u (some p) d

/-- A trailing edge (R115, R116). -/
def trailEdge (u turn : Nat) (t : Int) (uncal : Bool) (d : Dev) : Dev :=
  let x := d.unit u
  let d := d.setUnit u { x with lastTrail := some t }
  if mergesAt x.lastTrail t then
    let d := count1 (R.TDC_COUNT u 0) d
    match x.pulse with
    | some p =>
      if p.edges || p.longDone then d
      else if p.trail.isSome || (match x.lastTrail with
          | some l => p.lead + p.shift ≤ l
          | none => false) then setPulse u (some { p with trail := some t }) d
      else setPulse u (some { p with trailLost := true }) d
    | none => d
  else
    match x.pulse with
    | none =>
      let (en, _, drop) := pairCfg u turn d
      if !en then d
      else
        let d := count1 (R.TDC_COUNT u 2) d
        if drop || !d.itemsAt turn then d else stagePush u (edgeItem u true false true uncal (stampFb t)) d
    | some p =>
      if p.longDone then setPulse u none d
      else if p.edges then
        let p := { p with trail := some t }
        let d := closePulse u p d
        if p.narrow || !p.emits then d else stagePush u (edgeItem u true false false uncal (stampFb t)) d
      else setPulse u (some { p with trail := some t }) d

/-- A trailing edge that no chain resolves: the open pulse is narrow (R115). -/
def trailUnresolved (u : Nat) (d : Dev) : Dev :=
  match (d.unit u).pulse with
  | some p => if p.trail.isNone then setPulse u (some { p with trailLost := true }) d else d
  | none => d

/-- 1.6 ns after its last leading edge, a pulse with a trailing edge is emitted; in EDGES mode the leading edge leaves
(R115, R116). -/
def pulseClose (u : Nat) (d : Dev) : Dev :=
  match (d.unit u).pulse with
  | none => d
  | some p =>
    if p.edges then
      (if p.leadSent then d
      else
        let d := setPulse u (some { p with leadSent := true }) d
        if p.emits then stagePush u (edgeItem u false false false p.uncal (stampFb p.lead)) d else d)
    else if p.trail.isSome || p.trailLost then closePulse u p d
    else d

/-- No trailing edge within 256 ct of the leading edge (R115). -/
def longPulse (u : Nat) (d : Dev) : Dev :=
  match (d.unit u).pulse with
  | none => d
  | some p =>
    if p.edges || p.longDone || p.trail.isSome || p.trailLost then d
    else
      let d := count1 (R.TDC_COUNT u 3) (setPulse u (some { p with longDone := true }) d)
      if p.emits then stagePush u (hitItem u 0xFFF p.uncal (stampFb p.lead)) d else d

/-- A step moves the scale by δ: times kept for comparison move with it (R57). -/
def tdcStep (delta : Int) (d : Dev) : Dev :=
  let mv (x : TUnit) : TUnit := { x with
    pulse := x.pulse.map (fun p => { p with shift := p.shift + delta, trail := p.trail.map (· + delta) })
    lastLead := x.lastLead.map (· + delta)
    lastTrail := x.lastTrail.map (· + delta) }
  { d with tdc := { d.tdc with units := d.tdc.units.map (fun p => (p.1, mv p.2)) } }

/-! ### Frequency engines (R120 to R122) -/

def Dev.gatesOf (d : Dev) (e : Nat) : List Gate := d.tdc.gates.getD e []
def Dev.setGates (d : Dev) (e : Nat) (g : List Gate) : Dev := { d with tdc := { d.tdc with gates := d.tdc.gates.set e g } }

/-- Set what an EXT_TURN engine does at the next boundary (R120). -/
def Dev.setArm (d : Dev) (e : Nat) (a : Bool × Bool) : Dev := { d with tdc := { d.tdc with gateArm := d.tdc.gateArm.set e a } }

/-- Is a gate of engine e open? -/
def Dev.gateOpen (d : Dev) (e : Nat) : Bool := (d.gatesOf e).any (fun g => g.closed.isNone)

/-- Turns of a TURNS gate: 0 stands for 32 768. -/
def gateTurns (v : Nat) : Nat := if v == 0 then 32768 else v

/-- The time at which a gate has the greatest length, 32 768 turns (R120). -/
def Gate.full (g : Gate) : Int := g.opened + (32768 * 2 ^ 25 : Nat)

/-- A gate of engine e opens at time t, in the mode FREQUENCY and with the engine enabled (R120). -/
def openGate (e : Nat) (t : Int) (d : Dev) : Dev :=
  if d.mode != .frequency || !d.is (F.TDC_FR_CFG_EN e) || d.gateOpen e then d
  else
    let g : Gate := {
      opened := t
      kind := d.get (F.TDC_FR_CFG_KIND e)
      src := d.get (F.TDC_FR_CFG_SRC e)
      stopSrc := d.get (F.TDC_FR_CFG_STOP_SRC e)
      pol := d.get (F.TDC_FR_CFG_POL e)
      gmode := d.get (F.TDC_FR_GATE_GMODE e)
      turns := gateTurns (d.get (F.TDC_FR_GATE_GATE_TURNS e))
      prescale := d.get F.TDC_AUX_CFG_PRESCALE }
    (d.setGates e (d.gatesOf e ++ [g])).put (F.TDC_FR_STATUS_GATE_OPEN e) 1

/-- The open gate of engine e closes at time t with flags (R120). -/
def closeGate (e : Nat) (t : Int) (flags : Nat) (shut : Bool) (d : Dev) : Dev :=
  (d.setGates e ((d.gatesOf e).map (fun g => if g.closed.isNone then { g with closed := some t, flags := flags, shut := shut } else g))).put
    (F.TDC_FR_STATUS_GATE_OPEN e) 0

/-- A gate of engine e that is longer than 32 768 turns now is closed at that length, TRUNCATED (R120). -/
def truncateGate (e : Nat) (now : Int) (d : Dev) : Dev :=
  match (d.gatesOf e).find? (fun g => g.closed.isNone) with
  | some g => if g.full < now then closeGate e g.full 8 false d else d
  | none => d

/-- The FREQ item and the mirrors of one result (R121, R195). -/
def freqItem (e kind flags n : Nat) (t : Stamp) (value : Nat) (fit : Nat) (freq : Nat) (resid : Nat) (d : Dev) : Dev :=
  let w : List Word64 := [pack64 [(63, 60, 7), (57, 56, e), (55, 54, kind), (53, 48, flags), (39, 0, t.t40)], BitVec.ofNat 64 value,
    pack64 [(63, 24, fit)], pack64 [(63, 36, min n (2 ^ 28 - 1)), (35, 20, resid)]]
  let d := d.put (F.TDC_FR_STATUS_UNCAL e) (nbits flags 5 5) |>.put (F.TDC_FR_STATUS_EMPTY e) (nbits flags 4 4)
    |>.put (F.TDC_FR_STATUS_TRUNCATED e) (nbits flags 3 3) |>.put (F.TDC_FR_STATUS_STEPPED e) (nbits flags 2 2)
    |>.put (F.TDC_FR_STATUS_ABORTED e) (nbits flags 1 1) |>.put (F.TDC_FR_STATUS_REVERSED e) (nbits flags 0 0)
  let d := d.setReg (R.TDC_FR_N e) (toWord n) |>.setReg (R.TDC_FR_PERIOD_LO e) (toWord value) |>.setReg (R.TDC_FR_PERIOD_HI e) (toWord (value / 2 ^ 32))
    |>.setReg (R.TDC_FR_FREQ_LO e) (toWord freq) |>.setReg (R.TDC_FR_FREQ_HI e) (toWord (freq / 2 ^ 32)) |>.setReg (R.TDC_FR_RESID e) (toWord resid)
  emitTo 129 { t := t, src := 129, words := w } d

/-- Unpaired edges of engine e (R122): an 18-bit field whose top bit is its SAT. -/
def countUnpaired (e n : Nat) (d : Dev) : Dev :=
  let c := d.get (F.TDC_FR_STATUS_UNPAIRED e)
  if 2 ^ 17 ≤ c || n == 0 then d
  else if 2 ^ 17 - 1 ≤ c + n then raise E.TDC_COUNTER_SAT [toWord (R.TDC_FR_STATUS e % 65536)] (d.put (F.TDC_FR_STATUS_UNPAIRED e) (2 ^ 18 - 1))
  else d.put (F.TDC_FR_STATUS_UNPAIRED e) (c + n)

/-- An edge of the gate's start or stop side pairs with the oldest waiting edge of the other side (R122). -/
def pairEdge (e : Nat) (g : Gate) (start stop : Int × Bool) (d : Dev) : Gate × Dev :=
  let diff := stop.1 - start.1
  let flags := 32 * b2n (start.2 || stop.2) + b2n (decide (diff < 0))
  ({ g with pairs := g.pairs + 1 }, freqItem e 2 flags g.pairs (stampFb start.1) (ofSigned 64 diff) 0 0 0 d)

/-- Does a time lie in a gate (R120)? -/
def Gate.holds (g : Gate) (t : Int) : Bool := g.opened ≤ t && !g.shut && (match g.closed with
  | some c => t < c
  | none => t < g.full)

/-- One edge of unit u goes to one gate (R120 to R122). -/
def gateEdge (e u : Nat) (trailing : Bool) (t : Int) (uncal : Bool) (g : Gate) (d : Dev) : Gate × Dev :=
  if !g.holds t || g.pol != b2n trailing then (g, d)
  else if g.kind == 2 then
    let (g, d) := if u == g.src then
        (match g.stops with
        | s :: r => pairEdge e { g with stops := r } (t, uncal) s d
        | [] => if g.starts.length < 16 then ({ g with starts := g.starts ++ [(t, uncal)] }, d) else (g, countUnpaired e 1 d))
      else (g, d)
    if u == g.stopSrc then
      (match g.starts with
      | s :: r => pairEdge e { g with starts := r } s (t, uncal) d
      | [] => if g.stops.length < 16 then ({ g with stops := g.stops ++ [(t, uncal)] }, d) else (g, countUnpaired e 1 d))
    else (g, d)
  else if u == g.src then
    let t0 := if g.n == 0 then t else g.t0
    let di := t - t0
    ({ g with n := g.n + 1, t0 := t0, st := g.st + di, sit := g.sit + g.n * di, sdd := g.sdd + di * di, uncal := g.uncal || uncal }, d)
  else (g, d)

/-- An edge of unit u at time t reaches the frequency engines (R120). -/
def freqEdge (u : Nat) (trailing : Bool) (t : Int) (uncal : Bool) (d : Dev) : Dev :=
  (List.range 4).foldl (fun d e =>
    let (gs, d) := (d.gatesOf e).foldl (fun (acc : List Gate × Dev) g =>
      let (g, d) := gateEdge e u trailing t uncal g acc.2
      (acc.1 ++ [g], d)) ([], d)
    d.setGates e gs) d

/-- 10^6 times the number of fb in a second (R8): 1 fb is 25.6 µs / 2^25. -/
def microHzFb : Nat := 1310720000000000000

/-- The result of the oldest closed gate of engine e (R121, R122); a gate that has reached its greatest length is closed with it. -/
def freqResult (e : Nat) (d : Dev) : Dev :=
  let d := truncateGate e (d.now.fbs : Nat) d
  match d.gatesOf e with
  | [] => d
  | g :: rest =>
    match g.closed with
    | none => d
    | some close =>
      let d := d.setGates e rest
      let t := stampFb close
      let flags := g.flags + 32 * b2n g.uncal
      let d := if g.kind == 2 then countUnpaired e (g.starts.length + g.stops.length) d else d
      if g.kind == 2 then d
      else if g.kind == 1 then
        let len := (close - g.opened).toNat
        let (r, d) := if len == 0 then drawFree (2 ^ 64 - 1) d else
          let (x, d) := roundFree (g.n * microHzFb : Nat) len d
          (x.toNat, d)
        freqItem e 1 flags g.n t r 0 r 0 d
      else if g.n < 2 then freqItem e 0 (flags + 16) g.n t 0 0 0 0 d
      else
        let n : Int := g.n
        let s1 := n * (n - 1) / 2
        let s2 := n * (n - 1) * (2 * n - 1) / 6
        let den := n * s2 - s1 * s1
        let b := n * g.sit - s1 * g.st
        let pre : Nat := if g.src == auxFreq then 2 ^ g.prescale else 1
        let (per, d) := roundFree (b * (pre * 2 ^ 24 : Nat)) den.toNat d
        let (fr, d) := if b ≤ 0 then drawFree (2 ^ 64 - 1) d else
          let (x, d) := roundFree (den * microHzFb) (b * pre).toNat d
          (x.toNat, d)
        let fit := g.t0 + roundDiv (g.st * den - b * s1) (n * den).toNat
        let ssr := g.sdd * n * den - (g.st * den - b * s1) * g.st - n * b * g.sit
        let (res, d) := if g.n == 2 then (0, d) else
          let q := (256 * ssr).toNat / (n * den * (n - 2)).toNat
          let r := isqrt q
          if r * r * (n * den * (n - 2)).toNat == (256 * ssr).toNat then (r, d) else
            let (x, d) := drawFree 1 d
            (r + x, d)
        freqItem e 0 flags g.n t (per % (2 ^ 64 : Nat)).toNat (stampFb fit).t40 fr (min res 65535) d

/-- GATE_IN is sampled changing (R120): an EXTERNAL gate opens or closes now, an EXT_TURN gate at the next turn. A gate closes by the
GMODE it opened under (R23). -/
def gateInEdge (level : Bool) (d : Dev) : Dev :=
  if d.tdc.gateIn == level then d
  else
    let d := { d with tdc := { d.tdc with gateIn := level } }
    let now : Int := (d.now.fbs : Nat)
    (List.range 4).foldl (fun d e =>
      let d := truncateGate e now d
      let m := d.get (F.TDC_FR_GATE_GMODE e)
      let a := d.tdc.gateArm.getD e (false, false)
      match (d.gatesOf e).find? (fun g => g.closed.isNone) with
      | some g =>
        if g.gmode == 1 && !level then closeGate e now 0 false d
        else if g.gmode == 2 then d.setArm e (if level then (a.1, a.1) else (true, false))
        else d
      | none =>
        if m == 1 && level then openGate e now d
        else if m == 2 && level then d.setArm e (false, true)
        else d) d

/-- What the engines do at the boundary that opens turn n, after the mode `old` (R120); `stepped` closes every open gate
at the end of the turn on the old scale. A gate that opens while GATE_IN is low already, after a pulse that fell within one turn, is due
to close at the next boundary. -/
def freqBoundary (n : Nat) (oldEnd : Int) (stepped : Bool) (old : Mode) (d : Dev) : Dev :=
  let start : Int := (n * 2 ^ 25 : Nat)
  (List.range 4).foldl (fun d e =>
    let m := d.get (F.TDC_FR_GATE_GMODE e)
    let a := d.tdc.gateArm.getD e (false, false)
    let d :=
      match (d.gatesOf e).find? (fun g => g.closed.isNone) with
      | none => d
      | some g =>
        if stepped then closeGate e oldEnd 4 true d
        else if old == .frequency && d.mode != .frequency then closeGate e start 2 false d
        else if g.gmode == 0 && g.opened + (g.turns * 2 ^ 25 : Nat) ≤ start then closeGate e start 0 false d
        else if g.gmode == 2 && a.1 then closeGate e start 0 false d
        else truncateGate e start d
    let d :=
      if m == 0 && n % gateTurns (d.get (F.TDC_FR_GATE_GATE_TURNS e)) == 0 then openGate e start d
      else if m == 2 && a.2 then openGate e start d
      else d
    d.setArm e (m == 2 && d.gateOpen e && !d.tdc.gateIn, false)) d

/-! ### Edges at the auxiliary units (R119) -/

/-- Does an auxiliary input unit stamp edges of a turn (AUX_CFG, R23)? -/
def auxEnabled (u turn : Nat) (d : Dev) : Bool :=
  if u == auxTrig then d.isAt turn F.TDC_AUX_CFG_TRIG_EN else d.isAt turn F.TDC_AUX_CFG_FREQ_EN

/-- An edge at AUX_FREQ: an edge that merges is discarded and counted (R115, R119). -/
def freqInEdge (trailing : Bool) (t : Int) (d : Dev) : Dev :=
  let merged := d.mergesEdge auxFreq trailing t
  let x := d.unit auxFreq
  let d := d.setUnit auxFreq (if trailing then { x with lastTrail := some t } else { x with lastLead := some t })
  if merged then count1 (R.TDC_COUNT auxFreq 0) d else d

/-- An edge at an auxiliary input unit: its stamp, its items and the engines (R119). The settings are those of its time (R23, R117). The
second part is the time stamped of an edge that the unit kept. -/
def auxEdge (u : Nat) (trailing : Bool) (ct : Nat) (k : List Nat) (d : Dev) : Dev × Option Int :=
  if 16384 ≤ ct then
    (if auxEnabled u d.clk.turn d then { d with clk := { d.clk with stretchLost := d.clk.stretchLost + 1 } } else d, none)
  else
    let uncal := calState u d != 2
    match edgeStamp u d.clk.turn ct k d with
    | none => (if trailing then trailUnresolved u d else d, none)
    | some t =>
      let turn := turnOfFb t
      let en := auxEnabled u turn d
      if !en && (d.unit u).pulse.isNone then (d, none)
      else
        let kept := en && !d.mergesEdge u trailing t
        let d := if kept then freqEdge u trailing t uncal d else d
        let d := if u != auxTrig then freqInEdge trailing t d
          else if trailing then trailEdge u turn t uncal d else leadEdge u turn t uncal d
        (d, if kept then some t else none)

/-! ### Commands -/

/-- PULSE_CLOSE (R115). -/
def execPulseClose (u : Nat) (s : State) : Host.Outcome State Fault Refusal := onDev (pulseClose u) s
/-- LONG_PULSE_TIMEOUT (R115). -/
def execLongPulseTimeout (u : Nat) (s : State) : Host.Outcome State Fault Refusal := onDev (longPulse u) s
/-- DICE_COLLECT_DONE (R99). -/
def execDiceCollectDone (u q : Nat) (hist : List Nat) (s : State) : Host.Outcome State Fault Refusal := onDev (diceCollectDone u q hist) s
/-- DICE_INTEGRATE_DONE (R99, R101). -/
def execDiceIntegrateDone (u q : Nat) (s : State) : Host.Outcome State Fault Refusal := onDev (diceIntegrateDone u q) s
/-- DICE_ALIGN_DONE (R99). -/
def execDiceAlignDone (u q : Nat) (dist : List Int) (s : State) : Host.Outcome State Fault Refusal := onDev (diceAlignDone u q dist) s
/-- DICE_CHECK (R104, R106). -/
def execDiceCheck (u q : Nat) (s : State) : Host.Outcome State Fault Refusal := onDev (diceCheck u q) s
/-- INITIAL_CAL_DONE (R109, R111). -/
def execInitialCalDone (s : State) : Host.Outcome State Fault Refusal := onDev initialCalDone s
/-- FREQ_IN_EDGE (R119). -/
def execFreqInEdge (trailing : Bool) (ct : Nat) (k : List Nat) (s : State) : Host.Outcome State Fault Refusal := onDev (fun d => (auxEdge auxFreq trailing ct k d).1) s
/-- GATE_IN_EDGE (R120). -/
def execGateInEdge (level : Bool) (s : State) : Host.Outcome State Fault Refusal := onDev (gateInEdge level) s
/-- FREQ_RESULT (R121, R122). -/
def execFreqResult (e : Nat) (s : State) : Host.Outcome State Fault Refusal := onDev (freqResult e) s
/-- TABLE_DATA_READ (R103). -/
def execTableDataRead (s : State) : Host.Outcome State Fault Refusal := onRead tableDataRead s

end Sys2Proof.Machine
end

