-- ==== Sys2Proof/Machine/ArrayTime.lean ====
section
/-! DEFINITION. Array time and the timing ports: beacons, the delay exchange, the servo, peer time, steps, secure time and
the transmit timestamp queues (R45 to R70, R517). -/

namespace Sys2Proof.Machine

/-! ### Checks of link messages -/

/-- One bit step of CRC-8 with polynomial 0x07 (R46). -/
def crc8Bit (c : Nat) : Nat := if 128 ≤ c then (c * 2 % 256) ^^^ 7 else c * 2

/-- CRC-8 of a beacon's characters 2 to 10 (R46). -/
def crc8 (bs : List Byte) : Nat :=
  bs.foldl (fun c b => crc8Bit (crc8Bit (crc8Bit (crc8Bit (crc8Bit (crc8Bit (crc8Bit (crc8Bit (c ^^^ b.toNat))))))))) 0

/-! ### Ports -/

/-- A timing port. -/
def Dev.tport (d : Dev) (p : Nat) : TPort := d.time.ports.getD p {}
def Dev.setTport (d : Dev) (p : Nat) (t : TPort) : Dev := { d with time := { d.time with ports := d.time.ports.set p t } }

/-- PORT_A_UP or PORT_B_UP: the port is not lost (R60). -/
def upField (p : Nat) : FRef := if p == 0 then F.TIME_STATUS_PORT_A_UP else F.TIME_STATUS_PORT_B_UP
/-- DELAY_VALID of a port (R51). -/
def delayValidField (p : Nat) : FRef := if p == 0 then F.TIME_STATUS_DELAY_VALID_A else F.TIME_STATUS_DELAY_VALID_B

/-- The AT source: 0 TPA, 1 TPB. -/
def Dev.atSrc (d : Dev) : Nat := d.get F.TIME_STATUS_AT_SRC
/-- The standby port (R59). -/
def Dev.standby (d : Dev) : Nat := 1 - d.atSrc
/-- AT_STATE: 0 FREE, 1 ACQUIRE, 2 LOCKED, 3 HOLDOVER (R53). -/
def Dev.atState (d : Dev) : Nat := d.get F.TIME_STATUS_AT_STATE
/-- PT_STATE: 0 FREE, 1 ACQUIRE, 2 LOCKED, 3 LOST (R517). -/
def Dev.ptState (d : Dev) : Nat := d.get F.TIME_STATUS_PT_STATE

/-- The jump limit in fb: floor(JUMP_LIMIT_PS × 1.310 72) (R54). -/
def Dev.jumpLimit (d : Dev) : Int := (d.get F.TIME_LIMIT_CFG_JUMP_LIMIT_PS * 131072 / 100000 : Nat)
/-- LOCK_THRESH in fb (R53). -/
def Dev.lockThresh (d : Dev) : Int := (d.get F.TIME_LIMIT_CFG_LOCK_THRESH : Nat)
/-- Consecutive turns that LOCKED needs (R53). -/
def Dev.lockTurns (d : Dev) : Nat := d.get F.TIME_LIMIT_CFG_LOCK_TURNS_X16 * 16

/-- |AT − PT| is within the jump limit (R61). -/
def Dev.ptAgrees (d : Dev) : Bool := (d.time.ptOff.natAbs : Int) ≤ d.jumpLimit * 256

/-- D in half fb: the mean of the last 2^DELAY_AVG_LOG2 held values of d, ties up (R51). -/
def delay2 (d : Dev) (p : Nat) : Int :=
  let v := (d.tport p).ds.take (2 ^ d.get F.TIME_CTRL_DELAY_AVG_LOG2)
  if v.isEmpty then 0 else roundDiv (v.foldl (· + ·) 0) v.length

/-- θ of a port from t2c − t1 (R51). -/
def thetaOf (d : Dev) (p : Nat) (diff : Int) : Int :=
  roundDiv (2 * (diff - signedOf 32 (d.reg (R.TIME_PORT_CAL p 2)).toNat) - delay2 d p) 2

/-- A timing port is lost (R60, R51): its values of d and its exchanges go, and PT loses its master. An AT source lost in ACQUIRE puts
AT in FREE, where STEER is 0 (R53); the integrator is kept, on which the spec is silent (DESIGN CHOICE, log entry 136). -/
def portLost (p : Nat) (d : Dev) : Dev :=
  let up := d.is (upField p)
  let d := (d.put (upField p) 0).put (delayValidField p) 0
  let d := d.setTport p { d.tport p with ds := [], validRun := 0, theta := none, exch := [] }
  let d := if up then raise E.TIME_PORT_LOST [] d else d
  if p == d.standby then (if d.ptState == 0 then d else d.put F.TIME_STATUS_PT_STATE 3)
  else if d.atState == 1 then
    { (d.put F.TIME_STATUS_AT_STATE 0).setLive R.TIME_STEER 0 with time := { d.time with servo := { d.time.servo with steer := 0 }, newSteer := none } }
  else d

/-! ### The servo (R52) -/

/-- The largest steering word: 200 ppm (R52). -/
def steerMax : Int := 219902325

/-- One servo update on θ in 1/256 fb; the second part tells whether the word was clamped (R52). -/
def servoStep (kpShift kiShift : Nat) (theta256 : Int) (s : Servo) : Servo × Bool :=
  let i' := roundDiv (s.i * (2 ^ 22 : Nat) - theta256 * (2 ^ (37 - kiShift) : Nat)) (2 ^ 22)
  let st := roundDiv (i' * 2 ^ 8 - theta256 * (2 ^ (23 - kpShift) : Nat)) (2 ^ 16)
  if steerMax < st then ({ s with i := if s.i < i' then s.i else i', steer := steerMax }, true)
  else if st < -steerMax then ({ s with i := if i' < s.i then s.i else i', steer := -steerMax }, true)
  else ({ s with i := i', steer := st }, false)

/-- The KP_SHIFT in use: KP_SHIFT − 4 while the raised gain of ACQUIRE runs (R53). -/
def Dev.kpShift (d : Dev) (s : Servo) : Nat :=
  if s.fast then d.get F.TIME_SERVO_CFG_KP_SHIFT - 4 else d.get F.TIME_SERVO_CFG_KP_SHIFT

/-- The run of turns within LOCK_THRESH and the end of the raised gain (R53), on |θ| in 1/256 fb. -/
def servoTrack (d : Dev) (theta256 : Int) (s : Servo) : Servo :=
  { s with
    fast := s.fast && !((theta256.natAbs : Int) < 8 * d.lockThresh * 256)
    lockRun := if (theta256.natAbs : Int) ≤ d.lockThresh * 256 then s.lockRun + 1 else 0 }

/-- Run the AT servo on θ; STEER takes the result at ct 256 (R52). -/
def servoUpdate (theta : Int) (d : Dev) : Dev :=
  let s := servoTrack d (theta * 256) d.time.servo
  let (s', clamped) := servoStep (d.kpShift s) (d.get F.TIME_SERVO_CFG_KI_SHIFT) (theta * 256) s
  let d := { d with time := { d.time with servo := s', newSteer := some s'.steer } }
  if clamped then
    let was := d.is F.TIME_STATUS_CLAMPED
    let d := count1 (R.TIME_COUNT 7) (d.put F.TIME_STATUS_CLAMPED 1)
    if was then d else raise E.TIME_CLAMPED [] d
  else d.put F.TIME_STATUS_CLAMPED 0

/-- A θ is refused (R54): STEER becomes i, the integrator is held. -/
def jumpRefuse (d : Dev) : Dev :=
  let s := d.time.servo
  let first := !d.is F.TIME_STATUS_JUMP_HOLD
  let d := count1 (R.TIME_COUNT 6) (d.put F.TIME_STATUS_JUMP_HOLD 1)
  let st := roundDiv s.i 256
  let d := { d with time := { d.time with servo := { s with steer := st }, newSteer := some st } }
  if first then raise E.TIME_TIME_JUMP_REFUSED [] d else d

/-- STEER takes its new value at ct 256 (R52). -/
def steerApply (d : Dev) : Dev :=
  let d := { d with clk := { d.clk with ct := 256 } }
  match d.time.newSteer with
  | some v => { d.setLive R.TIME_STEER (toWord (ofSigned 32 v)) with time := { d.time with newSteer := none } }
  | none => d

/-- AT moves by δ fb against everything that a step does not move: times kept in AT move with it (R53, R57). The samples of the
channels are counted from the turn's own ct, so that a whole turn moves them and a fine part does not. -/
def timeShift (delta : Int) (d : Dev) : Dev :=
  let mv (t : TPort) : TPort := { t with
    diff := t.diff.map (· + delta)
    exch := t.exch.map (fun e => { e with t3c := e.t3c + delta, diff := e.diff.map (· + delta) }) }
  let w := (delta.tdiv (2 ^ 25 : Nat)) * 65536
  let cap := d.cap.ch.map (fun p => (p.1, { p.2 with
    validFrom := ((p.2.validFrom : Int) + w).toNat, recutFrom := ((p.2.recutFrom : Int) + w).toNat
    offFrom := ((p.2.offFrom : Int) + w).toNat, trimWas := p.2.trimWas.map (fun x => (((x.1 : Int) + w).toNat, x.2)) }))
  tdcStep delta { d with cap := { d.cap with ch := cap }, time := { d.time with ports := d.time.ports.map mv, ptOff := d.time.ptOff + delta * 256 } }

/-- The turn number moves by w whole turns: the copies kept for earlier data are told by their turns on the new numbering, and times
told on the old numbering move with it (R20, R23, R57). -/
def renumber (w : Int) (fine : Int) (d : Dev) : Dev :=
  let t := (((d.clk.turn : Int) + w) % (turnMod : Int)).toNat
  timeShift (w * (2 ^ 25 : Nat)) { d with
    clk := { d.clk with turn := t, stepTurn := some t, stepW := w, stepF := fine }
    commit := { d.commit with prev := d.commit.prev.map (fun p => (((p.1 : Int) + w).toNat, p.2)) } }

/-- On entry to ACQUIRE the local ct and fb counters are set so that θ = 0 (R53). The turn number stays local until the boundary after
the first lock, at which it takes the array value (R20): `renum` holds by how much it moves (DEDUCED, log entry 25). -/
def shiftLocal (theta : Int) (d : Dev) : Dev :=
  let now : Int := ((d.clk.turn * 16384 + d.clk.ct) * 2048 + d.clk.fbOff : Nat)
  let n := now - theta
  let x := (n % (2 ^ 25 : Nat)).toNat
  let delta := ((d.clk.turn * 2 ^ 25 + x : Nat) : Int) - now
  let d := timeShift delta { d with clk := { d.clk.moveTo d.clk.turn (x / 2048) with fbOff := x % 2048 } }
  { d with time := { d.time with renum := n / (2 ^ 25 : Nat) - d.clk.turn, ptOff := d.time.ptOff - roundDiv d.time.ptOff (2 ^ 33) * (2 ^ 33 : Nat) } }

/-! ### Peer time (R517) -/

/-- PT enters ACQUIRE on θ_s: AT − PT is set to θ_s and PT's integrator to AT's. Its steering word is AT's too until the equations of
R52 form one, of which the spec says nothing (DESIGN CHOICE, log entry 27). -/
def ptAcquire (theta : Int) (d : Dev) : Dev :=
  { d.put F.TIME_STATUS_PT_STATE 1 with time := { d.time with
      ptOff := theta * 256
      ptAlign := false
      pt := { i := d.time.servo.i, steer := d.time.servo.steer, fast := true, lockRun := 0 } } }

/-- PT takes a valid θ of the standby port. -/
def ptUpdate (p : Nat) (theta : Int) (d : Dev) : Dev :=
  let st := d.ptState
  if st == 0 then (if 4 ≤ (d.tport p).validRun && d.is (delayValidField p) then ptAcquire theta d else d)
  else if st == 3 then (if d.is (upField p) then ptAcquire theta d else d)
  else if d.time.ptAlign then ptAcquire theta d
  else
    let th := theta * 256 - d.time.ptOff
    if st == 2 && d.jumpLimit * 256 < (th.natAbs : Int) then ptAcquire theta d
    else
      let s := servoTrack d th d.time.pt
      let (s', _) := servoStep (d.kpShift s) (d.get F.TIME_SERVO_CFG_KI_SHIFT) th s
      let d := { d with time := { d.time with pt := s' } }
      if st == 1 && d.lockTurns ≤ s'.lockRun then d.put F.TIME_STATUS_PT_STATE 2 else d

/-- What PT_OFFSET shows: AT − PT truncated toward zero while PT is LOCKED, else 0 (R517). -/
def ptOffsetWord (d : Dev) : Word := if d.ptState == 2 then toWord (ofSigned 32 (d.time.ptOff.tdiv 256)) else 0

/-- AT − PT moves by (steer_PT − STEER) / 32 768 fb in every turn (R517). -/
def ptDrift (d : Dev) : Dev :=
  let st := d.ptState
  let steer := signedOf 32 (d.liveReg R.TIME_STEER).toNat
  if st == 1 || st == 2 then { d with time := { d.time with ptOff := d.time.ptOff - roundDiv (d.time.pt.steer - steer) 128 } } else d

/-- What DELAY and PT_OFFSET will latch: D under the configuration in force, and AT − PT after any step of this boundary (R51, R59). -/
def timeLive (d : Dev) : Dev :=
  let shown (p : Nat) (d : Dev) : Dev := if (d.tport p).ds.isEmpty then d else d.setLive (R.TIME_DELAY p) (toWord (ofSigned 32 ((delay2 d p).tdiv 2)))
  (shown 1 (shown 0 d)).setLive R.TIME_PT_OFFSET (ptOffsetWord d)

/-! ### Beacons (R46 to R54) -/

/-- The AT source gives a θ (R52 to R54). -/
def atUpdate (p : Nat) (theta : Int) (d : Dev) : Dev :=
  let st := d.atState
  if st == 0 then
    (if 4 ≤ (d.tport p).validRun && d.is (delayValidField p) then
      let d := shiftLocal theta (d.put F.TIME_STATUS_AT_STATE 1)
      { d with time := { d.time with servo := { d.time.servo with fast := true, lockRun := 0 } } }
    else d)
  else if st == 1 then
    let d := servoUpdate theta d
    if d.lockTurns ≤ d.time.servo.lockRun then
      raise E.TIME_LOCKED [] { d.put F.TIME_STATUS_AT_STATE 2 with time := { d.time with toValid := true } }
    else d
  else if d.jumpLimit < (theta.natAbs : Int) then jumpRefuse d
  else
    let d := d.put F.TIME_STATUS_JUMP_HOLD 0
    if st == 3 then { d with time := { d.time with toLocked := true } } else servoUpdate theta d

/-- A lost port returns after 4 valid beacons and a completed exchange (R60). -/
def portReturn (p : Nat) (d : Dev) : Dev :=
  if !d.is (upField p) && 4 ≤ (d.tport p).validRun && d.is (delayValidField p) then d.put (upField p) 1 else d

/-- The EXCHANGE of a timing lane passes at its first valid beacon (R281). -/
def timingUp (p : Nat) (d : Dev) : Dev :=
  if d.get (F.LNK_LANE_STATUS_STAGE (16 + p)) != 4 then d
  else
    let d := (d.put (F.LNK_LANE_STATUS_STAGE (16 + p)) 5).put (F.LNK_LANE_STATUS_ATTEMPT (16 + p)) 0
    raise E.LNK_LANE_ACTIVE [] ((d.setLane (16 + p) ((d.lane (16 + p)).enter true 5)).setReg (R.LNK_PORT_STATUS (10 + p))
      (pack32 [(31, 31, 1), (29, 28, 3), (27, 25, 1)]))

/-- θ as the servos take it: until the turn number has its array value, whole turns of it tell the renumbering and not a phase (R20,
R48). -/
def servoTheta (theta : Int) (d : Dev) : Int := if d.turnValid then theta else theta - roundDiv theta (2 ^ 25) * (2 ^ 25 : Nat)

/-- A valid beacon of port p gives θ: the AT source steers AT, the standby port PT (R52 to R54, R517). -/
def thetaTaken (p : Nat) (theta : Int) (d : Dev) : Dev :=
  let th := servoTheta theta d
  let d := d.setTport p { d.tport p with theta := some th }
  let d := d.setLive (R.TIME_OFFSET p) (toWord (ofSigned 32 th))
  if p != d.atSrc then ptUpdate p th d
  else if d.atState == 0 then atUpdate p theta d
  else
    -- R48: in ACQUIRE the number that the beacon carries sets the local number, at the boundary of R20
    let d := if d.turnValid then d else { d with time := { d.time with renum := -roundDiv theta (2 ^ 25) } }
    atUpdate p th d

/-- A beacon's characters 2 to 11 arrive on timing port p at the sampling edge of taps k (R46 to R54). -/
def beaconReceive (p : Nat) (chars : List Byte) (charErr : Bool) (k : List Nat) (d : Dev) : Dev :=
  let p := p % 2
  let lag := bytesNat (chars.drop 7 |>.take 2) % 8192
  let ok := !charErr && chars.length == 10 && crc8 (chars.take 9) == (chars.getD 9 0).toNat && lag < 5120 &&
    (d.get (F.LNK_LANE_STATUS_STAGE (16 + p)) == 5 || d.get (F.LNK_LANE_STATUS_STAGE (16 + p)) == 4)
  if !ok then count1 (R.TIME_COUNT p) d
  else
    let d := timingUp p d
    let t := d.tport p
    let n := bytesNat (chars.take 6)
    let initial := unitInitial (130 + p) d
    match edgeStamp (130 + p) d.clk.turn d.clk.ct k d with
    | none => d.setTport p { t with seen := true, validRun := t.validRun + 1, missRun := 0, master := (chars.getD 6 0).toNat / 8 }
    | some t2 =>
    let t1 : Int := (n * 2 ^ 25 + lag : Nat)
    let diff := t2 - (d.reg (R.TIME_PORT_CAL p 1)).toNat - t1
    let t := { t with seen := true, validRun := t.validRun + 1, missRun := 0, master := (chars.getD 6 0).toNat / 8, diff := some diff }
    if initial then d.setTport p { t with exempt := true, theta := none }
    else
      let d := d.setTport p t
      let d := portReturn p d
      if !d.is (delayValidField p) then d
      else
        thetaTaken p (thetaOf d p diff) d

/-! ### The delay exchange (R50, R51) and transmit timestamps (R67, R68) -/

/-- A transmit timestamp entry for queue q: pushed, or dropped when the queue holds 16 (R67, R68). The entry takes an armed flip of
family 7: one that is uncorrectable is discarded and counted (R382, R385, R393). -/
def txtsPush (q id : Nat) (t : Stamp) (d : Dev) : Dev :=
  let l := d.time.txts.getD q []
  let push (t : Stamp) (d : Dev) : Dev := { d with time := { d.time with txts := d.time.txts.set q (l ++ [(id, t)]) } }
  if l.length < 16 then
    match flipTake 7 (d.is F.MEM_FIFO_PROT_TXTS) 0 8 d with
    | (none, d) => push t d
    | (some (0, m), d) =>
      if m == 0 then push t d
      else
        let (x, d) := drawFree (2 ^ 64 - 1) d
        push { turn := x / 2 ^ 25 % turnMod, ct := x / 2048 % 16384, fb := x % 2048 } d
    | (some (1, _), d) => push t (correctableAt 7 0x180 q (.sram 7 (134 + q)) 1 0x02 d)
    | (some _, d) => count1 (R.TIME_COUNT (8 + q)) (uncorrectableAt 7 0x180 q (.sram 7 (134 + q)) 1 0x02 d)
  else raise E.TIME_TXTS_OVF [] (count1 (R.TIME_COUNT (8 + q)) (d.put (F.TIME_TXTS_STATUS_OVF q) 1))

/-- A Delay_Req is due in this turn on every port (R50). -/
def exchangeTurn (d : Dev) : Bool :=
  let per := d.get F.TIME_CTRL_EXCH_PERIOD
  d.clk.turn % per == d.chipId % per

/-- A number as n bytes, most significant first. -/
def beBytes (n v : Nat) : List Byte := (List.range n).map (fun i => BitVec.ofNat 8 (v / 2 ^ (8 * (n - 1 - i))))

/-- The characters of a Delay_Req frame between K28.2 and K29.7: the 44 bytes of the IEEE 1588-2019 message, versionPTP 2 and
minorVersionPTP 1, and its CRC-32C, most significant byte first as for a block (R50). The bytes of which the spec says nothing are
open. -/
def delayReqFrame (domain chip portNumber seq : Nat) : List Byte :=
  let o (i n : Nat) : List Byte := (List.range n).map (fun j => Config.delayReqByte (i + j))
  let m := [BitVec.ofNat 8 ((Config.delayReqByte 0).toNat / 16 * 16 + 1), 0x12] ++ beBytes 2 44 ++ beBytes 1 domain ++ o 5 1 ++ o 6 2 ++ o 8 8 ++
    o 16 4 ++ beBytes 6 Config.clockIdentityHigh ++ beBytes 2 chip ++ beBytes 2 portNumber ++ beBytes 2 seq ++ o 32 1 ++ o 33 1 ++ o 34 10
  m ++ beBytes 4 (crc32c m)

/-- A Delay_Req leaves on port p at ct 8 192; its first bit leaves t3fb fine bins later (R50). -/
def delayReqSend (p t3fb : Nat) (d : Dev) : Dev :=
  let p := p % 2
  let d := { d with clk := { d.clk with ct := 8192 } }
  if !exchangeTurn d || d.get (F.LNK_LANE_STATUS_STAGE (16 + p)) != 5 then d
  else
    let t := d.tport p
    let t3 : Int := ((d.clk.turn * 16384 + 8192) * 2048 + t3fb : Nat)
    let t3c := t3 + (d.reg (R.TIME_PORT_CAL p 0)).toNat
    let req : DelayReq := { port := p, domain := d.get F.TIME_CTRL_DOMAIN, chip := d.chipId, portNumber := p + 1, seq := t.nextSeq, chars := delayReqFrame (d.get F.TIME_CTRL_DOMAIN) d.chipId (p + 1) t.nextSeq }
    let d := d.setTport p { t with
      nextSeq := (t.nextSeq + 1) % 65536
      exch := t.exch ++ [{ seq := t.nextSeq, turn := d.clk.bounds, t3c := t3c, diff := t.diff }] }
    let d := emitUnit (16 + p) (.linkFrame req.chars) { d with time := { d.time with sent := d.time.sent ++ [req] } }
    if d.is F.TIME_CTRL_EXCH_TXTS then txtsPush (2 + p) t.nextSeq (stampOf t3c.toNat) d else d

/-- An exchange of port p ends without a result: it is counted and the exchange dropped (R50). -/
def exchangeDrop (p : Nat) (d : Dev) : Dev :=
  let t := d.tport p
  count1 (R.TIME_COUNT (4 + p)) (d.setTport p { t with exch := t.exch.drop 1 })

/-- A link message frame arrives on timing port p: the 1588 message bytes and their CRC-32C (R50). A frame with a character error, a
bad CRC or another version is dropped without a count: the spec counts messages of another type, and exchanges (DESIGN CHOICE, log
entry 137). t4 is rounded to nearest with ties toward positive infinity, a tie rule that the spec does not give for t4 (DESIGN
CHOICE, log entry 137). -/
def delayRespReceive (p : Nat) (chars : List Byte) (charErr : Bool) (d : Dev) : Dev :=
  let p := p % 2
  let n := chars.length - 4
  let m := chars.take n
  if charErr || n < 34 || crc32c m != bytesNat (chars.drop n) || (m.getD 1 0) != 0x12 then d
  else if bytesNat (m.drop 4 |>.take 1) != d.get F.TIME_CTRL_DOMAIN then d
  else if (m.getD 0 0).toNat % 16 != 9 then count1 (R.TIME_COUNT (4 + p)) d
  else
    let seq := bytesNat (m.drop 30 |>.take 2)
    match (d.tport p).exch.find? (fun e => e.seq == seq) with
    | none => exchangeDrop p d
    | some e =>
      let secs := bytesNat (m.drop 34 |>.take 6)
      let ns := bytesNat (m.drop 40 |>.take 4)
      let corr := signedOf 64 (bytesNat (m.drop 8 |>.take 8))
      let t4 := roundDiv (((secs * 1000000000 + ns) * 65536 : Nat) + corr) 50
      let t := d.tport p
      let d := d.setTport p { t with exch := t.exch.filter (fun x => x.seq != seq) }
      match e.diff with
      | none => d
      | some diff =>
        let t := d.tport p
        portReturn p ((d.setTport p { t with ds := (diff + (t4 - e.t3c)) :: t.ds.take 63 }).put (delayValidField p) 1)

/-- A Delay_Resp has not arrived within 4 turns (R50). -/
def exchangeTimeout (p : Nat) (d : Dev) : Dev :=
  let p := p % 2
  match (d.tport p).exch with
  | [] => d
  | e :: _ => if e.turn + 4 ≤ d.clk.bounds then exchangeDrop p d else d

/-! ### Steps (R55 to R58) -/

/-- The status of a TIME_STEP request for turn n (R55, R56). -/
def stepStatus (n : Nat) (d : Dev) : Nat :=
  if !d.turnValid then 3 else if n ≤ d.clk.turn + 1 then 2 else if d.clk.turn + 32767 < n then 5 else if d.time.step.isSome then 1 else 0

/-- A step becomes pending. -/
def stepStore (m : StepMode) (n : Nat) (delta : Option Int) (d : Dev) : Dev :=
  let code := match m with
    | .explicit => 0
    | .adopt p => 1 + p
  { (d.put F.TIME_STATUS_STEP_PENDING 1).put F.TIME_STEP_STATUS_MODE code with time := { d.time with step := some { mode := m, n := n, delta := delta } } }

/-- TIME_STEP in EXPLICIT mode (R55, R325). -/
def timeStepExplicit (n : Nat) (delta : Int) (d : Dev) : Dev × Nat :=
  if delta < -((2 ^ 31 * 33554432 : Nat) : Int) || ((2 ^ 31 - 1) * 33554432 + 32767 : Nat) < delta then (d, 5)
  else
    let st := stepStatus n d
    (if st == 0 then stepStore .explicit n (some delta) d else d, st)

/-- TIME_STEP in ADOPT_TPA or ADOPT_TPB mode (R55). -/
def timeStepAdopt (p n : Nat) (d : Dev) : Dev × Nat :=
  let st := stepStatus n d
  (if st == 0 then stepStore (.adopt (p % 2)) n none d else d, st)

/-- TIME_STEP in CANCEL mode (R56). -/
def timeStepCancel (d : Dev) : Dev × Nat :=
  let d := if d.guardOpen then guardMark d else d
  match d.time.step with
  | none => (d, 5)
  | some s => if s.due then (d, 2) else ({ d.put F.TIME_STATUS_STEP_PENDING 0 with time := { d.time with step := none } }, 0)

/-- At the boundary that opens turn N − 1 an ADOPT step measures δ = −θ, or is dropped (R55, R56). -/
def stepMeasure (d : Dev) : Dev :=
  match d.time.step with
  | some { mode := .adopt p, n, delta := none, .. } =>
    if turnAdd d.clk.turn 1 != n then d
    else (match (d.tport p).thetaPrev with
      | some th => if d.is (delayValidField p) then { d with time := { d.time with step := some { mode := .adopt p, n := n, delta := some (-th) } } } else stepDrop d
      | none => stepDrop d)
  | _ => d
where
  /-- The step is dropped (R56). -/
  stepDrop (d : Dev) : Dev :=
    raise E.TIME_STEP_DROPPED [] { (d.put F.TIME_STATUS_STEP_PENDING 0).put F.TIME_STEP_STATUS_LAST_DROPPED 1 with time := { d.time with step := none } }

/-- PT starts again on a new standby port: LOST if that port is lost, ACQUIRE otherwise, aligned on its next θ (R517). -/
def ptRestart (d : Dev) : Dev :=
  { d.put F.TIME_STATUS_PT_STATE (if d.is (upField d.standby) then 1 else 3) with time := { d.time with ptAlign := true, pt := { d.time.pt with lockRun := 0 } } }

/-- The turn opened by this boundary, with any step taken (R57): its number, and the step's record. After the first lock the number
takes the array value, and TURN_VALID becomes 1 (R20, R53). -/
def stepTake (d : Dev) : Dev :=
  let n := turnAdd d.clk.turn 1
  let plain := { d with clk := { d.clk with turn := n, ct := 0, stepped := false, stretchDone := false } }
  let plain := if !plain.time.toValid then plain
    else
      let d := if plain.time.renum == 0 then plain else renumber plain.time.renum 0 plain
      { d.put F.TRN_STATUS_TURN_VALID 1 with time := { d.time with toValid := false, renum := 0, ptOff := plain.time.ptOff } }
  match d.time.step with
  | none => plain
  | some s =>
    if n != s.n || !s.due then plain
    else
      let delta := s.delta.getD 0
      let (w, f) := stepSplit delta
      let d := { plain.put F.TIME_STATUS_STEP_PENDING 0 with time := { plain.time with step := none } }
      let d := match s.mode with
        | .adopt p => if p == d.atSrc then d
          else ptRestart { d.put F.TIME_STATUS_AT_SRC p with time := { d.time with servo := { d.time.servo with lockRun := 0 } } }
        | .explicit => d
      if delta == 0 then d
      else
        let d := (d.put F.TIME_STEP_STATUS_LAST_DROPPED 0).puti F.TIME_STEP_STATUS_LAST_F f
        renumber w f { d with clk := { d.clk with stepped := true, stretchLost := 0 } }

/-- A turn ends, of 16 384 periods of the coarse clock. At the end of a STEPPED turn AT has moved by the fine part F too: the
turn was shorter or longer by it (R57). -/
def turnEnds (d : Dev) : Dev :=
  let d := { d with clk := { d.clk with bounds := d.clk.bounds + 1 } }
  if !d.clk.stepped then { d with clk := { d.clk with ctBase := d.clk.ctBase + 16384 } }
  else
    let f := d.clk.stepF
    let off := (((d.clk.fbOff : Int) + f) % 2048).toNat
    timeShift f { d with clk := { d.clk with fbOff := off, ctBase := d.clk.ctBase + ((2 ^ 25 + (off : Int) - d.clk.fbOff - f) / 2048).toNat } }

/-- The stretched interval of a STEPPED turn ends: the chip-level GAP of cause STEP_STRETCH, once (R58, R192). The clock stands at the
interval's end. -/
def stretchEnd (d : Dev) : Dev :=
  if !d.clk.stepped || 0 ≤ d.clk.stepF || d.clk.stretchDone then d
  else
    let t : Stamp := { turn := d.clk.turn, ct := 16383, fb := 2047 }
    emitTo 130 { t := t, src := 130, words := [
      pack64 [(63, 60, 5), (51, 51, 1), (50, 48, 4), (39, 0, t.t40)],
      pack64 [(63, 32, min d.clk.stretchLost (2 ^ 32 - 1)), (31, 0, d.clk.stepF.natAbs)]] } { d with clk := { d.clk with ct := d.clk.lastCt, stretchLost := 0, stretchDone := true } }

/-! ### What time does at a boundary -/

/-- A turn in which a port gave no θ is none of the consecutive turns within LOCK_THRESH that LOCKED needs (R53, R517). -/
def lockRunEnds (p : Nat) (d : Dev) : Dev :=
  if p == d.atSrc then { d with time := { d.time with servo := { d.time.servo with lockRun := 0 } } }
  else { d with time := { d.time with pt := { d.time.pt with lockRun := 0 } } }

/-- A turn without a valid beacon is counted on each port, and may lose the port (R48, R60). A beacon that an INITIAL unit stamped is
valid, but gives no θ (R111). -/
def beaconMissBoundary (p : Nat) (d : Dev) : Dev :=
  let t := d.tport p
  let d := d.setTport p { t with thetaPrev := t.theta, theta := none, seen := false, exempt := false }
  let d := if t.theta.isNone then lockRunEnds p d else d
  if t.seen then d
  else
    let d := count1 (R.TIME_COUNT (2 + p)) (d.setTport p { d.tport p with validRun := 0, missRun := t.missRun + 1 })
    if d.get F.TIME_CTRL_BEACON_MISS ≤ t.missRun + 1 then portLost p d else d

/-- The standby port becomes the AT source without a step (R61, R62). -/
def masterChange (d : Dev) : Dev :=
  let q := d.standby
  let d := { d.put F.TIME_STATUS_AT_SRC q with time := { d.time with servo := { d.time.servo with i := d.time.pt.i, lockRun := 0 } } }
  raise E.TIME_MASTER_CHANGE [] (count1 (R.TIME_COUNT 12) (ptRestart d))

/-- A lost AT source is replaced or AT enters HOLDOVER (R61). -/
def sourceLostBoundary (d : Dev) : Dev :=
  if d.atState != 2 || d.is (upField d.atSrc) then d
  else if d.ptState == 2 && d.ptAgrees then masterChange d
  else
    let d := d.put F.TIME_STATUS_AT_STATE 3
    let st := roundDiv d.time.servo.i 256
    let d := { d.setLive R.TIME_STEER (toWord (ofSigned 32 st)) with time := { d.time with servo := { d.time.servo with steer := st }, newSteer := none } }
    raise E.TIME_HOLDOVER [] d

/-- A landed change of ACTIVE_SEL waits for the boundary at which R61 permits the change of the source (R62). -/
def selLanded (d : Dev) : Dev := { d with time := { d.time with selPending := d.atSrc != d.get F.TIME_CTRL_ACTIVE_SEL } }

/-- The preferred port becomes the AT source again where R61 and R62 permit: after a landed change of ACTIVE_SEL, or with
REVERT. -/
def preferredBoundary (d : Dev) : Dev :=
  if d.atSrc != d.get F.TIME_CTRL_ACTIVE_SEL && d.ptState == 2 && d.ptAgrees && (d.is F.TIME_CTRL_REVERT || d.time.selPending) then
    let d := masterChange d
    { d with time := { d.time with selPending := false } }
  else d

/-- MASTER_DISAGREE is judged (R61, R62). -/
def disagreeBoundary (d : Dev) : Dev :=
  let apart := d.ptState == 2 && !d.ptAgrees
  let waiting := d.ptState == 2 && d.time.selPending && d.atSrc != d.get F.TIME_CTRL_ACTIVE_SEL
  let was := d.is F.TIME_STATUS_MASTER_DISAGREE
  if apart || waiting then
    let d := d.put F.TIME_STATUS_MASTER_DISAGREE 1
    if was then d else raise E.TIME_MASTER_DISAGREE [ptOffsetWord d] d
  else if was && d.atState == 2 then d.put F.TIME_STATUS_MASTER_DISAGREE 0
  else d

/-- AT becomes LOCKED again from HOLDOVER (R53). -/
def lockBoundary (d : Dev) : Dev :=
  if d.time.toLocked && d.atState == 3 then
    raise E.TIME_LOCKED [] { d.put F.TIME_STATUS_AT_STATE 2 with time := { d.time with toLocked := false } }
  else { d with time := { d.time with toLocked := false } }

/-! ### Secure time (R66) -/

/-- Every 160 000 000 REFCLK cycles ST advances by one second (R66). -/
def stTick (d : Dev) : Dev := { d with time := { d.time with st := (d.time.st + 1) % 2 ^ 48, stCycles := 0 } }

/-- A read of TXTS_FINE: the head entry's ct and fb; the entry is popped (R67). -/
def txtsFineRead (q : Nat) (d : Dev) : Word × Dev :=
  match d.time.txts.getD q [] with
  | [] => (0, d)
  | (_, t) :: r => (toWord t.ctFb, { d with time := { d.time with txts := d.time.txts.set q r } })

/-! ### Commands -/

/-- BEACON_RECEIVE (R48). -/
def execBeaconReceive (p : Nat) (chars : List Byte) (err : CharErr) (k : List Nat) (s : State) : Host.Outcome State Fault Refusal :=
  onDev (fun d => beaconReceive p chars (err != .none) k (countCharErr (16 + p % 2) err d)) s
/-- STEER_APPLY (R52). -/
def execSteerApply (s : State) : Host.Outcome State Fault Refusal := onDev steerApply s
/-- DELAY_REQ_SEND (R50). -/
def execDelayReqSend (p t3fb : Nat) (s : State) : Host.Outcome State Fault Refusal := onDev (delayReqSend p t3fb) s
/-- DELAY_RESP_RECEIVE (R50). -/
def execDelayRespReceive (p : Nat) (chars : List Byte) (err : CharErr) (s : State) : Host.Outcome State Fault Refusal :=
  onDev (fun d => delayRespReceive p chars (err != .none) (countCharErr (16 + p % 2) err d)) s
/-- EXCHANGE_TIMEOUT (R50). -/
def execExchangeTimeout (p : Nat) (s : State) : Host.Outcome State Fault Refusal := onDev (exchangeTimeout (p % 2)) s
/-- STEP_STRETCH_END (R58). -/
def execStepStretchEnd (s : State) : Host.Outcome State Fault Refusal := onDev stretchEnd s
/-- ST_TICK (R66). -/
def execStTick (s : State) : Host.Outcome State Fault Refusal := onDev stTick s
/-- TXTS_FINE_READ (R67). -/
def execTxtsFineRead (p : Nat) (s : State) : Host.Outcome State Fault Refusal := onRead (txtsFineRead p) s

end Sys2Proof.Machine
end

