-- ==== Sys2Proof/Machine/FrontEnd.lean ====
section
/-! DEFINITION. Analogue input channels: the settings of the input stage and comparators, blanking, the test pulser and the
photo-current monitor (R71 to R92). The bias target of R74 is formed in Bias.lean. -/

namespace Sys2Proof.Machine

/-- A channel's front end beside its registers. -/
def Dev.afeCh (d : Dev) (n : Nat) : AfeChannel := kget d.afe.ch n {}
def Dev.setAfeCh (d : Dev) (n : Nat) (c : AfeChannel) : Dev := { d with afe := { d.afe with ch := kset d.afe.ch n c } }

/-! ### What settings mean -/

/-- Input impedance in ohms (R72). -/
def inputOhms (zin : Nat) : Nat := [20, 25, 30, 40, 50, 62, 80, 100].getD zin 50

/-- Restorer time constant in ns, 0 for off (R81). -/
def restorerNs (blr : Nat) : Nat := [0, 1000, 10000, 100000].getD blr 0

/-- Hysteresis in threshold LSBs (R80). -/
def hysteresis (h : Nat) : Nat := [0, 1, 2, 4, 8, 16, 32, 64].getD h 0

/-- A comparator's threshold above its baseline, in nA: THR_LOW in steps of 0.5 µA on the HG path, THR_HIGH in steps of 8 µA on the LG
path (R80). The comparison itself is the analogue circuit's: COMPARATOR_EDGE brings the edges that it makes. -/
def thresholdNa (high : Bool) (thr : Nat) : Nat := (if high then 8000 else 500) * thr

/-- The level above the baseline at which a trailing edge is produced, in nA: threshold − h, or the baseline where that would lie
below it (R80). -/
def trailingNa (high : Bool) (thr hyst : Nat) : Nat := thresholdNa high (thr - hysteresis hyst)

/-- The leading and the trailing level of a comparator of channel n for edges of turn t, in nA above the baseline (R23, R80). -/
def Dev.edgeLevels (d : Dev) (n : Nat) (high : Bool) (t : Nat) : Nat × Nat :=
  let thr := d.getAt t (if high then F.AFE_THR_THR_HIGH n else F.AFE_THR_THR_LOW n)
  (thresholdNa high thr, trailingNa high thr (d.getAt t (if high then F.AFE_THR_HYST_HIGH n else F.AFE_THR_HYST_LOW n)))

/-- The instant, in fb from turn 0, at which the ADC of a gain of channel n takes sample s, counted from turn 0: PH_HG or PH_LG moves
it by a signed number of sp/256, which is 2 fb, and leaves the grid of samples where it is (R84). -/
def Dev.sampleInstant (d : Dev) (n : Nat) (hg : Bool) (s : Nat) : Int :=
  (512 * s : Nat) + 2 * signedOf 10 (d.getAt (s / 65536 % turnMod) (if hg then F.AFE_PHASE_PH_HG n else F.AFE_PHASE_PH_LG n))

/-- The ADC code of a reading in LSBs above the pedestal (R78): 8 × PED + reading, clipped to 0 to 4 095. -/
def adcCode (ped : Nat) (reading : Int) : Nat := (clampInt 0 4095 (8 * ped + reading)).toNat

/-- The code of a sample of channel n in turn t: with EN = 0 the input is held at the pedestal (R73, R78). -/
def sampleCode (hg : Bool) (n t : Nat) (reading : Int) (d : Dev) : Nat :=
  adcCode (d.getAt t (if hg then F.AFE_CH_CFG_PED_HG n else F.AFE_CH_CFG_PED_LG n)) (if d.isAt t (F.AFE_CH_CFG_EN n) then reading else 0)

/-- Charge of a launch in 0.5 fC (R86). -/
def pulseCharge (range amp : Nat) : Nat := if range == 1 then 32 * amp else amp

/-! ### Blanking and threshold cores (R82, R83) -/

/-- The longest blanking that a change of CH_CFG from `a` to `b` starts, in ct (R83); 0 for none. -/
def blankingOf (a b : Word) : Nat :=
  let zin := if bits a 30 28 != bits b 30 28 then 64 else 0
  let blr := if bits a 27 26 != bits b 27 26 then 64 else 0
  let en := if !bit a 31 && bit b 31 then 1280 else 0
  max en (max zin blr)

/-- A blanking of b ct starts now. One that meets a running one is an episode of its own, and the later end stands (R83; DESIGN CHOICE,
log entry 138). -/
def blankFor (n b : Nat) (d : Dev) : Dev :=
  let c := d.afeCh n
  count1 (R.AFE_BLANKED n) (d.setAfeCh n { c with
    blank := (if d.nowCt < c.blank.2 then c.blank.1 else d.nowCt, max c.blank.2 (d.nowCt + b)) })

/-- A commit landed: the changes of channel words blank the comparators and switch the DAC cores. `old` is the machine before the
landing, `keys` the words that landed. -/
def afeLanded (old : Dev) (keys : List Nat) (d : Dev) : Dev :=
  (List.range 64).foldl (fun d n =>
    let d :=
      if !keys.contains (R.AFE_CH_CFG n) then d
      else
        let b := blankingOf (old.reg (R.AFE_CH_CFG n)) (d.reg (R.AFE_CH_CFG n))
        if b == 0 then d else blankFor n b d
    let k := R.AFE_THR n
    if keys.contains k && old.reg k != d.reg k then
      let c := d.afeCh n
      d.setAfeCh n { c with core := !c.core, cores := if c.core then (d.reg k, c.cores.2) else (c.cores.1, d.reg k) }
    else d) d

/-- At ct 16 368 the inactive DAC cores take the values that become due (R82). -/
def loadCores (words : List (Nat × Word)) (d : Dev) : Dev :=
  (List.range 64).foldl (fun d n =>
    match kfind words (R.AFE_THR n) with
    | none => d
    | some w =>
      let c := d.afeCh n
      d.setAfeCh n { c with cores := if c.core then (w, c.cores.2) else (c.cores.1, w) }) d

/-- Are the comparators of channel n blanked in period p of the coarse clock (R83)? -/
def Dev.blanked (d : Dev) (n : Nat) (p : Int) : Bool := (d.afeCh n).blank.1 ≤ p && p < (d.afeCh n).blank.2

/-- A blanking period has expired (R83). -/
def blankingEnd (n : Nat) (d : Dev) : Dev := d.setAfeCh n { d.afeCh n with blank := (0, 0) }

/-! ### The test pulser (R86 to R90) -/

/-- START of the active schedule. -/
def Dev.tpStart (d : Dev) : Nat := d.get F.AFE_TP_START_HI_START_HI * 2 ^ 32 + (d.reg R.AFE_TP_START_LO).toNat

/-- Does the active schedule have an occurrence in a turn (R87)? -/
def Dev.tpOccurs (d : Dev) (t : Nat) : Bool :=
  let rep := d.get F.AFE_TP_CTRL_REPEAT
  d.is F.AFE_TP_CTRL_ENABLE && (if rep == 0 then t == d.tpStart && !d.afe.tpDone else d.tpStart ≤ t && (t - d.tpStart) % rep == 0)

/-- n occurrences are missed (R88, R89). -/
def tpMiss (n : Nat) (d : Dev) : Dev := if n == 0 then d else raise E.AFE_TP_MISSED [] (count (R.AFE_COUNT 1) n d)

/-- Modes in which no pulse is launched (R89). -/
def tpMode (m : Mode) : Bool := !(m == .boot || m == .dormant || m == .safe || m == .test)

/-- Does a ct occur in the present turn (R58)? -/
def Dev.ctOccurs (d : Dev) (ct : Nat) : Bool := !(d.clk.stepped && 0 < d.clk.stepF) || ((ct * 2048 : Nat) : Int) < 2 ^ 25 - d.clk.stepF

/-- The words of the test-pulse schedule. -/
def tpKeys : List Nat := [R.AFE_TP_CTRL, R.AFE_TP_START_LO, R.AFE_TP_START_HI, R.AFE_TP_POS]

/-- A new schedule lands in turn l (R88). -/
def tpLanded (keys : List Nat) (l : Nat) (d : Dev) : Dev :=
  if !tpKeys.any keys.contains then d
  else
    let d := { d with afe := { d.afe with tpDone := false } }
    if d.is F.AFE_TP_CTRL_ENABLE && d.get F.AFE_TP_CTRL_REPEAT == 0 && d.tpStart < l then
      tpMiss 1 { d with afe := { d.afe with tpDone := true } }
    else d

/-- A step skips the turns from n to n + w − 1: the occurrences in them are missed (R89). -/
def tpSkipped (n w : Nat) (d : Dev) : Dev :=
  if !d.is F.AFE_TP_CTRL_ENABLE || w == 0 then d
  else
    let rep := d.get F.AFE_TP_CTRL_REPEAT
    let st := d.tpStart
    if rep == 0 then (if n ≤ st && st < n + w && !d.afe.tpDone then tpMiss 1 { d with afe := { d.afe with tpDone := true } } else d)
    else
      let below (x : Nat) : Nat := if x ≤ st then 0 else (x - 1 - st) / rep + 1
      tpMiss (below (n + w) - below n) d

/-- At the boundary that opens a turn, an occurrence that cannot be launched in it is missed (R89). -/
def tpBoundary (d : Dev) : Dev :=
  let d := { d with afe := { d.afe with injected := [], tpFired := false } }
  if d.tpOccurs d.clk.turn && (!tpMode d.mode || !d.ctOccurs (d.get F.AFE_TP_POS_CT)) then
    tpMiss 1 { d with afe := { d.afe with tpDone := true } }
  else d

/-- A launch (R87): the second part tells whether a pulse was launched. -/
def tpLaunch (d : Dev) : Dev × Bool :=
  let pos := d.get F.AFE_TP_POS_CT
  if !d.tpOccurs d.clk.turn || !tpMode d.mode || !d.ctOccurs pos || d.afe.tpFired then (d, false)
  else
    let chs := (List.range 64).filter (fun n => d.is (F.AFE_CH_CFG_TP_EN n) && d.is (F.AFE_CH_CFG_EN n))
    let inj := chs.map (fun n => (n, pulseCharge (d.get (F.AFE_CH_CFG_TP_RANGE n)) ((d.scanOf 3 n).getD (d.get (F.AFE_CH_CFG_TP_AMP n)))))
    let d := { d with clk := { d.clk with ct := pos }, afe := { d.afe with injected := inj, tpDone := true, tpFired := true } }
    (count1 (R.AFE_COUNT 0) d, true)

/-! ### The photo-current monitor (R91, R92) and node deviation (R77) -/

/-- IMON of a mean in pA: the value and OVR (R91). -/
def imonValue (pA : Int) : Nat × Bool :=
  let v := (pA + 62500) / 125000
  if v < 0 then (0, false) else if 65535 < v then (65535, true) else (v.toNat, false)

/-- At ct 0 the monitor latches the means of the turn that ends (R91, R92). In BOOT and TEST it is powered down (R73) and the words
latched last stand (DESIGN CHOICE, log entry 139). -/
def imonBoundary (means : List Int) (d : Dev) : Dev :=
  if d.mode == .boot || d.mode == .test then d
  else
    let vals := (List.range 64).map (fun n => imonValue (means.getD n 0))
    let d := (List.range 64).foldl (fun d n =>
      let (v, o) := vals.getD n (0, false)
      d.setReg (R.AFE_IMON n) (pack32 [(31, 31, b2n o), (15, 0, v)])) d
    let d := (List.range 8).foldl (fun d k => d.setReg (R.AFE_GROUP_IMON k)
      (toWord ((vals.drop (8 * k)).take 8 |>.foldl (fun a v => a + v.1) 0))) d
    let ovr := (vals.filter (·.2)).length
    if ovr == 0 then d else raiseOnce E.AFE_IMON_OVR [] (count (R.AFE_COUNT 3) ovr d)

/-- Channels whose node differed from OUT by more than 25 mV for the whole turn are reported, at most once in 4 096 turns
each (R77). -/
def nodeBoundary (chs : List Nat) (d : Dev) : Dev :=
  let d := { d with afe := { d.afe with ch := d.afe.ch.map (fun p => (p.1, { p.2 with sinceReport := p.2.sinceReport.map (· + 1) })) } }
  (chs.filter (· < 64)).foldl (fun d n =>
    let c := d.afeCh n
    let free := match c.sinceReport with
      | some t => decide (4096 ≤ t)
      | none => true
    if free then report (4 * n) 0x07 0 0 0 none (d.setAfeCh n { c with sinceReport := some 0 }) else d) d

/-- AFE_STATUS as it reads: TP_ARMED, SLEWING, CLAMP_ANY, GPB_HOLD. -/
def afeStatus (d : Dev) : Word :=
  let armed := d.is F.AFE_TP_CTRL_ENABLE && (if d.get F.AFE_TP_CTRL_REPEAT == 0 then !d.afe.tpDone && d.clk.turn ≤ d.tpStart else true)
  pack32 [(31, 31, b2n armed), (30, 30, b2n ((List.range 64).any (fun n => d.is (F.AFE_BTRIM_OUT_SLEWING n)))),
    (29, 29, b2n ((List.range 64).any (fun n => d.is (F.AFE_BTRIM_OUT_CLAMPED n)))), (28, 28, d.get F.AFE_STATUS_GPB_HOLD)]

/-- BLANKING_END (R83). -/
def execBlankingEnd (ch : Nat) (s : State) : Host.Outcome State Fault Refusal := onDev (blankingEnd ch) s

end Sys2Proof.Machine
end

