-- ==== Sys2Proof/Machine/Capture.lean ====
section
/-! DEFINITION. Waveform capture and triggers: sampling, geometry, trigger sources, accepts, segments and the copy unit,
lost triggers, primitives and TRIG_OUT (R125 to R149). -/

namespace Sys2Proof.Machine

/-! ### Channels and geometry (R126, R129) -/

def Dev.capCh (d : Dev) (n : Nat) : CapChannel := kget d.cap.ch n {}
def Dev.setCapCh (d : Dev) (n : Nat) (c : CapChannel) : Dev := { d with cap := { d.cap with ch := kset d.cap.ch n c } }

/-- W in samples. -/
def winSamples (wk : Nat) : Nat := wk * 1024
/-- N_seg of a geometry (R129). -/
def segCount (w size : Nat) : Nat := if size == 0 then 0 else (16384 - w) / size

/-- W and S in force in a turn (R129, R23). -/
def Dev.geomAt (d : Dev) (t : Nat) : Nat × Nat := (winSamples (d.getAt t F.CAP_GEOM_W_K), 2 ^ d.getAt t F.CAP_GEOM_S_LOG2)

/-- Absolute number of the sample being written now (R125). -/
def Dev.nowSample (d : Dev) : Nat := (d.clk.turn * 16384 + d.clk.ct) * 4

/-- Absolute sample number of a time in fb (R141). -/
def sampleOf (t : Int) : Int := t / 512

/-- A segment is READING or READY or earlier: L of its record. -/
def Segment.len (g : Segment) : Nat := g.pre + g.post

/-- Isolated sub-converters of a gain of a channel, as a mask (CAP_CH_STATUS). -/
def adcIso (n gain : Nat) (d : Dev) : Nat := ((List.range 8).filter (fun k => d.isolated (.adc n gain k))).foldl (fun a k => a + 2 ^ k) 0

/-- Sub-converters of a gain of a channel that are isolated or under self-test, as a mask (R128, R463). -/
def adcMask (n gain : Nat) (d : Dev) : Nat := ((List.range 8).filter (fun k => d.outOfUse (.adc n gain k))).foldl (fun a k => a + 2 ^ k) 0

/-- CAP_CH_STATUS as it reads. -/
def capChStatus (n : Nat) (d : Dev) : Word :=
  let c := d.capCh n
  let (w, s) := d.geomAt d.clk.turn
  let st : Nat := match c.st with | .off => 0 | .warmup => 1 | .run => 2 | .recut => 3
  let tr : Nat := match c.trim with | .off => 0 | .converging => 1 | .settled => 2 | .frozen => 3
  pack32 [(31, 30, st), (29, 28, tr), (23, 16, segCount w s - c.segs.length), (15, 8, adcIso n 1 d), (7, 0, adcIso n 0 d)]

/-- Is every powered channel's trim SETTLED or FROZEN, with one powered at least? -/
def trimSettled (d : Dev) : Bool :=
  let on := (List.range 64).filter (fun n => (d.capCh n).adcOn)
  !on.isEmpty && on.all (fun n => (d.capCh n).trim == .settled || (d.capCh n).trim == .frozen)

/-- Modes in which primitives are formed (R146). -/
def primMode (m : Mode) : Bool := m == .capture || m == .hybrid

/-- CAP_STATUS as it reads. -/
def capStatus (d : Dev) : Word :=
  let (w, s) := d.geomAt d.clk.turn
  let any (p : CapChannel → Bool) : Nat := b2n ((List.range 64).any (fun n => p (d.capCh n)))
  pack32 [(31, 31, any (·.st == .recut)), (30, 30, any (·.st == .warmup)), (29, 29, b2n (primMode d.mode && d.is F.CAP_CFG_PRIM_EN)),
    (28, 28, d.get F.CAP_STATUS_ITRIM_SETTLED), (15, 8, segCount w s)]

/-- ITRIM_SETTLED is judged, and its event raised when it becomes 1. -/
def judgeTrim (d : Dev) : Dev :=
  let now := trimSettled d
  let was := d.is F.CAP_STATUS_ITRIM_SETTLED
  let d := d.put F.CAP_STATUS_ITRIM_SETTLED (b2n now)
  if now && !was then raise E.CAP_ITRIM_SETTLED [] d else d

/-- After a recut, RECUT_DONE is raised once every channel is in RUN or OFF (R131). -/
def judgeRecut (d : Dev) : Dev :=
  if d.cap.recutting && (List.range 64).all (fun n => (d.capCh n).st == .run || (d.capCh n).st == .off) then
    raise E.CAP_RECUT_DONE [] { d with cap := { d.cap with recutting := false } }
  else d

/-! ### ADC power, warm-up, recut (R126, R131) -/

/-- Were a channel's ADCs on when sample s was taken (R126, R135)? -/
def CapChannel.powered (c : CapChannel) (s : Int) : Bool := c.adcOn || s < c.offFrom

/-- The trim of a channel takes a state from sample `now` on; the state before it is kept for records whose trigger time is earlier
(R127). -/
def CapChannel.setTrim (c : CapChannel) (now : Nat) (t : TrimState) : CapChannel :=
  if c.trim == t then c else { c with trim := t, trimWas := c.trimWas ++ [(now, c.trim)] }

/-- The state of a channel's trim at sample s (R127). -/
def CapChannel.trimAt (c : CapChannel) (s : Int) : TrimState := match c.trimWas.find? (fun x => s < x.1) with
  | some x => x.2
  | none => c.trim

/-- Are the ADCs of channel n to be on in the mode in force (R126, R334)? -/
def Dev.adcWanted (d : Dev) (n : Nat) : Bool :=
  bit (d.reg R.CAP_CFG) (24 + n / 8) && !(d.mode == .boot || d.mode == .dormant || d.mode == .safe || d.mode == .test)

/-- The trim state that ITRIM_EN and ITRIM_FREEZE give a powered channel (R127). -/
def Dev.trimIdle (d : Dev) : Option TrimState :=
  if !d.is F.CAP_CFG_ITRIM_EN then some .off else if d.is F.CAP_CFG_ITRIM_FREEZE then some .frozen else none

/-- The ADCs of a channel follow ADC_EN and the mode at the boundary that opens turn l (R126), and its trim follows them, ITRIM_EN and
ITRIM_FREEZE (R127). -/
def adcBoundary (l n : Nat) (d : Dev) : Dev :=
  let c := d.capCh n
  let on := d.adcWanted n
  let now := d.nowSample
  let c := match c.corrNew with
    | some x => { c with corr := x, corrNew := none }
    | none => c
  let c := { c with trimWas := c.trimWas.filter (fun x => now < x.1 + 2 * 65536) }
  let c := if d.is F.CAP_CFG_ITRIM_EN then c else { c with corr := List.replicate 48 0, est := none }
  let c :=
    if on && !c.adcOn then
      { c.setTrim now (d.trimIdle.getD .converging) with
        adcOn := true, st := .warmup, validFrom := turnAdd l 1 * 65536, calm := 0, limit := List.replicate 16 0 }
    else if !on && c.adcOn then
      { c.setTrim now .off with adcOn := false, offFrom := now, est := none, st := if c.st == .recut && !c.segs.isEmpty then .recut else .off }
    else if on then
      (match d.trimIdle with
      | some t => c.setTrim now t
      | none => if c.trim == .off || c.trim == .frozen then { c.setTrim now .converging with calm := 0 } else c)
    else c
  if c == d.capCh n then d else d.setCapCh n c

/-- A landing changed W or S: every channel that writes samples or holds old segments is recut from now on (R131). -/
def recutLanded (d : Dev) : Dev :=
  let d := { d with cap := { d.cap with recutting := true } }
  (List.range 64).foldl (fun d n =>
    let c := d.capCh n
    if c.adcOn || !c.segs.isEmpty then d.setCapCh n { c with st := .recut, recutFrom := d.nowSample } else d) d

/-- A warm channel has written W valid samples (R126). -/
def warmupDone (n : Nat) (d : Dev) : Dev :=
  let c := d.capCh n
  let (w, _) := d.geomAt d.clk.turn
  if c.st == .warmup && c.validFrom + w ≤ d.nowSample then judgeRecut (d.setCapCh n { c with st := .run }) else d

/-- A recut channel has released its old segments and filled its new ring (R131). -/
def recutComplete (n : Nat) (d : Dev) : Dev :=
  let c := d.capCh n
  let (w, _) := d.geomAt d.clk.turn
  if c.st != .recut || !c.segs.isEmpty then d
  else if !c.adcOn then judgeRecut (d.setCapCh n { c with st := .off })
  else if max c.recutFrom c.validFrom + w ≤ d.nowSample then judgeRecut (d.setCapCh n { c with st := .run })
  else d

/-! ### The interleave trim (R127, R461) -/

/-- The range of correction i of a sub-converter in 1/64 step: offset ±64 codes in 1/16 code, gain ±3 % in 2^-14, skew
±10 ps in 0.1 ps (R127). -/
def trimLimit (i : Nat) : Int := if i % 3 == 0 then 1024 * 64 else if i % 3 == 1 then 491 * 64 else 100 * 64

/-- The channel whose turn it is in the sweep, where its trim runs (R127). -/
def trimTarget (n : Nat) (d : Dev) : Option Nat :=
  if (d.capCh n).trim == .converging || (d.capCh n).trim == .settled then some n else none

/-- New estimates of a channel's corrections, in 1/64 step (R127). -/
def trimApply (n : Nat) (est : List Int) (d : Dev) : Dev :=
  let c := d.capCh n
  let new := (List.range 48).map (fun i => clampInt (-(trimLimit i)) (trimLimit i) (est.getD i 0))
  let calm := (List.range 48).all (fun i => ((new.getD i 0 - c.corr.getD i 0).natAbs) < 8)
  let k := if calm then c.calm + 1 else 0
  let at_ (s : Nat) : Bool := (List.range 3).any (fun j => (new.getD (3 * s + j) 0).natAbs == (trimLimit j).natAbs)
  let lim := (List.range 16).map (fun s => if at_ s then c.limit.getD s 0 + 1 else 0)
  let d := d.setCapCh n { (if 4 ≤ k then c.setTrim d.nowSample .settled else c) with corrNew := some new, calm := k, limit := lim, est := none }
  let d := (List.range 16).foldl (fun d s => if lim.getD s 0 == 4 then
      report (4 * n + 2) 0x08 7 0 (s / 8 * 8 + s % 8) (some (.adc n (s / 8) (s % 8))) d else d) d
  judgeTrim { d with cap := { d.cap with trimNext := ((n + 1) % 64, true) } }

/-- The trim of a channel is updated once a CAL pip is granted; an update that waits for it keeps its estimates (R127). -/
def itrimUpdate (n : Nat) (est : List Int) (d : Dev) : Dev :=
  if d.cap.trimNext.2 || trimTarget d.cap.trimNext.1 d != some n then d
  else
    let est := (d.capCh n).est.getD est
    withPips 0 1 1 (trimApply n est) (d.setCapCh n { d.capCh n with est := some est })

/-! ### Lost triggers (R143) -/

/-- The GAP item of an episode (R192). -/
def gapItem (g : GapEpisode) : Entry :=
  let t := stampFb g.first
  let src := match g.ch with
    | some n => 2 * n + 1
    | none => 130
  { t := t, src := src, words := [
    pack64 [(63, 60, 5), (57, 52, g.ch.getD 0), (51, 51, b2n g.ch.isNone), (50, 48, g.cause), (39, 0, t.t40)],
    pack64 [(63, 32, min g.n (2 ^ 32 - 1)), (31, 0, ((g.last / 2048 - g.first / 2048 + 1) * 2048).toNat)]] }

/-- Emit the episodes that satisfy p, where their FIFO has room (R143). -/
def emitGaps (p : GapEpisode → Bool) (d : Dev) : Dev :=
  d.cap.gaps.foldl (fun d g =>
    let e := gapItem g
    if p g && (g.ch.isNone || fifoWords (kget d.fifos e.src []) + 2 ≤ 512) then
      emitTo e.src e { d with cap := { d.cap with gaps := d.cap.gaps.filter (fun x => !(x == g)) } }
    else d) d

/-- The episodes of turns that have ended are emitted: so that they enter the frames of their own turns, this is done as the
drain of the frame begins, and at once during it (R143, R173; DESIGN CHOICE, log entry 38). -/
def emitPastGaps (d : Dev) : Dev := emitGaps (fun g => g.turn != d.clk.turn) d

/-- A trigger of channel `ch`, or an accept, is lost (R143). Only a lost trigger of a channel raises GAP. -/
def loseTrigger (ch : Option Nat) (cause : Nat) (t : Int) (d : Dev) : Dev :=
  let turn := turnOfFb t
  let same (g : GapEpisode) : Bool := g.ch == ch && g.cause == cause && g.turn == turn
  let gaps := if d.cap.gaps.any same then d.cap.gaps.map (fun g => if same g then { g with first := min g.first t, last := max g.last t, n := g.n + 1 } else g)
    else d.cap.gaps ++ [{ ch := ch, cause := cause, turn := turn, first := t, last := t, n := 1 }]
  let d := { d with cap := { d.cap with gaps := gaps } }
  let d := match ch with
    | some n => count1 (R.CAP_CH_COUNT n (cause + 1)) d
    | none => d
  let d := if ch.isSome then raiseOnce E.CAP_GAP [] d else d
  if d.is F.COL_STATUS_DRAINING then emitPastGaps d else d

/-! ### TRIG_OUT (R149) -/

/-- An event of kind `sel` at time t may drive TRIG_OUT. It is kept as a time of the coarse clock (R514). -/
def trigEvent (sel : Nat) (t : Int) (d : Dev) : Dev :=
  let c := d.clockFb t
  if d.getAt (turnOfFb t) F.CAP_CFG_TRIG_OUT_SEL != sel then d
  else if d.cap.trigOut && c - d.cap.trigLast < 16 * 2048 then { d with cap := { d.cap with trigLast := max d.cap.trigLast c } }
  else { d with cap := { d.cap with trigEvents := d.cap.trigEvents ++ [c] } }

/-- 64 ct after the first waiting event the pin goes high; events less than 16 ct apart make one pulse. -/
def trigOutStart (d : Dev) : Dev :=
  match d.cap.trigEvents with
  | [] => d
  | t :: rest =>
    let (last, keep) := rest.foldl (fun (acc : Int × List Int) x => if x - acc.1 < 16 * 2048 then (max acc.1 x, acc.2) else (acc.1, acc.2 ++ [x])) (t, [])
    { d with cap := { d.cap with trigOut := true, trigLast := last, trigEvents := keep } }

/-- 16 ct after the last event that extended it the pin returns low. -/
def trigOutEnd (d : Dev) : Dev := { d with cap := { d.cap with trigOut := false } }

/-! ### Accepting a trigger (R132, R134, R139) -/

/-- A trigger offered to a channel. -/
structure Trig where
  /-- bit of SRC_EN: 0 DISC_LOW to 7 ARRAY (R132) -/
  src : Nat
  /-- turn of its time before SKEW, whose configuration governs it (R85) -/
  gov : Nat
  /-- its time in fb from turn 0 -/
  t : Int
  /-- NO_LOCAL -/
  noLocal : Bool
  /-- its time came from a TDC unit -/
  tdc : Bool
  /-- class of an accept -/
  cls : Option Nat
  /-- FORCE_WAVE of that class -/
  force : Bool
  deriving DecidableEq, Repr

/-- Priority of a source (R132): 1 is the highest. -/
def srcPrio (src : Nat) : Nat := [1, 2, 4, 3, 5, 6, 7, 7].getD src 7

/-- Is a source accepted in a mode (R132)? Bits 4 TEST and 5 SOFTWARE also in SCAN. -/
def srcMode (m : Mode) (src : Nat) : Bool := m == .capture || m == .hybrid || (m == .scan && (src == 4 || src == 5))

/-- Bits of SRC_EN: 0 DISC_LOW, 1 DISC_HIGH, 2 LEVEL, 3 TRIG_IN, 4 TEST, 5 SOFTWARE, 6 CLUSTER, 7 ARRAY (R132). -/
def srcEnabled (n src t : Nat) (d : Dev) : Bool := nbits (d.getAt t (F.CAP_CH_CFG_SRC_EN n)) src src == 1

/-- A trigger merges into a record (R134). -/
def mergeTrig (g : Segment) (x : Trig) : Segment :=
  let g := { g with
    srcs := g.srcs ||| 2 ^ x.src
    force := g.force || x.force
    cls := match g.cls, x.cls with
      | some a, some b => some (min a b)
      | some a, none => some a
      | none, b => b }
  if g.st == .waiting && srcPrio x.src < g.prio then { g with t := x.t, gov := x.gov, prio := srcPrio x.src, noLocal := x.noLocal, tdc := x.tdc } else g

/-- Offer a trigger to channel n (R126, R131, R132, R134, R135, R139), under the configuration of the turn that governs it (R85). -/
def offerTrigger (n : Nat) (x : Trig) (d : Dev) : Dev :=
  let turn := x.gov
  let c := d.capCh n
  let ts := sampleOf (d.present x.t)
  if !srcMode (d.modeAt turn) x.src || !srcEnabled n x.src turn d || !c.powered ts then d
  else
    let deferred := 6 ≤ x.src
    let near (g : Segment) : Bool := (d.present x.t - d.present g.t).natAbs < 8 * 2048 && !(deferred && g.st == .reading)
    if c.segs.any near then
      let i := c.segs.findIdx near
      count1 (R.CAP_CH_COUNT n 4) (d.setCapCh n { c with segs := listMod c.segs i (fun g => mergeTrig g x) })
    else
      let (w, size) := d.geomAt turn
      let pre := d.getAt turn F.CAP_REC_PRE
      if c.st == .recut && (c.recutFrom : Int) ≤ ts then loseTrigger (some n) 2 x.t d
      else if ts - pre < c.validFrom then count1 (R.CAP_CH_COUNT n 5) d
      else
        match (List.range (segCount w size)).find? (fun j => !c.segs.any (fun g => g.j == j)) with
        | some j =>
          if d.se.off.contains (n / 8) then loseTrigger (some n) 0 x.t d
          else
            let g : Segment := { j := j, t := x.t, pre := pre, post := d.getAt turn F.CAP_REC_POST, w := w, size := size, srcs := 2 ^ x.src,
                                 prio := srcPrio x.src, gov := turn, noLocal := x.noLocal, tdc := x.tdc, cls := x.cls, force := x.force,
                                 untrimmed := c.trimAt ts == .converging }
            let d := count1 (R.CAP_CH_COUNT n 0) (d.setCapCh n { c with segs := c.segs ++ [g] })
            let d := emitGaps (fun y => y.ch == some n) d
            if deferred then d else trigEvent 1 x.t d
        | none => loseTrigger (some n) 0 x.t d

/-- Offer a source to every channel. -/
def offerAll (x : Trig) (d : Dev) : Dev := (List.range 64).foldl (fun d n => offerTrigger n x d) d

/-! ### Immediate sources (R132, R133) -/

/-- Remember an edge or crossing, governed by the configuration of a turn, for R137 and R146. -/
def noteEdge (kind ch : Nat) (t : Int) (turn : Nat) (d : Dev) : Dev :=
  { d with cap := { d.cap with edges := d.cap.edges ++ [{ kind := kind, ch := ch, t := t, turn := turn }] } }

/-- Does the comparator of channel ch produce an edge in period p of the coarse clock, of turn `turn`: is the channel powered and not
blanked (R73, R83)? -/
def Dev.comparatorOn (d : Dev) (ch turn : Nat) (p : Int) : Bool := d.isAt turn (F.AFE_CH_CFG_EN ch) && !d.blanked ch p

/-- An edge of a channel's comparator, sampled at tick `ct` with tap counts `k` (R80, R83, R97, R115, R132). What governs it is the
configuration of its time before SKEW (R85). The second part is true for a leading edge that the unit kept. -/
def comparatorEdge (ch : Nat) (high trailing : Bool) (ct : Nat) (k : List Nat) (d : Dev) : Dev × Bool :=
  let u := 2 * ch + b2n high
  if 16384 ≤ ct then
    (if d.comparatorOn ch d.clk.turn (d.clk.ctBase + ct : Nat) then { d with clk := { d.clk with stretchLost := d.clk.stretchLost + 1 } } else d, false)
  else
    let uncal := calState u d != 2
    match edgeStamp u d.clk.turn ct k d with
    | none => (if trailing && d.comparatorOn ch d.clk.turn (d.clk.ctBase + ct : Nat) then trailUnresolved u d else d, false)
    | some raw =>
      let turn := turnOfFb raw
      if !d.comparatorOn ch turn (d.periodOf raw) then (d, false)
      else
        let t := raw + d.skewAt turn ch
        let kept := !d.mergesEdge u trailing t
        let d := if kept then freqEdge u trailing t uncal d else d
        if trailing then (trailEdge u turn t uncal d, false)
        else
          let d := leadEdge u turn t uncal d
          if !kept then (d, false)
          else
            let d := noteEdge (b2n high) ch t turn d
            (offerTrigger ch { src := b2n high, t := t, gov := turn, noLocal := false, tdc := true, cls := none, force := false } d, true)

/-- An edge on TRIG_IN (R119, R132). -/
def trigInEdge (trailing : Bool) (ct : Nat) (k : List Nat) (d : Dev) : Dev :=
  let (d, t) := auxEdge auxTrig trailing ct k d
  match t with
  | none => d
  | some t => if trailing then d else
    offerAll { src := 3, t := t, gov := turnOfFb t, noLocal := false, tdc := false, cls := none, force := false } d

/-- The moving mean f[i] of the LEVEL source over the last 2^F HG codes, the newest first (R133). -/
def levelMean (f : Nat) (codes : List Nat) : Rat := ((codes.take (2 ^ f)).foldl (· + ·) 0 : Nat) / (2 ^ f : Nat)

/-- The tracking baseline of the LEVEL source after a sample whose moving mean is f: it is held while the signal is at or above the
threshold (R133). -/
def levelBase (thr : Nat) (base f : Rat) : Rat := if f < base + thr then base + (f - base) / 4096 else base

/-- The filtered HG signal of channel n crosses baseline + THR at sample j of this turn (R133). The mean and the baseline run in the
channel's sample path; fPrev and fCur are f[j−1] − base and f[j] − base, and `low` is the least f[i] − base since the crossing before,
in 1/4 096 code: it arms the source again. In the stretched interval nothing is stamped (R58). -/
def levelCrossing (n j : Nat) (fPrev fCur low : Int) (d : Dev) : Dev :=
  let c := d.capCh n
  let turn := d.clk.turn
  let thr : Int := (d.get (F.CAP_CH_CFG_LEVEL_THR n) * 4096 : Nat)
  let armed := c.armed || low < thr - 8 * 4096
  if !c.adcOn || c.st == .off || 65536 ≤ j || !(fPrev < thr && thr ≤ fCur) then d
  else if !armed then d
  else
    let d := d.setCapCh n { c with armed := false }
    let f := d.get F.CAP_CFG_LEVEL_FILT
    let frac := roundDiv ((thr - fPrev) * 512) (fCur - fPrev).toNat
    let t : Int := (turn * 2 ^ 25 : Nat) + ((j : Int) - 1) * 512 + frac - ((2 ^ f - 1) * 256 : Nat)
    let d := noteEdge 2 n t (turnOfFb t) d
    offerTrigger n { src := 2, t := t, gov := turnOfFb t, noLocal := false, tdc := false, cls := none, force := false } d

/-- A test-pulse launch offers the TEST source (R87, R132). -/
def testPulseLaunch (d : Dev) : Dev :=
  let (d, fired) := tpLaunch d
  if !fired then d
  else
    let t : Int := ((d.clk.turn * 16384 + d.clk.ct) * 2048 : Nat)
    trigEvent 4 t (offerAll { src := 4, t := t, gov := d.clk.turn, noLocal := true, tdc := false, cls := none, force := false } d)

/-- A write of SW_TRIG: the trigger fires at the next pip boundary (R132). -/
def swTrig (d : Dev) : Dev := if srcMode d.mode 5 then { d with cap := { d.cap with swPend := true } } else d

/-- At a pip boundary a waiting software trigger fires on the channels of SW_MASK (R132). -/
def swFire (d : Dev) : Dev :=
  if !d.cap.swPend then d
  else
    let d := { d with cap := { d.cap with swPend := false } }
    let t : Int := ((d.clk.turn * 16384 + d.clk.ct) * 2048 : Nat)
    let mask := (d.reg R.CAP_SW_MASK_LO).toNat + (d.reg R.CAP_SW_MASK_HI).toNat * 2 ^ 32
    (List.range 64).foldl (fun d n => if nbits mask n n == 1 then
      offerTrigger n { src := 5, t := t, gov := d.clk.turn, noLocal := true, tdc := false, cls := none, force := false } d else d) d

/-! ### Deferred acceptance (R136 to R138) -/

/-- Absolute number of a tick. -/
def tickNo (turn pip : Nat) : Nat := turn * 1024 + pip

/-- The ticks that an accept for tick p searches: those of the coarsened primitive that held it (R136, R137). -/
def ticksFor (p : Nat) (d : Dev) : List Nat :=
  match d.cap.sent.find? (fun x => p ≤ x.1 && x.1 < p + x.2) with
  | some (q, span) => (List.range span).map (fun i => q - i)
  | none => [p]

/-- Tick of a time. -/
def tickOf (t : Int) : Int := t / 32768

/-- The earliest remembered edge of a kind on a channel in some ticks (R137). -/
def earliestEdge (kind ch : Nat) (ticks : List Nat) (d : Dev) : Option CapEdge :=
  (d.cap.edges.filter (fun e => e.kind == kind && e.ch == ch && ticks.any (fun q => tickOf e.t == (q : Int)))).foldl
    (fun m e => match m with
      | none => some e
      | some x => if e.t < x.t then some e else some x) none

/-- The bitmap of a tick (R146); the PRIM_SRC that counts is that of an event's time before SKEW (R85). -/
def primBitmap (turn pip : Nat) (d : Dev) : Nat :=
  let p := tickNo turn pip
  let hit (n : Nat) : Bool := d.cap.edges.any (fun e => e.ch == n && tickOf e.t == (p : Int) &&
    nbits (d.getAt e.turn (F.CAP_CH_CFG_PRIM_SRC n)) e.kind e.kind == 1)
  ((List.range 64).filter hit).foldl (fun a n => a + 2 ^ n) 0

/-- Are primitives formed for a tick of a turn (R146)? -/
def primForms (turn : Nat) (d : Dev) : Bool := primMode (d.modeAt turn) && d.isAt turn F.CAP_CFG_PRIM_EN

/-- The own bitmap of a tick as an accept finds it (R136): the closed one, or before it closes the events of the tick so far
(DESIGN CHOICE, log entry 38). -/
def ownBitmap (q : Nat) (d : Dev) : Nat :=
  match kfind d.cap.maps q with
  | some b => b
  | none => if primForms (q / 1024) d then primBitmap (q / 1024) (q % 1024) d else 0

/-- A time of `turn` that the Burjor assigns: where it would fall into the part of a shortened STEPPED turn that does not occur, the
last instant of that turn that occurs (R514). -/
def clampTime (turn : Nat) (t : Int) (d : Dev) : Int :=
  if d.clk.stepTurn == some turn && 0 < d.clk.stepF then min t ((turn + 1) * 2 ^ 25 - 1 - d.clk.stepF) else t

/-- An accept that is timely reaches its channels (R136, R137). -/
def acceptTimely (a : Accept) (d : Dev) : Dev :=
  let p := tickNo a.turn a.pip
  let ticks := ticksFor p d
  let map := ticks.foldl (fun m q => m ||| ownBitmap q d) 0
  let src := if a.array then 7 else 6
  let scope := d.getAt a.turn (F.CAP_CLASS_CFG_SCOPE a.cls)
  let force := d.isAt a.turn (F.CAP_CLASS_CFG_FORCE_WAVE a.cls)
  let reach (n : Nat) : Bool := srcEnabled n src a.turn d && d.isAt a.turn (F.CAP_CLASS_CFG_ACCEPT_EN a.cls) &&
    (if scope == 0 then true else if scope == 1 then nbits map n n == 1 else nbits map (n / 8 * 8 + 7) (n / 8 * 8) != 0)
  let chs := (List.range 64).filter reach
  if chs.isEmpty then count1 (R.CAP_COUNT 4) d
  else
    chs.foldl (fun d n =>
      let e := [0, 1, 2].findSome? (fun k => earliestEdge k n ticks d)
      match e with
      | some e => offerTrigger n { src := src, t := e.t, gov := e.turn, noLocal := false, tdc := e.kind < 2, cls := some a.cls, force := force } d
      | none =>
        let t : Int := ((a.turn * 16384 + a.pip * 16 + d.getAt a.turn F.CAP_DEC_ACCEPT_OFFSET) * 2048 : Nat)
        offerTrigger n { src := src, t := clampTime a.turn t d, gov := a.turn, noLocal := true, tdc := false, cls := some a.cls, force := force } d) d

/-- Capture decodes an accept (R138). -/
def acceptDecoded (a : Accept) (d : Dev) : Dev :=
  let d := count1 (R.CAP_COUNT (if a.array then 3 else 2)) d
  if !primMode (d.modeAt a.turn) then d
  else
    let now := d.clk.turn * 16384 + d.clk.ct
    let first := a.turn * 16384 + a.pip * 16
    let begin_ := d.present (first * 2048 : Nat) / 2048
    let d := trigEvent 2 (now * 2048 : Nat) d
    if (now : Int) < begin_ + 16 then { d with cap := { d.cap with holds := d.cap.holds ++ [a] } }
    else if begin_ + d.getAt a.turn F.CAP_DEC_DEC_WIN < (now : Int) then
      let d := raise E.CAP_ACCEPT_LATE [] (count1 (R.CAP_COUNT 5) d)
      loseTrigger none 3 (first * 2048 : Nat) d
    else acceptTimely a d

/-- Of two held accepts, does `a` name an earlier tick (R138)? -/
def Dev.tickBefore (d : Dev) (a b : Accept) : Bool :=
  d.present (tickNo a.turn a.pip * 32768 : Nat) < d.present (tickNo b.turn b.pip * 32768 : Nat)

/-- The held accept whose tick is the earliest, the first decoded of those for one tick (R138). -/
def Dev.holdNext (d : Dev) : Option Accept := d.cap.holds.foldl (fun m a => match m with
  | none => some a
  | some b => if d.tickBefore a b then some a else some b) none

/-- 8 ct after its tick has ended, a held accept is handled as timely (R138). -/
def acceptHoldRelease (d : Dev) : Dev :=
  match d.holdNext with
  | none => d
  | some a => acceptTimely a { d with cap := { d.cap with holds := d.cap.holds.erase a } }

/-! ### The copy unit (R128, R140, R142) -/

/-- Index of the WAITING segment with the earliest trigger time (R140). -/
def nextWaiting (segs : List Segment) : Option Nat :=
  (List.range segs.length).foldl (fun m i =>
    match segs[i]? with
    | none => m
    | some g => if g.st != .waiting then m else (match m with
      | none => some i
      | some k => match segs[k]? with
        | some h => if g.t < h.t then some i else some k
        | none => some i)) none

/-- The copy unit of channel n starts its next copy, or abandons it (R140). -/
def copyStart (n : Nat) (d : Dev) : Dev :=
  let c := d.capCh n
  if c.segs.any (fun g => g.st == .copying) then d
  else
    match nextWaiting c.segs with
    | none => d
    | some i =>
      match c.segs[i]? with
      | none => d
      | some g =>
        let ts := sampleOf (d.present g.t)
        if (d.nowSample : Int) < ts + g.post then d
        else if (g.w : Int) - 32 < (d.nowSample : Int) - (ts - g.pre) then
          loseTrigger (some n) 1 g.t (d.setCapCh n { c with segs := c.segs.eraseIdx i })
        else d.setCapCh n { c with segs := listMod c.segs i (fun g => { g with st := .copying }) }

/-- The code of sample i of a record once the samples of isolated sub-converters are replaced by the mean of the samples before and after
them, rounded to nearest, ties up (R128); `code` gives the codes taken, also of the samples that the ring holds beside the record. -/
def interpolated (mask : Nat) (first : Int) (code : Int → Nat) (i : Nat) : Nat :=
  let k := ((first + i) % 8).toNat
  if nbits mask k k == 0 then code i else (code ((i : Int) - 1) + code (i + 1) + 1) / 2

/-- Does a record of `len` samples from `first` on contain a replaced sample (R128)? -/
def hasReplaced (mask : Nat) (first : Int) (len : Nat) : Bool :=
  (List.range len).any (fun i => nbits mask ((first + i) % 8).toNat ((first + i) % 8).toNat == 1)

/-- Fabric address of a word of 8 samples of a channel: words 0 to 2 047 HG, then LG (R373). -/
def acqAddr (n w : Nat) : Nat := 0x20000000 + 0xC000 * n + 12 * w

/-- The word of a record's sample in the acquisition memory of its channel, HG samples counted from 0 and LG samples from L (R373). -/
def Segment.word (g : Segment) (j : Nat) : Nat :=
  let pos (i : Nat) : Nat := g.w + g.j * g.size + i
  if j < g.len then pos j / 8 else 2048 + pos (j - g.len) / 8

/-- Words of a segment fail parity, found by the copy unit or by the slice engine (R142): each is reported, and every sample of the
record that lies in one is poisoned. -/
def segmentParity (n : Nat) (g : Segment) (bad : List Nat) (d : Dev) : List Nat × Dev :=
  let words := ((bad.filter (· < 2 * g.len)).map g.word).eraseDups
  ((List.range (2 * g.len)).filter (fun j => words.contains (g.word j) || g.bad.contains j),
    words.foldl (fun d w => uncorrectableNote 2 (n * 4096 + w) 1 0x06 d) d)

/-- A copy is done (R140): the readings of both ADCs in LSBs above the pedestal, those of the record's samples first and then those of
the sample before and the sample after it, and the samples whose words failed parity (R142). -/
def copyDone (n : Nat) (hg lg : List Int) (bad : List Nat) (d : Dev) : Dev :=
  let c := d.capCh n
  let i := c.segs.findIdx (fun g => g.st == .copying)
  match c.segs[i]? with
  | none => d
  | some g =>
    let len := g.len
    let first := sampleOf g.t - g.pre
    let code (h : Bool) (l : List Int) (i : Int) : Nat :=
      sampleCode h n (((first + i) / 65536) % (turnMod : Int)).toNat (l.getD (if i < 0 then len else if i < len then i.toNat else len + 1) 0) d
    let codes (h : Bool) (l : List Int) : List Nat := (List.range len).map (interpolated (adcMask n (b2n !h) d) first (code h l))
    let replaced (gain : Nat) : Bool := hasReplaced (adcMask n gain d) first len
    let (poisoned, d') := segmentParity n g bad d
    d'.setCapCh n { c with segs := listMod c.segs i (fun g => { g with
      st := .ready, hg := codes true hg, lg := codes false lg, bad := poisoned, interp := replaced 0 || replaced 1, readyCt := d'.nowCt }) }

/-! ### Primitives (R146 to R148) -/

/-- Characters that a tick adds to the bucket, by rate code (R148). -/
def primGain (rate : Nat) : Nat := if rate == 2 then 8 else if rate == 1 then 4 else 2

/-- The credit bucket of the first lane of an upstream port (R147, R148). -/
def Dev.bucketOf (d : Dev) (port : Nat) : Nat := if port == 0 then d.cap.bucket.1 else d.cap.bucket.2

/-- Set that bucket. -/
def Dev.setBucket (d : Dev) (port v : Nat) : Dev :=
  { d with cap := { d.cap with bucket := if port == 0 then (v, d.cap.bucket.2) else (d.cap.bucket.1, v) } }

/-- A tick's credit of a port's bucket has been added (R148). -/
def Dev.bucketFill (d : Dev) (port : Nat) : Nat := min 32 (d.bucketOf port + primGain (d.get (F.LNK_PORT_STATUS_RATE port)))

/-- The port whose first lane carries primitives: UA while it is active, UB otherwise (R147). -/
def Dev.primPort (d : Dev) : Nat := if d.upActive == some 0 then 0 else 1

/-- Body words of a PRIMITIVE (R219). -/
def primBody (kind : Nat) (turn pip span map : Nat) : List Word :=
  [pack32 [(31, 29, kind), (28, 28, b2n (decide (1 < span))), (27, 13, turn % 32768), (12, 3, pip), (2, 0, span - 1)],
    toWord (map / 2 ^ 32), toWord map]

/-- The bitmap of a tick closes on a leaf (R146 to R148). -/
def primLeaf (turn pip : Nat) (d : Dev) : Dev :=
  let b := primBitmap turn pip d
  let p := tickNo turn pip
  let port := d.primPort
  let c := d.cap
  let bucket := d.bucketFill port
  let d := { d with cap := { c with maps := kset c.maps p b } }.setBucket port bucket
  if c.held == 0 && popcount b 64 < d.getAt turn F.CAP_CFG_PRE_MULT then d
  else
    let held := c.held ||| b
    let span := c.span + 1
    if 16 ≤ bucket then
      let up := d.get (F.LNK_LANE_STATUS_STAGE (4 * port)) == 5
      let d := d.setBucket port (bucket - 16)
      let d := { d with
        cap := { d.cap with held := 0, span := 0, sent := d.cap.sent ++ [(p, span)] }
        outShort := if up then d.outShort ++ [{ port := port, body := primBody 1 turn pip span held }] else d.outShort }
      let d := count1 (R.CAP_COUNT 0) d
      let d := if 1 < span then raiseOnce E.CAP_COARSENED [] (count (R.CAP_COUNT 1) span d) else d
      trigEvent 3 ((p + 1) * 32768 : Nat) d
    else { d with cap := { d.cap with held := held, span := span } }

/-! ### Boundaries -/

/-- The memory of a powered channel is written over within a turn, so a flip armed for it is taken; what it does to a record comes with
the samples of COPY_DONE (R142, R373, R393). -/
def acqFlip (d : Dev) : Dev :=
  if d.is F.MEM_FLIP_CTRL_ARM && (List.range 64).any (fun n => d.adcWanted n && d.flipArmed 2 (0x20000000 + 0xC000 * n) 0xC000) then
    d.put F.MEM_FLIP_CTRL_ARM 0
  else d

/-- What capture does at the boundary that opens turn l: gaps of the turn that ends, old edges, the ADCs (R126, R143). -/
def capBoundary (l : Nat) (d : Dev) : Dev :=
  let d := emitGaps (fun _ => true) (acqFlip d)
  let old : Int := (((l - 2) * 2 ^ 25 : Nat) : Int)
  let d := { d with cap := { d.cap with
    edges := d.cap.edges.filter (fun e => old ≤ d.present e.t)
    maps := d.cap.maps.filter (fun p => old ≤ d.present ((p.1 * 32768 : Nat) : Int))
    sent := d.cap.sent.filter (fun p => old ≤ d.present ((p.1 * 32768 : Nat) : Int))
    -- the sweep passes over a channel whose trim does not run in its turn
    trimNext := (if d.cap.trimNext.2 || (trimTarget d.cap.trimNext.1 d).isSome then d.cap.trimNext.1 else (d.cap.trimNext.1 + 1) % 64, false) } }
  judgeRecut (judgeTrim ((List.range 64).foldl (fun d n => adcBoundary l n d) d))

/-! ### Commands -/

/-- TEST_PULSE_LAUNCH (R87). -/
def execTestPulseLaunch (s : State) : Host.Outcome State Fault Refusal := onDev testPulseLaunch s
/-- TRIG_IN_EDGE (R119). -/
def execTrigInEdge (trailing : Bool) (ct : Nat) (k : List Nat) (s : State) : Host.Outcome State Fault Refusal := onDev (trigInEdge trailing ct k) s
/-- WARMUP_DONE (R126). -/
def execWarmupDone (ch : Nat) (s : State) : Host.Outcome State Fault Refusal := onDev (warmupDone ch) s
/-- ITRIM_UPDATE (R127). -/
def execItrimUpdate (ch : Nat) (corr : List Int) (s : State) : Host.Outcome State Fault Refusal := onDev (itrimUpdate ch corr) s
/-- LEVEL_CROSSING (R133). -/
def execLevelCrossing (ch sample : Nat) (f : Int × Int) (low : Int) (s : State) : Host.Outcome State Fault Refusal :=
  onDev (levelCrossing ch sample f.1 f.2 low) s
/-- ACCEPT_HOLD_RELEASE (R138). -/
def execAcceptHoldRelease (s : State) : Host.Outcome State Fault Refusal := onDev acceptHoldRelease s
/-- COPY_START (R140). -/
def execCopyStart (ch : Nat) (s : State) : Host.Outcome State Fault Refusal := onDev (copyStart ch) s
/-- RECUT_COMPLETE (R131). -/
def execRecutComplete (ch : Nat) (s : State) : Host.Outcome State Fault Refusal := onDev (recutComplete ch) s
/-- TRIG_OUT_PULSE_START (R149). -/
def execTrigOutPulseStart (s : State) : Host.Outcome State Fault Refusal := onDev trigOutStart s
/-- TRIG_OUT_PULSE_END (R149). -/
def execTrigOutPulseEnd (s : State) : Host.Outcome State Fault Refusal := onDev trigOutEnd s

end Sys2Proof.Machine
end

