-- ==== Sys2Proof/Machine/Codec.lean ====
section
/-! DEFINITION. The rill codec: blocks, item table, predictors, Rice groups, COMPRESSED_BLOCK items, recoding of a frame,
decoding and the checks of a block (R251 to R261, R263, R265, R267). -/

namespace Sys2Proof.Machine

/-! ### Bits -/

/-- The low n bits of a number, most significant first. -/
def msb : Nat → Nat → List Bool
  | 0, _ => []
  | n + 1, v => (v / 2 ^ n % 2 == 1) :: msb n v

/-- Value of bits, most significant first. -/
def bitsVal (l : List Bool) : Nat := l.foldl (fun a b => 2 * a + b2n b) 0

/-- Bytes from bits, zero bits padding the last (R255, R257). -/
def packBits : Nat → List Bool → List Byte
  | 0, _ => []
  | _ + 1, [] => []
  | f + 1, l => BitVec.ofNat 8 (bitsVal ((l ++ List.replicate 8 false).take 8)) :: packBits f (l.drop 8)

/-- Bits of bytes, most significant first. -/
def byteBits (bs : List Byte) : List Bool := bs.flatMap (fun b => msb 8 b.toNat)

/-! ### WAVE_DATA items (R190, R252) -/

/-- The code values of a WAVE_DATA item (R190). -/
def waveValues (w : List Word64) : List Nat :=
  let h := w.headD 0
  let all := [wbits h 23 12, wbits h 11 0] ++ (w.drop 1).flatMap (fun x => [wbits x 59 48, wbits x 47 36, wbits x 35 24, wbits x 23 12, wbits x 11 0])
  all.take (wbits h 31 25)

/-- Samples that an item carries (R252). -/
def waveSamples (w : List Word64) : Nat :=
  let h := w.headD 0
  if wbits h 47 46 == 2 then wbits h 31 25 / 2 else wbits h 31 25

/-- A run of WAVE_DATA items is well formed (R252). The item rebuilt from its own fields and values is itself, so reserved
bits and unused slots are 0 and NS agrees with NW. -/
def wellFormedRun : Option (Nat × Nat) → Nat → List (List Word64) → Bool
  | _, _, [] => true
  | key, start, w :: r =>
    let h := w.headD 0
    let g := wbits h 47 46
    let ns := wbits h 31 25
    let k := (wbits h 53 48, wbits h 58 58)
    let ok := g ≤ 2 && 1 ≤ ns && ns ≤ 77 && wbits h 45 32 == start && (g != 2 || ns % 2 == 0) &&
      w == waveItem (wbits h 59 59 == 1) (wbits h 58 58 == 1) (wbits h 53 48) g (wbits h 45 32) (waveValues w) &&
      (match key with
      | some k' => k == k'
      | none => true)
    ok && wellFormedRun (some k) (start + waveSamples w) r

/-- Cut a run into blocks of at most 4 096 raw bytes (R253). -/
def cutBlocks (run : List (List Word64)) : List (List (List Word64)) :=
  let step (acc : List (List (List Word64)) × List (List Word64) × Nat) (w : List Word64) : List (List (List Word64)) × List (List Word64) × Nat :=
    let n := 8 * w.length
    if 4096 < acc.2.2 + n then (acc.1 ++ [acc.2.1], [w], n) else (acc.1, acc.2.1 ++ [w], acc.2.2 + n)
  let r := run.foldl step ([], [], 0)
  if r.2.1.isEmpty then r.1 else r.1 ++ [r.2.1]

/-! ### Streams and residuals (R256, R257) -/

/-- Every second element, from the first. -/
def evens {α : Type} : List α → List α
  | [] => []
  | [x] => [x]
  | x :: _ :: r => x :: evens r

/-- HG and LG values of an item (R256). -/
def itemStreams (w : List Word64) : List Nat × List Nat :=
  let v := waveValues w
  match wbits (w.headD 0) 47 46 with
  | 0 => (v, [])
  | 1 => ([], v)
  | _ => (evens v, evens (v.drop 1))

/-- The HG and LG streams of a block (R256). -/
def blockStreams (items : List (List Word64)) : List Nat × List Nat :=
  (items.flatMap (fun w => (itemStreams w).1), items.flatMap (fun w => (itemStreams w).2))

/-- Prediction from the first value, the last and the one before it, where there is one (R256). -/
def predict (pred : Nat) (x0 last : Int) (last2 : Option Int) : Int :=
  if pred == 0 then x0
  else if pred == 1 then last
  else match last2 with
    | some y => 2 * last - y
    | none => x0

/-- Zig-zag (R256). -/
def zigzag (e : Int) : Nat := if 0 ≤ e then (2 * e).toNat else (-2 * e - 1).toNat
def unzigzag (z : Nat) : Int := if z % 2 == 0 then (z / 2 : Nat) else -((z / 2 : Nat) : Int) - 1

/-- Residuals z[1] onward of a stream (R256). -/
def residuals (pred : Nat) (x0 last : Int) (last2 : Option Int) : List Nat → List Nat
  | [] => []
  | x :: r => zigzag ((x : Int) - predict pred x0 last last2) :: residuals pred x0 x (some last) r

/-- The code of one residual (R257). -/
def riceCode (k z : Nat) : List Bool :=
  let q := z >>> k
  if q < 16 then List.replicate q true ++ false :: msb k z else List.replicate 16 true ++ msb 14 z

/-- Bits of the code of one residual. -/
def riceLen (k z : Nat) : Nat := if z >>> k < 16 then (z >>> k) + 1 + k else 30

/-- The k of a group with the fewest bits, the lowest on a tie (R258). -/
def bestK (g : List Nat) : Nat :=
  let len (k : Nat) : Nat := g.foldl (fun a z => a + riceLen k z) 0
  (List.range 14).foldl (fun b k => if len k < len b then k else b) 0

/-- The groups of 16 of a stream (R257). -/
def codeGroups : Nat → List Nat → List Bool
  | 0, _ => []
  | _ + 1, [] => []
  | f + 1, l =>
    let g := l.take 16
    let k := bestK g
    msb 4 k ++ g.flatMap (riceCode k) ++ codeGroups f (l.drop 16)

/-- One stream under a predictor (R256, R257). -/
def codeStream (pred : Nat) (s : List Nat) : List Bool :=
  match s with
  | [] => []
  | x :: r => if pred == 3 then s.flatMap (msb 12) else msb 12 x ++ codeGroups (r.length + 1) (residuals pred x x none r)

/-- The data section of a block under a predictor (R256). -/
def dataSection (pred : Nat) (s : List Nat × List Nat) : List Bool := codeStream pred s.1 ++ codeStream pred s.2

/-- The predictor of a block (R258). -/
def choosePred (s : List Nat × List Nat) : Nat :=
  let len (p : Nat) : Nat := (dataSection p s).length
  let best := if len 1 < len 0 then 1 else 0
  let best := if len 2 < len best then 2 else best
  if len 3 < len best then 3 else best

/-- The bytes of a block (R254, R255, R259). -/
def encodeBlock (items : List (List Word64)) : List Byte :=
  let s := blockStreams items
  let pred := choosePred s
  let table := items.flatMap (fun w =>
    let h := w.headD 0
    msb 2 (wbits h 47 46) ++ msb 7 (wbits h 31 25) ++ msb 1 (wbits h 59 59))
  let tableBytes := packBits (table.length + 1) table
  let data := dataSection pred s
  let dataBytes := packBits (data.length + 1) data
  let h0 := (items.headD []).headD 0
  let raw := items.flatMap (fun w => w.flatMap wordBytes)
  let hdr := msb 13 raw.length ++ msb 12 (12 + tableBytes.length + dataBytes.length) ++ msb 2 pred ++ msb 6 (wbits h0 53 48) ++
    msb 10 items.length ++ msb 14 (wbits h0 45 32) ++ msb 1 (wbits h0 58 58) ++ msb 6 0 ++ msb 32 (crc32c raw)
  packBits 13 hdr ++ tableBytes ++ dataBytes

/-- A word from bytes in wire order, zero bytes after the last (R180, R191). -/
def wireWord (bs : List Byte) : Word64 := BitVec.ofNat 64 (bytesNat ((bs ++ List.replicate 8 0).take 8))

/-- Words from bytes in wire order. -/
def wireWords : Nat → List Byte → List Word64
  | 0, _ => []
  | _ + 1, [] => []
  | f + 1, bs => wireWord bs :: wireWords f (bs.drop 8)

/-- COMPRESSED_BLOCK items that carry the bytes of a block (R191, R260). -/
def blockItems : Nat → Bool → Bool → Bool → Nat → Nat → List Byte → List (List Word64)
  | 0, _, _, _, _, _, _ => []
  | f + 1, first, poison, late, ch, t40, bs =>
    let ws := wireWords 15 bs
    let rest := bs.drop 120
    (pack64 [(63, 60, 0xB), (59, 59, b2n poison), (58, 58, b2n late), (57, 54, ws.length), (53, 48, ch), (47, 47, b2n first), (46, 46, b2n rest.isEmpty),
      (39, 0, t40)] :: ws) :: (if rest.isEmpty then [] else blockItems f false poison late ch t40 rest)

/-- The COMPRESSED_BLOCK items of a run (R253, R260). -/
def codeRun (t40 : Nat) (run : List (List Word64)) : List (List Word64) :=
  (cutBlocks run).flatMap (fun items =>
    let h0 := (items.headD []).headD 0
    blockItems 40 true (items.any (fun w => wbits (w.headD 0) 59 59 == 1)) (wbits h0 58 58 == 1) (wbits h0 53 48) t40 (encodeBlock items))

/-- Words of items. -/
def itemWords (l : List (List Word64)) : Nat := l.foldl (fun a w => a + w.length) 0

/-! ### Recoding a frame (R251, R261) -/

/-- What recoding a frame did. -/
structure Recoded where
  /-- its items -/
  items : List (List Word64) := []
  /-- groups replaced -/
  groups : Nat := 0
  /-- KEPT_RAW -/
  kept : Nat := 0
  /-- PASS_THROUGH -/
  passed : Nat := 0
  /-- WAVE_DATA words replaced -/
  wordsIn : Nat := 0
  /-- COMPRESSED_BLOCK words written -/
  wordsOut : Nat := 0
  deriving DecidableEq, Repr

/-- Type of an item. -/
def itemType (w : List Word64) : Nat := wbits (w.headD 0) 63 60

/-- Recode the items of a frame, group by group (R252, R261). -/
def recodeItems : Nat → List (List Word64) → Recoded → Recoded
  | 0, _, r => r
  | _ + 1, [], r => r
  | f + 1, w :: rest, r =>
    if itemType w != 3 then recodeItems f rest { r with items := r.items ++ [w] }
    else
      let run := rest.takeWhile (fun x => itemType x == 4)
      let after := rest.drop run.length
      if run.isEmpty then recodeItems f after { r with items := r.items ++ [w] }
      else if !wellFormedRun none 0 run then recodeItems f after { r with items := r.items ++ w :: run, passed := r.passed + 1 }
      else
        let out := codeRun (wbits (w.headD 0) 39 0) run
        if itemWords out < itemWords run then
          let head := w.set 1 (wset ((w.drop 1).headD 0) 23 12 out.length)
          recodeItems f after { r with
            items := r.items ++ head :: out
            groups := r.groups + 1
            wordsIn := r.wordsIn + itemWords run
            wordsOut := r.wordsOut + itemWords out }
        else recodeItems f after { r with items := r.items ++ w :: run, kept := r.kept + 1 }

/-- Recode a whole checked frame: its words and what was done. A cascade frame passes unchanged (R251). -/
def recodeFrame (ws : List Word64) : List Word64 × Recoded :=
  let items := (frameItems ws.length 0 ws).map (·.2)
  let body := (items.drop 1).dropLast
  if itemType (body.headD []) == 0xA then (ws, {})
  else
    let r := recodeItems (body.length + 1) body {}
    if r.groups == 0 then (ws, r)
    else
      let late := (r.items.filter (fun w => wbits (w.headD 0) 58 58 == 1)).length
      (withTail (items.headD [] ++ r.items.flatMap id) (wbits (ws.headD 0) 47 0) late r.items.length, r)

/-- Words of the recoded chain once the items that these words begin have come as far as they have: whole items only, and a run of
WAVE_DATA items once it has ended (R262). A frame that is not recoded writes none. -/
def recodedSoFar (ws : List Word64) : Nat :=
  let items := ((frameItems ws.length 0 ws).map (·.2)).dropLast
  let body := (items.drop 1)
  if body.isEmpty || itemType (body.headD []) == 0xA then 0
  else
    let open_ := (body.reverse.takeWhile (fun w => itemType w == 4)).length
    itemWords (recodeItems (body.length + 1) (body.take (body.length - open_)) {}).items + 3

/-! ### Decoding (R263, R265) -/

/-- Failures of a block, as the results of JOB_STATUS name them (R265). -/
inductive BlockFail where
  | expansion
  | crcFail
  | format
  deriving DecidableEq, Repr

/-- The header of a block (R254). -/
structure BlockHeader where
  rawLen : Nat
  codedLen : Nat
  pred : Nat
  ch : Nat
  nItems : Nat
  start : Nat
  late : Nat
  crc : Nat
  deriving DecidableEq, Repr

/-- The header that 12 bytes spell (R254). -/
def blockHeader (bs : List Byte) : BlockHeader :=
  let v := bytesNat (bs.take 12)
  { rawLen := nbits v 95 83, codedLen := nbits v 82 71, pred := nbits v 70 69, ch := nbits v 68 63, nItems := nbits v 62 53,
    start := nbits v 52 39, late := nbits v 38 38, crc := nbits v 31 0 }

/-- Take n bits: their value and the rest; none past the end. -/
def takeBits (n : Nat) (l : List Bool) : Option (Nat × List Bool) := if l.length < n then none else some (bitsVal (l.take n), l.drop n)

/-- Count of one-bits at the front, at most n. -/
def leadOnes : Nat → List Bool → Nat
  | 0, _ => 0
  | n + 1, b :: r => if b then leadOnes n r + 1 else 0
  | _ + 1, [] => 0

/-- One residual (R257). -/
def readRice (k : Nat) (l : List Bool) : Option (Nat × List Bool) :=
  let q := leadOnes 16 l
  if q == 16 then takeBits 14 (l.drop 16)
  else if l.length ≤ q then none
  else match takeBits k (l.drop (q + 1)) with
    | some (v, r) => some (q * 2 ^ k + v, r)
    | none => none

/-- Outcome of reading values: the values, or k out of range, or the end reached. -/
inductive ReadOut where
  | ok (vals : List Int) (rest : List Bool)
  | badK
  | past
  deriving DecidableEq, Repr

/-- Read m more values of a stream; `i` residuals of the present group are left under `k` (R256, R257). -/
def readGroups (pred : Nat) (x0 : Int) : Nat → Nat → Nat → Int → Option Int → List Int → List Bool → ReadOut
  | 0, _, _, _, _, acc, l => .ok acc.reverse l
  | m + 1, i, k, last, last2, acc, l =>
    let go (i k : Nat) (l : List Bool) : ReadOut :=
      match readRice k l with
      | none => .past
      | some (z, l) =>
        let x := predict pred x0 last last2 + unzigzag z
        readGroups pred x0 m (i - 1) k x (some last) (x :: acc) l
    if i == 0 then
      match takeBits 4 l with
      | none => .past
      | some (k, l) => if 14 ≤ k then .badK else go 16 k l
    else go i k l

/-- Values written as 12 bits each (R256). -/
def readStored : Nat → List Int → List Bool → ReadOut
  | 0, acc, l => .ok acc.reverse l
  | m + 1, acc, l => match takeBits 12 l with
    | none => .past
    | some (v, r) => readStored m ((v : Int) :: acc) r

/-- Read a stream of n values. -/
def readStream (pred n : Nat) (l : List Bool) : ReadOut :=
  if pred == 3 then readStored n [] l
  else if n == 0 then .ok [] l
  else match takeBits 12 l with
    | none => .past
    | some (x, r) => readGroups pred x (n - 1) 0 0 x none [(x : Int)] r

/-- Entries of the item table: GAIN, NS and POISON (R255). -/
def tableEntries : Nat → List Bool → List (Nat × Nat × Bool)
  | 0, _ => []
  | n + 1, l => (bitsVal (l.take 2), bitsVal ((l.drop 2).take 7), (l.drop 9).headD false) :: tableEntries n (l.drop 10)

/-- A value in the 12 bits of an item. -/
def code12 (x : Int) : Nat := (x % 4096).toNat

/-- Interleave two lists. -/
def interleave {α : Type} : List α → List α → List α
  | [], _ => []
  | x :: a, [] => x :: interleave a []
  | x :: a, y :: b => x :: y :: interleave a b

/-- The items of a block from its table and streams (R263). -/
def rebuildItems (h : BlockHeader) : Nat → List (Nat × Nat × Bool) → List Int → List Int → List (List Word64)
  | _, [], _, _ => []
  | start, (g, ns, p) :: r, hg, lg =>
    if g == 0 then waveItem p (h.late == 1) h.ch g start ((hg.take ns).map code12) :: rebuildItems h (start + ns) r (hg.drop ns) lg
    else if g == 1 then waveItem p (h.late == 1) h.ch g start ((lg.take ns).map code12) :: rebuildItems h (start + ns) r hg (lg.drop ns)
    else waveItem p (h.late == 1) h.ch g start (interleave ((hg.take (ns / 2)).map code12) ((lg.take (ns / 2)).map code12)) ::
      rebuildItems h (start + ns / 2) r (hg.drop (ns / 2)) (lg.drop (ns / 2))

/-- Decode a block whose bytes are given, CODED_LEN or more of them (R263, R265): the items, RAW_LEN and, where a check fails,
the check. The Space check stands between Expansion and Decode: `space` is what is left of the output; a lack of it is
the third component. -/
def decodeBlock (cap space : Nat) (bs : List Byte) : List (List Word64) × Nat × Bool × Option BlockFail :=
  let h := blockHeader bs
  let tableLen := (10 * h.nItems + 7) / 8
  let bs := bs.take h.codedLen
  if h.codedLen < 12 + tableLen || bs.length < h.codedLen then ([], h.rawLen, false, some .format)
  else
    let tbl := tableEntries h.nItems (byteBits ((bs.drop 12).take tableLen))
    let bad := tbl.any (fun e => 3 ≤ e.1 || e.2.1 == 0 || 77 < e.2.1 || (e.1 == 2 && e.2.1 % 2 == 1))
    let implied := tbl.foldl (fun a e => a + 8 * (1 + wavePayload e.2.1)) 0
    let nh := tbl.foldl (fun a e => a + (if e.1 == 0 then e.2.1 else if e.1 == 2 then e.2.1 / 2 else 0)) 0
    let nl := tbl.foldl (fun a e => a + (if e.1 == 1 then e.2.1 else if e.1 == 2 then e.2.1 / 2 else 0)) 0
    let data := byteBits (bs.drop (12 + tableLen))
    let r1 := readStream h.pred nh data
    let r2 := match r1 with
      | .ok _ l => readStream h.pred nl l
      | x => x
    let badK := r1 == .badK || r2 == .badK
    if bad || badK || implied < h.rawLen then ([], h.rawLen, false, some .format)
    else if h.rawLen < implied || cap < h.rawLen then ([], h.rawLen, false, some .expansion)
    else if space < h.rawLen then ([], h.rawLen, true, none)
    else match r1, r2 with
      | .ok a _, .ok b _ =>
        let items := rebuildItems h h.start tbl a b
        let crc := crc32c (items.flatMap (fun w => w.flatMap wordBytes))
        (items, h.rawLen, false, if crc == h.crc then none else some .crcFail)
      | _, _ => ([], h.rawLen, false, some .format)

/-- Bytes that COMPRESSED_BLOCK items carry (R191). -/
def blockBytes (items : List (List Word64)) : List Byte := items.flatMap (fun w => (w.drop 1).flatMap wordBytes)

/-- FIRST and LAST stand in order and CH is one in the items of a block (R265). -/
def blockFraming (items : List (List Word64)) : Bool :=
  let ch := wbits ((items.headD []).headD 0) 53 48
  (List.range items.length).all (fun i =>
    let h := (items.getD i []).headD 0
    wbits h 47 47 == b2n (i == 0) && wbits h 46 46 == b2n (i + 1 == items.length) && wbits h 53 48 == ch)

/-! ### Verification of rewound blocks (R267) -/

/-- Take the items of one block, from its first item: up to and with LAST, or up to the next FIRST or other item. -/
def takeBlock : List (List Word64) → List (List Word64)
  | [] => []
  | w :: r =>
    let go : List (List Word64) := match r with
      | [] => []
      | x :: _ => if itemType x != 0xB || wbits (x.headD 0) 47 47 == 1 then [] else takeBlock r
    if itemType w != 0xB then [] else if wbits (w.headD 0) 46 46 == 1 then [w] else w :: go

/-- A block passes every check of R265 but Space, with JOB_CAP = `cap` (R267). -/
def blockGood (cap : Nat) (items : List (List Word64)) : Bool :=
  items.all (fun w => wbits (w.headD 0) 59 59 == 0) && blockFraming items &&
    (decodeBlock cap 4096 (blockBytes items)).2.2.2 == none

/-- Verify the blocks among items as they are rewound: the items as sent, and the blocks that failed. `f` bounds the items
taken, nested ones included (R267). -/
def verifyItems (cap : Nat) : Nat → List (List Word64) → List (List Word64) × Nat
  | 0, l => (l, 0)
  | _, [] => ([], 0)
  | f + 1, w :: r =>
    if itemType w == 0xB then
      let blk := takeBlock (w :: r)
      let bad := !blockGood cap blk
      let (rest, k) := verifyItems cap f (r.drop (blk.length - 1))
      ((if bad then blk.map (fun x => wset (x.headD 0) 59 59 1 :: x.drop 1) else blk) ++ rest, k + b2n bad)
    else
      let (w', k) := if itemType w == 0xA then
          let (inner, k) := verifyItems cap f ((frameItems w.length 0 (w.drop 2)).map (·.2))
          (if k == 0 then w else w.headD 0 :: wset ((w.drop 1).headD 0) 22 22 1 :: inner.flatMap id, k)
        else (w, 0)
      let (rest, k') := verifyItems cap f r
      (w' :: rest, k + k')

/-- A frame as a rewind sends it under RW_VERIFY, and the blocks that failed (R267): with a failure the outermost CRC and
ITEM_COUNT are recomputed. -/
def verifyFrame (cap : Nat) (ws : List Word64) : List Word64 × Nat :=
  let (items, k) := verifyItems cap ws.length ((frameItems ws.length 0 ws).map (·.2))
  if k == 0 then (ws, 0)
  else
    let tail := (items.getLast?.getD []).headD 0
    let h := ws.headD 0
    (withTail (items.dropLast.flatMap id) (wbits h 47 0) (wbits tail 55 40) (items.length - 2), k)

end Sys2Proof.Machine
end

