-- ==== Sys2Proof/Machine/Slice.lean ====
section
/-! DEFINITION. The slice engines: choice of records, linearisation, baselines, gain fusion, reductions, weirs and the items of a
record group (R144, R145, R152 to R167, R187 to R190). Amplitudes are kept exactly, in 2^-22 HG code. -/

namespace Sys2Proof.Machine

/-! ### Gain selection and waveform items (R144, R145, R190) -/

/-- sel[i] of a record: true is LG (R144). -/
def gainSel (hg : List Nat) : List Bool :=
  (hg.foldl (fun (acc : (Bool × Nat) × List Bool) c =>
    let ((lg, below), out) := acc
    let (lg, below) :=
      if 4000 ≤ c then (true, 0)
      else if lg then
        let below := if c < 3800 then below + 1 else 0
        if 4 < below then (false, 0) else (true, below)
      else (lg, below)
    ((lg, below), lg :: out)) ((false, 0), [])).2.reverse

/-- Samples in a switch region: within 4 samples of one with sel = LG (R145). -/
def inSwitch (sel : List Bool) (i : Nat) : Bool := (List.range 9).any (fun j => 4 ≤ i + j && sel.getD (i + j - 4) false)

/-- Runs of samples of one kind: GAIN code (0 HG, 1 LG, 2 PAIR), first index, count (R145, R190). -/
def waveRuns (gains : Nat) (sel : List Bool) : List (Nat × Nat × Nat) :=
  let n := sel.length
  if gains < 3 then (if n == 0 then [] else [(gains, 0, n)])
  else
    ((List.range n).foldl (fun (acc : List (Nat × Nat × Nat)) i =>
      let k := if inSwitch sel i then 2 else 0
      match acc with
      | (k', s, c) :: rest => if k' == k then (k', s, c + 1) :: rest else (k, i, 1) :: acc
      | [] => [(k, i, 1)]) []).reverse

/-- Cut a run into items: 77 values, or 38 pairs, each (R190). `fuel` bounds the count. -/
def cutRun : Nat → Nat × Nat × Nat → List (Nat × Nat × Nat)
  | 0, _ => []
  | f + 1, (k, s, c) =>
    let m := if k == 2 then 38 else 77
    if c == 0 then [] else if c ≤ m then [(k, s, c)] else (k, s, m) :: cutRun f (k, s + m, c - m)

/-- The sample items of a record: GAIN, START and samples of each. -/
def waveCuts (gains : Nat) (sel : List Bool) : List (Nat × Nat × Nat) := (waveRuns gains sel).flatMap (cutRun 256)

/-- A WAVE_DATA item of a record (R190). -/
def recordItem (ch : Nat) (hg lg : List Nat) (bad : List Nat) (poison : Bool) (cut : Nat × Nat × Nat) : List Word64 :=
  let (k, s, c) := cut
  let len := hg.length
  let idx := (List.range c).map (· + s)
  let vs := if k == 0 then idx.map (fun i => hg.getD i 0) else if k == 1 then idx.map (fun i => lg.getD i 0)
    else idx.flatMap (fun i => [hg.getD i 0, lg.getD i 0])
  let p := poison || bad.any (fun b => (k != 1 && s ≤ b && b < s + c) || (k != 0 && s + len ≤ b && b < s + c + len))
  waveItem p false ch k s vs

/-- Words of WAVE_HEAD and WAVE_DATA of a kept waveform: w_max (R154). -/
def waveWords (gains : Nat) (sel : List Bool) : Nat :=
  4 + (waveCuts gains sel).foldl (fun a c => a + 1 + wavePayload (if c.1 == 2 then 2 * c.2.2 else c.2.2)) 0

/-! ### Linearisation (R156) -/

/-- Key of a table entry. -/
def linKey (bank kind ch entry : Nat) : Nat := ((bank * 4 + kind) * 64 + ch) * 128 + entry

/-- A table entry, signed (R156, R164). -/
def linEntry (d : Dev) (bank kind ch entry : Nat) : Int := signedOf 16 (kget d.se.lin (linKey bank kind ch entry) 0)

/-- c_lin in 1/1 024 code (R156). -/
def linearise (d : Dev) (bank kind ch c : Nat) : Int :=
  let j := c / 64
  let r : Int := (c % 64 : Nat)
  (c * 1024 : Nat) + linEntry d bank kind ch j * (64 - r) + linEntry d bank kind ch (j + 1) * r

/-- Entries of a table of LIN_SEL.KIND. -/
def linSize (kind : Nat) : Nat := if kind < 2 then 65 else if kind == 2 then 32 else 0

/-- An access to LIN_DATA: the entry read, or a write that an active bank refuses; ENTRY advances. -/
def linAccess (wr : Option Word) (d : Dev) : Word × Dev :=
  let bank := d.get F.SE_LIN_SEL_BANK
  let kind := d.get F.SE_LIN_SEL_KIND
  let e := d.get F.SE_LIN_SEL_ENTRY
  let k := linKey bank kind (d.get F.SE_LIN_SEL_CHANNEL) e
  let inside := e < linSize kind
  let v := if inside then toWord (kget d.se.lin k 0) else 0
  let d := match wr with
    | none => d
    | some w =>
      if !inside then d
      else if bank == d.get F.SE_CFG_LIN_BANK then raise E.SE_TABLE_WR_ERR [] d
      else { d with se := { d.se with lin := if bits w 15 0 == 0 then kdel d.se.lin k else kset d.se.lin k (bits w 15 0) } }
  (v, d.put F.SE_LIN_SEL_ENTRY ((e + 1) % 128))

/-! ### Reductions (R157 to R164) -/

/-- Everything the pass over a record yields. Times in fb from turn 0, amplitudes in 2^-22 HG code. -/
structure Reduction where
  /-- integral (R160) -/
  integral : Int
  /-- INT_CLIPPED -/
  clipped : Bool
  /-- peak amplitude A and index p (R161) -/
  amp : Int
  peak : Nat
  /-- PEAK_EDGE -/
  peakEdge : Bool
  /-- t_peak -/
  tPeak : Int
  /-- t_cfd; none with CFD_FAIL (R162) -/
  tCfd : Option Int
  /-- TOT in 1/16 sample (R163) -/
  tot : Nat
  /-- TOT_OPEN -/
  totOpen : Bool
  /-- fused time before clamping and FT_SRC (R164) -/
  tFused : Int
  ftSrc : Nat
  deriving DecidableEq, Repr

/-- Baseline and rms in 1/16 code of the window of c_lin values in 1/1 024 code (R157). -/
def baseline (vals : List Int) (d : Dev) : (Int × Nat) × Dev :=
  let n := vals.length
  let s := vals.foldl (· + ·) 0
  let (b, d) := roundFree s (64 * n) d
  let v := ((n : Int) * vals.foldl (fun a x => a + x * x) 0 - s * s).toNat
  let den := n * n * 4096
  let r := isqrt (v / den)
  let (x, d) := if r * r * den == v then (0, d) else drawFree 1 d
  ((b, r + x), d)

/-- f[i] in 2^-22 code (R158). -/
def fuse (lg : Bool) (hgLin lgLin : Int) (baseHg baseLg : Int) (gain : Nat) : Int :=
  if lg then (lgLin - baseLg * 64) * gain else (hgLin - baseHg * 64) * 4096

/-- Index of the first largest value. -/
def argMax (f : List Int) : Nat :=
  (f.foldl (fun (acc : Nat × Nat × Option Int) x =>
    let (i, k, m) := acc
    match m with
    | none => (i + 1, i, some x)
    | some y => if y < x then (i + 1, i, some x) else (i + 1, k, m)) (0, 0, none)).2.1

/-- Is the falling root of 3A·x² + 6B·x + C at or above n/128, where the root exists? -/
def rootAtLeast (a b c : Int) (n : Int) : Bool :=
  let g := 3 * a * n * n + 768 * b * n + 16384 * c
  let falling := a * n + 128 * b < 0
  if falling then 0 ≤ g else a < 0

/-- The peak of the cubic through y0 to y3 in 1/64 sample past y1 (R161); the larger of y1 and y2 where no root lies in
[0, 1]. -/
def cubicPeak (y0 y1 y2 y3 : Int) : Nat :=
  let a := -y0 + 3 * y1 - 3 * y2 + y3
  let b := y0 - 2 * y1 + y2
  let c := -2 * y0 - 3 * y1 + 6 * y2 - y3
  let has := if a == 0 then b < 0 else 0 < 3 * b * b - a * c
  let above1 := let g := 3 * a * 16384 + 768 * b * 128 + 16384 * c; if a * 128 + 128 * b < 0 then 0 < g else a < 0
  if has && rootAtLeast a b c 0 && !above1 then
    ((List.range 65).filter (fun (m : Nat) => m == 0 || rootAtLeast a b c (2 * (m : Int) - 1))).length - 1
  else if y1 < y2 then 64 else 0

/-- Peak time past the record's first sample in 1/64 sample, and PEAK_EDGE (R161). -/
def peakTime (f : List Int) (p : Nat) : Nat × Bool :=
  if p < 2 || f.length < p + 3 then (64 * p, true)
  else
    let y (i : Nat) : Int := f.getD i 0
    if y (p - 1) ≤ y (p + 1) then (64 * p + cubicPeak (y (p - 1)) (y p) (y (p + 1)) (y (p + 2)), false)
    else (64 * (p - 1) + cubicPeak (y (p - 2)) (y (p - 1)) (y p) (y (p + 1)), false)

/-- Constant-fraction time past the first sample in 1/16 sample (R162); none with CFD_FAIL. -/
def cfdTime (f : List Int) (p : Nat) (amp : Int) (frac : Nat) : Option Nat :=
  if amp ≤ 0 then none
  else
    match (List.range p).reverse.find? (fun i => 16 * f.getD i 0 < amp * frac) with
    | none => none
    | some i => some (16 * i + (roundDiv (amp * frac - 16 * f.getD i 0) (f.getD (i + 1) 0 - f.getD i 0).toNat).toNat)

/-- First index of the run of samples at or above thr that contains p. -/
def runStart (f : List Int) (thr : Int) : Nat → Nat
  | 0 => 0
  | p + 1 => if thr ≤ f.getD p 0 then runStart f thr p else p + 1

/-- Last index of that run; `fuel` bounds the scan. -/
def runEnd (f : List Int) (thr : Int) : Nat → Nat → Nat
  | 0, p => p
  | k + 1, p => if p + 1 < f.length && thr ≤ f.getD (p + 1) 0 then runEnd f thr k (p + 1) else p

/-- Waveform TOT in 1/16 sample and TOT_OPEN (R163); thr in 2^-22 code. -/
def waveTot (f : List Int) (p : Nat) (amp thr : Int) : Nat × Bool :=
  if thr == 0 || amp < thr then (0, false)
  else
    let a := runStart f thr p
    let b := runEnd f thr f.length p
    let rise : Int := if a == 0 then 0 else
      16 * ((a : Int) - 1) + roundDiv (16 * (thr - f.getD (a - 1) 0)) (f.getD a 0 - f.getD (a - 1) 0).toNat
    let fall : Int := if f.length ≤ b + 1 then (16 * b : Nat) else
      (16 * b : Nat) + roundDiv (16 * (f.getD b 0 - thr)) (f.getD b 0 - f.getD (b + 1) 0).toNat
    ((fall - rise).toNat, a == 0 || f.length ≤ b + 1)

/-- Index of the WALK table for an amplitude (R164). -/
def walkIndex (amp : Int) : Nat := if amp ≤ 2 ^ 22 then 0 else min 31 (flog2 (amp.toNat * amp.toNat) - 44)

/-- The fused time and FT_SRC (R164). -/
def fusedTime (mode : Nat) (tdc : Bool) (tC tTrig tPeak : Int) (tCfd : Option Int) (amp : Int) (win : Nat) : Int × Nat :=
  let near := match tCfd with
    | none => true
    | some t => (tC - t).natAbs ≤ win * 2048
  if tdc && (mode == 1 || (mode == 0 && near)) then (tC, 0)
  else match tCfd with
    | some t => (t, 1)
    | none => if 0 < amp then (tPeak, 2) else (tTrig, 3)

/-! ### The pass over a record -/

/-- Round a value in 2^-22 code to whole codes, ties up. -/
def roundCode (x : Int) : Int := roundDiv x (2 ^ 22)

def Dev.gainSums (d : Dev) (n : Nat) : GainSums := kget d.se.gain n {}
def Dev.setGainSums (d : Dev) (n : Nat) (g : GainSums) : Dev := { d with se := { d.se with gain := kset d.se.gain n g } }

/-- One pair of samples of the gain-ratio tracking (R159). -/
def gainPair (n : Nat) (h l : Int) (d : Dev) : Dev :=
  let g := d.gainSums n
  let g := { g with sh := g.sh + h, sl := g.sl + l, n := g.n + 1 }
  if g.n < 4096 then d.setGainSums n g
  else if 0 < g.sl && 15 * g.sl ≤ g.sh && g.sh ≤ 17 * g.sl then
    let old : Nat := d.get (F.SE_GAIN_STATUS_GAIN n)
    let new := roundDiv (7 * old * g.sl + 4096 * g.sh) (8 * g.sl).toNat
    d.setGainSums n { g with sh := 0, sl := 0, n := 0, next := some new.toNat }
  else raise E.SE_GR_REJECT [] (count1 (R.SE_COUNT (n / 8) 4) (d.setGainSums n { g with sh := 0, sl := 0, n := 0 }))

/-- The gain-ratio tracking takes the pairs of a record whose trigger time lies in turn t (R152, R159). -/
def trackGain (n t : Nat) (hgLin lgLin : List Int) (baseHg baseLg : Int) (bad : List Nat) (d : Dev) : Dev :=
  if d.isAt t (F.SE_CH_GAIN_GR_MODE n) then d
  else
    let len := hgLin.length
    (List.range len).foldl (fun d i =>
      let h := hgLin.getD i 0 - baseHg * 64
      let l := lgLin.getD i 0 - baseLg * 64
      if 1000 * 1024 ≤ h && h ≤ 3800 * 1024 && !bad.contains i && !bad.contains (i + len) then gainPair n h l d else d) d

/-- A new GAIN lands once a CAL pip is granted (R159). -/
def gainRatioUpdate (n : Nat) (d : Dev) : Dev :=
  match (d.gainSums n).next with
  | none => d
  | some v => if d.is (F.SE_CH_GAIN_GR_MODE n) then d else withPips 0 1 1 (fun d =>
      ((d.put (F.SE_GAIN_STATUS_GAIN n) v).put (F.SE_GAIN_STATUS_GR_STATE n) 1).setGainSums n { d.gainSums n with next := none }) d

/-- The items of a record and the counters of its weir (R157 to R167). `poison` is set after a second residue failure. -/
def reduceRecord (n : Nat) (g : Segment) (poison : Bool) (d : Dev) : List Entry × Dev :=
  let t := g.gov
  let len := g.len
  let first := sampleOf g.t - g.pre
  let bank := d.getAt t F.SE_CFG_LIN_BANK
  let lin := d.isAt t (F.SE_CH_CFG_LIN_EN n)
  let one (kind c : Nat) : Int := if lin then linearise d bank kind n c else (c * 1024 : Nat)
  let hl := g.hg.map (one 0)
  let ll := g.lg.map (one 1)
  let sel := gainSel g.hg
  let b := min (2 ^ d.getAt t (F.SE_CH_CFG_BASE_LOG2 n)) g.pre
  let subst := b < 8
  let trackH : Int := (d.get (F.SE_BASE_TRACK_HG n) : Nat)
  let trackL : Int := (d.get (F.SE_BASE_TRACK_LG n) : Nat)
  let (((bh, rh), (bl, rl)), d) :=
    if subst then (((trackH, 0), (trackL, 0)), d)
    else
      let (x, d) := baseline (hl.take b) d
      let (y, d) := baseline (ll.take b) d
      let (mh, d) := roundFree (15 * trackH + x.1) 16 d
      let (ml, d) := roundFree (15 * trackL + y.1) 16 d
      ((x, y), (d.put (F.SE_BASE_TRACK_HG n) mh.toNat).put (F.SE_BASE_TRACK_LG n) ml.toNat)
  let gain := if d.isAt t (F.SE_CH_GAIN_GR_MODE n) then d.getAt t (F.SE_CH_GAIN_GAIN_FIXED n) else d.get (F.SE_GAIN_STATUS_GAIN n)
  let f := (List.range len).map (fun i => fuse (sel.getD i false) (hl.getD i 0) (ll.getD i 0) bh bl gain)
  let d := trackGain n t hl ll bh bl g.bad d
  let i0 : Int := g.pre + signedOf 14 (d.getAt t (F.SE_CH_INT_INT_START n))
  let il := let v := d.getAt t (F.SE_CH_INT_INT_LEN n); if v == 0 then 8192 else v
  let integral := (List.range len).foldl (fun (a : Int) (i : Nat) => if i0 ≤ (i : Int) && (i : Int) < i0 + il then a + f.getD i 0 else a) 0
  let clipped := i0 < 0 || (len : Int) < i0 + il
  let p := argMax f
  let amp := f.getD p 0
  let (pt, pEdge) := peakTime f p
  let tPeak := first * 512 + pt * 8
  let tCfd := (cfdTime f p amp (d.getAt t (F.SE_CH_CFG_CFD_FRAC n))).map (fun x => first * 512 + (x : Int) * 32)
  let (tot, totOpen) := waveTot f p amp ((d.getAt t (F.SE_CH_CFG_TOT_THR n) * 2 ^ 22 : Nat))
  let tC := g.t - linEntry d bank 2 n (walkIndex amp)
  let (tF, ftSrc) := fusedTime (d.getAt t (F.SE_CH_CFG_FT_MODE n)) g.tdc tC g.t tPeak tCfd amp (d.getAt t (F.SE_CH_CFG_FT_WIN n))
  let tFc := clampInt (first * 512) ((first + len - 1) * 512) tF
  let force := g.force || (d.getAt t (F.SE_CH_WHIGH_WEIR_HIGH n) * 2 ^ 22 : Nat) ≤ amp ||
    (d.isAt t (F.SE_CH_CFG_TEST_KEEP n) && nbits g.srcs 4 4 == 1)
  let keep := force || signedOf 24 (d.getAt t (F.SE_CH_WLOW_WEIR_LOW n)) * 2 ^ 22 ≤ integral
  let d := if subst then count1 (R.SE_CH_COUNT n 3) d else d
  let d := count1 (R.SE_CH_COUNT n (if force then 2 else if keep then 1 else 0)) d
  let ir := roundCode integral
  let is := clampInt (-(2 ^ 23)) (2 ^ 23 - 1) ir
  let pois := poison || !g.bad.isEmpty
  let key := stampFb tFc
  let trig := stampFb g.t
  let red : List Word64 := [
    pack64 [(63, 60, 2), (59, 59, b2n pois), (57, 52, n), (51, 49, g.cls.getD 0), (48, 41, g.srcs), (40, 40, b2n g.noLocal), (39, 0, key.t40)],
    pack64 [(63, 40, ofSigned 24 is), (39, 23, (max 0 (roundCode amp)).toNat), (22, 13, min tot 1023), (12, 12, b2n g.untrimmed),
      (11, 11, b2n g.interp), (10, 10, b2n subst), (9, 9, b2n (sel.any id)), (8, 8, b2n (g.lg.any (· == 4095))), (7, 7, b2n clipped),
      (6, 6, b2n (is != ir)), (5, 5, b2n pEdge), (4, 4, b2n tCfd.isNone), (3, 3, b2n totOpen), (2, 2, b2n (tFc != tF)), (1, 0, ftSrc)]]
  let gains := d.getAt t F.CAP_CFG_WAVE_GAINS
  let cuts := waveCuts gains sel
  let head : List Word64 := [
    pack64 [(63, 60, 3), (59, 59, b2n pois), (57, 52, n), (51, 50, gains), (39, 0, trig.t40)],
    pack64 [(63, 50, len), (49, 37, g.pre), (36, 24, p), (23, 12, cuts.length)],
    pack64 [(63, 48, ofSigned 16 bh), (47, 32, ofSigned 16 bl), (31, 16, rh), (15, 0, rl)],
    pack64 [(63, 40, ofSigned 24 (tPeak - g.t)), (39, 16, match tCfd with
      | some x => ofSigned 24 (x - g.t)
      | none => 0)]]
  let src := 2 * n + 1
  let wave := head :: cuts.map (recordItem n g.hg g.lg g.bad poison)
  let entries : List Entry :=
    if force then { t := key, src := src, words := red, more := true } ::
      (List.range wave.length).map (fun i => { t := key, src := src, words := wave.getD i [], cont := true, more := i + 1 < wave.length })
    else if keep then [{ t := key, src := src, words := red }] else []
  (entries, d)

/-! ### The engines (R152 to R155, R166, R167) -/

def Dev.engine (d : Dev) (k : Nat) : Engine := d.se.engines.getD k {}
def Dev.setEngine (d : Dev) (k : Nat) (e : Engine) : Dev := { d with se := { d.se with engines := d.se.engines.set k e } }

/-- End of the present slice in fb within the turn, on its actual length (R154). -/
def Dev.sliceEnd (d : Dev) : Int :=
  let s := d.clk.ct / 2048
  if s == 7 then 2 ^ 25 - (if d.clk.stepped then d.clk.stepF else 0) else ((s + 1) * 2048 * 2048 : Nat)

/-- T_full of a segment (R154). -/
def fullTime (d : Dev) (g : Segment) : Nat :=
  24 + (g.len + 15) / 16 + (waveWords (d.getAt g.gov F.CAP_CFG_WAVE_GAINS) (gainSel g.hg) + 3) / 4

/-- Does a segment fit before the end of the slice? -/
def fits (d : Dev) (g : Segment) : Bool := ((d.clk.ct + fullTime d g) * 2048 : Nat) ≤ d.sliceEnd

/-- The READY segment with the earliest trigger time among those that fit (R153). -/
def pickSegment (d : Dev) (n : Nat) : Option Segment :=
  ((d.capCh n).segs.filter (fun g => g.st == .ready && fits d g)).foldl (fun m g => match m with
    | none => some g
    | some h => if g.t < h.t then some g else some h) none

/-- An idle engine chooses a record in owner order (R153). -/
def engineChoose (k : Nat) (d : Dev) : Dev :=
  let e := d.engine k
  if e.run.isSome || d.se.off.contains k || d.underTest (.engine k) then d
  else
    let s := d.clk.ct / 2048
    let order := (List.range 8).map (fun i => 8 * k + (s + i) % 8)
    match order.findSome? (fun n => (pickSegment d n).map (fun g => (n, g.j))) with
    | none => d
    | some (n, j) =>
      let c := d.capCh n
      let d := d.setCapCh n { c with segs := c.segs.map (fun g => if g.j == j then { g with st := .reading } else g) }
      let d := d.setEngine k { e with run := some (n, j), sliceEnd := d.clk.ctBase + (d.sliceEnd / 2048).toNat, items := [], waitFrom := none }
      let d := d.put (F.SE_STATUS_BUSY) (d.get F.SE_STATUS_BUSY ||| 2 ^ k)
      if n == 8 * k + s then d else count1 (R.SE_COUNT k 1) d

/-- Write items while the output FIFO has room for a whole item beyond the 8 words kept for GAPs (R143, R155). -/
def writeItems : Nat → List Entry → Dev → List Entry × Dev
  | 0, es, d => (es, d)
  | _ + 1, [], d => ([], d)
  | f + 1, e :: rest, d =>
    if fifoWords (kget d.fifos e.src []) + e.words.length ≤ 504 then writeItems f rest (emitTo e.src e d) else (e :: rest, d)

/-- The record of an engine ends: its segment becomes FREE and the engine chooses again (R153, R155, R167). -/
def recordEnd (k n j : Nat) (d : Dev) : Dev :=
  let e := d.engine k
  let c := d.capCh n
  let d := d.setCapCh n { c with segs := c.segs.filter (fun g => g.j != j) }
  let d := count1 (R.SE_COUNT k 0) d
  let late := e.sliceEnd < d.nowCt && e.waitFrom.isSome
  let d := d.setEngine k {}
  let d := d.put F.SE_STATUS_BUSY (d.get F.SE_STATUS_BUSY - (d.get F.SE_STATUS_BUSY &&& 2 ^ k))
  let d := if late then raiseOnce E.SE_SLICE_OVERRUN [] (count1 (R.SE_COUNT k 3) d) else d
  engineChoose k d

/-- Continue writing an engine's items: the record ends with the last one, else the engine waits (R155). -/
def engineWrite (k n j : Nat) (items : List Entry) (d : Dev) : Dev :=
  let now := d.nowCt
  let e := d.engine k
  let d := match e.waitFrom with
    | some c => if now - c == 0 then d else count (R.SE_COUNT k 2) (now - c) d
    | none => d
  let (rest, d) := writeItems items.length items d
  if rest.isEmpty then recordEnd k n j d
  else d.setEngine k { d.engine k with items := rest, waitFrom := some now }

/-- The ct that engines have waited in the turn that ends are counted with it (R39, R155). -/
def fifoWaits (d : Dev) : Dev :=
  (List.range 8).foldl (fun d k => match (d.engine k).waitFrom with
    | some c => if d.nowCt ≤ c then d else count (R.SE_COUNT k 2) (d.nowCt - c) (d.setEngine k { d.engine k with waitFrom := some d.nowCt })
    | none => d) d

/-- An engine finishes a record's reductions after a number of failed residue checks (R166, R461); `bad` lists the samples whose words
failed parity as it read the segment (R142). -/
def recordDone (k fails : Nat) (bad : List Nat) (d : Dev) : Dev :=
  match (d.engine k).run with
  | none => d
  | some (n, j) =>
    if !(d.engine k).items.isEmpty then d
    else
      match (d.capCh n).segs.find? (fun g => g.j == j) with
      | none => d.setEngine k {}
      | some g =>
        let d := (List.range (min fails 2)).foldl (fun d _ => report (0x120 + k) 0x0B 7 0x07 0 (some (.engine k)) d) d
        let (poisoned, d) := segmentParity n g bad d
        let (items, d) := reduceRecord n { g with bad := poisoned } (2 ≤ fails) d
        engineWrite k n j items d

/-- A waiting engine finds room (R155). -/
def seFifoRoom (k : Nat) (d : Dev) : Dev :=
  match (d.engine k).run with
  | none => d
  | some (n, j) => if (d.engine k).items.isEmpty then d else engineWrite k n j (d.engine k).items d

/-- ct 0 of a slice: every engine that is idle chooses (R153). -/
def sliceBoundary (d : Dev) : Dev :=
  let d := { d with clk := { d.clk with ct := min 14336 ((d.clk.ct + 2047) / 2048 * 2048) } }
  (List.range 8).foldl (fun d k => engineChoose k d) d

/-- A commit landed: pedestals reset the tracked baselines, and GR_MODE and GAIN_FIXED set the gain (R157, R159). -/
def seLanded (old : Dev) (keys : List Nat) (d : Dev) : Dev :=
  (List.range 64).foldl (fun d n =>
    let d :=
      if !keys.contains (R.AFE_CH_CFG n) then d
      else
        let ch (f : FRef) : Bool := old.get f != d.get f
        if ch (F.AFE_CH_CFG_PED_HG n) || ch (F.AFE_CH_CFG_PED_LG n) then
          (d.put (F.SE_BASE_TRACK_HG n) (128 * d.get (F.AFE_CH_CFG_PED_HG n))).put (F.SE_BASE_TRACK_LG n) (128 * d.get (F.AFE_CH_CFG_PED_LG n))
        else d
    if !keys.contains (R.SE_CH_GAIN n) then d
    else if d.is (F.SE_CH_GAIN_GR_MODE n) then
      ((d.put (F.SE_GAIN_STATUS_GAIN n) (d.get (F.SE_CH_GAIN_GAIN_FIXED n))).put (F.SE_GAIN_STATUS_GR_STATE n) 2).setGainSums n {}
    else if old.is (F.SE_CH_GAIN_GR_MODE n) then (d.put (F.SE_GAIN_STATUS_GR_STATE n) 1).setGainSums n {}
    else d) d

/-- At a boundary, engines isolated since the last one stop, and their groups' segments are freed (R465). -/
def seBoundary (d : Dev) : Dev :=
  let off := (List.range 8).filter (fun k => d.isolated (.engine k))
  off.foldl (fun d k =>
    let d := { d with se := { d.se with off := if d.se.off.contains k then d.se.off else d.se.off ++ [k] } }
    let d := (d.setEngine k {}).put F.SE_STATUS_BUSY (d.get F.SE_STATUS_BUSY - (d.get F.SE_STATUS_BUSY &&& 2 ^ k))
    ((List.range 8).map (· + 8 * k)).foldl (fun d n =>
      let c := d.capCh n
      let gone := c.segs.filter (fun g => g.st == .ready || g.st == .reading)
      if gone.isEmpty then d
      else count (R.FLT_COUNT 7) gone.length (d.setCapCh n { c with segs := c.segs.filter (fun g => !(g.st == .ready || g.st == .reading)) })) d) d

/-! ### Commands -/

/-- COPY_DONE (R140, R142): the segment is READY, and an idle engine takes it (R153). -/
def execCopyDone (ch : Nat) (hg lg : List Int) (bad : List Nat) (s : State) : Host.Outcome State Fault Refusal :=
  onDev (fun d => engineChoose (ch / 8) (copyDone ch hg lg bad d)) s
/-- SLICE_BOUNDARY (R153). -/
def execSliceBoundary (s : State) : Host.Outcome State Fault Refusal := onDev sliceBoundary s
/-- RECORD_DONE (R166). -/
def execRecordDone (k : Nat) (found : Nat × List Nat) (s : State) : Host.Outcome State Fault Refusal := onDev (recordDone k found.1 found.2) s
/-- SE_FIFO_ROOM (R155). -/
def execSeFifoRoom (k : Nat) (s : State) : Host.Outcome State Fault Refusal := onDev (seFifoRoom k) s
/-- GAIN_RATIO_UPDATE (R159). -/
def execGainRatioUpdate (ch : Nat) (s : State) : Host.Outcome State Fault Refusal := onDev (gainRatioUpdate ch) s
/-- LIN_DATA_ACCESS (R156). -/
def execLinDataAccess (wr : Option Word) (s : State) : Host.Outcome State Fault Refusal := onRead (linAccess wr) s

end Sys2Proof.Machine
end

