-- ==== Sys2Proof/Machine/Queues.lean ====
section
/-! DEFINITION. Turn frames as words (R177 to R202) and the turn queues: pages, descriptors, states, release, reclamation,
marks, stubs, rewinds, arrangements and fail-over (R223 to R249). -/

namespace Sys2Proof.Machine

/-! ### Frames as words (R200, R237) -/

/-- What a TURN_HEAD tells of the machine now (R200). -/
def Dev.headFields (d : Dev) : HeadFields :=
  { mode := d.get F.PWR_STATUS_MODE, chip := d.chipId, gen := d.get F.TRN_STATUS_CFG_GEN, at_ := d.atState,
    disagree := d.get F.TIME_STATUS_MASTER_DISAGREE, jump := d.get F.TIME_STATUS_JUMP_HOLD,
    tdc := b2n (d.get F.TDC_STATUS_NOT_VALID != 0), gpb := d.get F.AFE_STATUS_GPB_HOLD }

/-- TURN_HEAD words (R200). -/
def turnHead (turn role : Nat) (stepped : Bool) (w f : Int) (x : HeadFields) : List Word64 := [
  pack64 [(63, 60, 0xC), (57, 57, b2n stepped), (55, 52, x.mode), (51, 51, role), (50, 48, 1), (47, 0, turn)],
  pack64 [(63, 48, x.chip), (47, 40, x.gen), (39, 38, x.at_), (37, 37, x.disagree), (36, 36, x.jump), (35, 35, x.tdc), (34, 34, x.gpb)],
  pack64 [(63, 32, if stepped then ofSigned 32 w else 0), (25, 0, if stepped then ofSigned 26 f else 0)]]

/-- A stub of a turn: its TURN_HEAD tells of the machine as it was at ct 0 of the present turn (R237). -/
def stubFrame (turn : Nat) (gone : Bool) (d : Dev) : List Word64 :=
  let h := turnHead turn 0 false 0 0 d.tq.head0
  let h := match h with
    | x :: r => (if gone then wset x 56 56 1 else x) :: r
    | [] => []
  let t : Stamp := { turn := turn }
  withTail (h ++ [pack64 [(63, 60, 5), (51, 51, 1), (50, 48, if gone then 6 else 5), (39, 0, t.t40)],
    pack64 [(63, 32, 1), (31, 0, 0x02000000)]]) turn 0 1

/-! ### Queues and pages (R223 to R225) -/

/-- Pages in the store: the queue area, or the 1 024 pages of the reservoir (R224). -/
def Dev.tqPages (d : Dev) : Nat := if d.reservoir then 1024 else d.get F.TQ_AREA_PAGES_PAGES
/-- First page of the store. -/
def Dev.tqBase (d : Dev) : Nat := if d.reservoir then 0 else d.get F.TQ_AREA_BASE_BASE

/-- Pages in use: those of queues, of chains being written, of lost descriptors (R385), and retired pages (R392). -/
def Dev.usedPages (d : Dev) : List Nat :=
  let u := d.tq.q.flatMap (fun p => p.2.pages) ++ d.tq.chains ++ d.ram.leaked
  u ++ d.ram.retired.filter (fun p => !d.reservoir && d.tqBase ≤ p && p < d.tqBase + d.tqPages && !u.contains p)
def Dev.freePages (d : Dev) : Nat := d.tqPages - d.usedPages.length

/-- Index of the queue of a turn. -/
def qIndex (t : Nat) : Nat := t % 32768

/-- The queue at an index, unless FREE. -/
def Dev.queue (d : Dev) (i : Nat) : Option TQueue := kfind d.tq.q i
def Dev.setQueue (d : Dev) (i : Nat) (x : TQueue) : Dev := { d with tq := { d.tq with q := kset d.tq.q i x } }
/-- The two words of the descriptor of queue i are written (R225, R393). -/
def descWritten (i : Nat) (d : Dev) : Dev := (unitsWritten 5 [2 * i, 2 * i + 1] d).2
/-- A queue changes its state: its descriptor is written. -/
def Dev.putDesc (d : Dev) (i : Nat) (x : TQueue) : Dev := descWritten i (d.setQueue i x)
/-- A queue becomes FREE: its pages return. -/
def freeQueue (i : Nat) (d : Dev) : Dev := descWritten i { d with tq := { d.tq with q := kdel d.tq.q i } }

/-- The queue that holds a turn: index and the low 8 bits of the round agree (R225). -/
def Dev.holding (d : Dev) (t : Nat) : Option TQueue :=
  match d.queue (qIndex t) with
  | some x => if x.turn / 32768 % 256 == t / 32768 % 256 then some x else none
  | none => none

/-- A turn is pinned by the mark (R226). -/
def Dev.pinned (d : Dev) (t : Nat) : Bool := match d.tq.mark with
  | some m => m ≤ t
  | none => false

/-- POLICY = VERDICT. -/
def Dev.verdictPolicy (d : Dev) : Bool := d.is F.TQ_CFG_POLICY

/-- Code of STATE. -/
def QState.code : QState → Nat
  | .open_ => 1 | .closed => 2 | .sent => 3 | .held => 4

/-- Word w of the descriptor of queue i (R225). -/
def descWord (i w : Nat) (d : Dev) : Word :=
  match d.queue i with
  | none => 0
  | some x =>
    if w == 0 then pack32 [(31, 29, x.st.code), (28, 27, x.verdict), (26, 26, b2n x.inflight), (25, 25, b2n (!x.bad.isEmpty)), (24, 24, b2n x.sentOnce),
      (22, 0, x.pages.headD 0)]
    else if w == 1 then pack32 [(31, 31, b2n x.viaUB), (22, 0, x.pages.getLastD 0)]
    else if w == 2 then pack32 [(31, 24, x.turn / 32768), (23, 0, x.pages.length)]
    else if w == 3 then pack32 [(23, 0, 8 * x.words.length)]
    else 0

/-- A write of DESC_SEL: the descriptor is copied to DESC_DATA. -/
def descSelWrite (v : Word) (d : Dev) : Dev :=
  let i := bits v 14 0
  (List.range 4).foldl (fun d w => d.setReg (R.TQ_DESC_DATA w) (descWord i w d)) (d.put F.TQ_DESC_SEL_INDEX i)

/-- The k-th page that is not in use. -/
def kthFree : Nat → Nat → List Nat → Nat
  | k, base, used => ((List.range (k + 1 + used.length)).map (· + base) |>.filter (fun p => !used.contains p)).getD k base

/-- Take a free page; which one is a free value, since no rule gives the order. -/
def takePage (d : Dev) : Option (Nat × Dev) :=
  if d.freePages == 0 then none
  else
    let (k, d) := drawFree (d.freePages - 1) d
    let p := kthFree k d.tqBase d.usedPages
    some (p, { d with ram := { d.ram with handed := if d.ram.handed.contains p then d.ram.handed else p :: d.ram.handed } })

/-! ### Reclamation and marks (R228, R232 to R235) -/

/-- The default action of R228 on a turn: its record in VERDICT and its counter. -/
def defaultAction (x : TQueue) (d : Dev) : TQueue × Dev :=
  let send := d.is F.TQ_CFG_VERDICT_DEFAULT
  ({ x with verdict := if send then 1 else 2 }, raiseOnce E.TQ_DEFAULT_ACTION [] (count1 (R.TQ_COUNT (if send then 8 else 7)) d))

/-- Does a turn still wait for a verdict? -/
def awaitsVerdict (x : TQueue) (d : Dev) : Bool := d.verdictPolicy && x.st == .closed && x.verdict == 0

/-- The counters of a reclaimed turn (R232). -/
def countReclaim (x : TQueue) (d : Dev) : Dev :=
  match x.st with
  | .sent => count1 (R.TQ_COUNT 10) d
  | .held => d
  | _ => if x.sentOnce then d else raiseOnce E.TQ_RECLAIM_UNSENT [] (count1 (R.TQ_COUNT 9) d)

/-- Candidates for reclamation, oldest turn first: the place of a queue in a list by turn (R232). -/
def insertTurn (p : Nat × TQueue) : List (Nat × TQueue) → List (Nat × TQueue)
  | [] => [p]
  | x :: r => if p.2.turn ≤ x.2.turn then p :: x :: r else x :: insertTurn p r

def Dev.candidates (d : Dev) : List (Nat × TQueue) :=
  (d.tq.q.filter (fun p => p.2.st != .open_ && !p.2.inflight && !d.pinned p.2.turn)).foldl (fun l p => insertTurn p l) []

/-- Reclaim one turn: the oldest candidate whose default action, if it needs one, is not SEND (R232). The second part tells
whether a turn was freed. -/
def reclaimFrom : List (Nat × TQueue) → Dev → Dev × Bool
  | [], d => (d, false)
  | (i, x) :: rest, d =>
    if awaitsVerdict x d then
      let (x', d) := defaultAction x d
      if x'.verdict == 1 then reclaimFrom rest (d.putDesc i x') else (freeQueue i (countReclaim x d), true)
    else (freeQueue i (countReclaim x d), true)

/-- RECLAIM (R232). -/
def reclaim (d : Dev) : Dev := if d.freePages < 256 then (reclaimFrom d.candidates d).1 else d

/-- Another mark comes into force, or none. A HELD turn whose pin lifts while RETAIN = 0 is to become FREE at the next boundary
(R226). -/
def moveMark (m : Option Nat) (d : Dev) : Dev :=
  let d' := { d with tq := { d.tq with mark := m } }
  if d.is F.TQ_CFG_RETAIN then d'
  else { d' with tq := { d'.tq with q := d.tq.q.map (fun p =>
    if p.2.st == .held && d.pinned p.2.turn && !d'.pinned p.2.turn then (p.1, { p.2 with lifted := true }) else p) } }

/-- The mark moves on by one turn (R235). -/
def markAdvance (d : Dev) : Dev :=
  match d.tq.mark with
  | none => d
  | some m => raiseOnce E.TQ_MARK_OVERRUN [] (count1 (R.TQ_COUNT 11) (moveMark (some (turnAdd m 1)) d))

/-- Every closed turn is pinned, and there is one: only then is the mark overtaken for want of a page (R235). -/
def Dev.allPinned (d : Dev) : Bool :=
  let l := d.tq.q.filter (fun p => p.2.st != .open_)
  !l.isEmpty && l.all (fun p => d.pinned p.2.turn)

/-- A page for a writer: free, reclaimed, or won by advancing the mark (R232, R235). `fuel` bounds the mark's steps. -/
def getPage : Nat → Dev → Option Nat × Dev
  | 0, d => (none, d)
  | f + 1, d =>
    match takePage d with
    | some (p, d) => (some p, d)
    | none =>
      let (d, ok) := reclaimFrom d.candidates d
      if ok then getPage f d
      else if !d.is F.TQ_CFG_MARK_POLICY && d.allPinned then getPage f (markAdvance d)
      else (none, d)

/-- Pages beside the queues return to the store. -/
def dropPages (ps : List Nat) (d : Dev) : Dev := { d with tq := { d.tq with chains := d.tq.chains.filter (fun p => !ps.contains p) } }

/-- The turn of the TURN_HEAD that begins some words. -/
def headTurn (ws : List Word64) : Nat := wbits (ws.headD 0) 47 0

/-- What has been written for a refused turn beside its queue is freed: the own frame of a concentrator, and its sub-frames that have
passed their head checks, which PAGE_SHORT counts (R236). -/
def dropChains (t : Nat) (d : Dev) : Dev :=
  let d := match d.col.build with
    | some b => if b.own && b.turn == t then
        dropPages (b.pages ++ b.pages2) { d with col := { d.col with build := some { b with words := [], pages := [], pages2 := [], refused := true } } } else d
    | none => d
  let (mine, rest) := d.col.ownDone.partition (fun o => o.turn == t)
  let d := dropPages (mine.flatMap (fun o => o.pages ++ o.pages2)) { d with col := { d.col with ownDone := rest } }
  (List.range 8).foldl (fun d j =>
    let p := d.cas.ports.getD j {}
    let hit (r : RxFrame) : Bool := r.stage == .body && headTurn r.words == t
    let gone := p.rx.toList.filter hit ++ p.pipe.filter hit
    if gone.isEmpty then d
    else
      let d := { d with cas := { d.cas with ports := d.cas.ports.set j { p with
        rx := p.rx.filter (fun r => !hit r), pipe := p.pipe.filter (fun r => !hit r) } } }
      count (R.TQ_COUNT 13) gone.length (dropPages (gone.flatMap (fun r => r.pages ++ r.pages2)) d)) d

/-- A turn is refused (R236). -/
def refuseTurn (t : Nat) (short : Bool) (d : Dev) : Dev :=
  let d := dropChains t d
  let d := raise E.TQ_TURN_REFUSED [] (count1 (R.TQ_COUNT 12) (d.put F.TQ_STATUS_REFUSING 1))
  let d := if short then raise E.TQ_PAGE_SHORT [] d else d
  match d.tq.refusals.getLast? with
  | some (f, n) =>
    if turnAdd f n == t then { d with tq := { d.tq with refusals := d.tq.refusals.dropLast ++ [(f, n + 1)] } }
    else if d.tq.refusals.length < 16 then { d with tq := { d.tq with refusals := d.tq.refusals ++ [(t, 1)] } }
    else count1 (R.TQ_COUNT 13) d
  | none => { d with tq := { d.tq with refusals := [(t, 1)] } }

/-- Pages that a frame of `n` words needs (R224). -/
def pagesFor (n : Nat) : Nat := (n + 510) / 511

/-- Family of the store of the queues: 6 reservoir, 8 SDRAM. -/
def Dev.tqFam (d : Dev) : Nat := if d.reservoir then 6 else 8

/-- The protected unit that holds a word of a frame with given pages (R224, R378). -/
def frameUnit (pages : List Nat) (i : Nat) (d : Dev) : Nat :=
  let w := pages.getD (i / 511) 0 * 512 + i % 511
  if d.reservoir then w else w / 2

/-- Words appended to a queue from word `n0` on take an armed flip (R393): the first word in a matching unit. An
uncorrectable outcome poisons the words of the unit when it is read. -/
def flipQueue (qi n0 : Nat) (d : Dev) : Dev :=
  match d.queue qi with
  | none => d
  | some x =>
    let fam := d.tqFam
    match (List.range (x.words.length - n0)).find? (fun k => d.flipArmed fam (unitAddr fam (frameUnit x.pages (n0 + k) d)) (unitLen fam)) with
    | none => d
    | some k =>
      let u := frameUnit x.pages (n0 + k) d
      match flipTake fam false (unitAddr fam u) (unitLen fam) d with
      | (none, d) => d
      | (some (cls, m), d) =>
        let idx := (List.range (x.words.length - n0)).map (· + n0) |>.filter (fun i => frameUnit x.pages i d == u)
        let sh (i : Nat) : Nat := if fam == 8 && i % 511 % 2 == 1 then m >>> 64 else m
        let x := { x with words := idx.foldl (fun ws i => ws.modify i (fun w => w ^^^ BitVec.ofNat 64 (sh i))) x.words }
        let d := d.setQueue qi x
        if cls == 0 then d else { d with ram := { d.ram with faulty := kset d.ram.faulty (fam * 2 ^ 40 + u) cls } }

/-- Append words to an OPEN queue, taking pages as needed (R224); a writer that finds none refuses the turn (R236). The
second part tells whether the words were written. -/
def appendWords (t : Nat) (ws : List Word64) (d : Dev) : Dev × Bool :=
  match d.queue (qIndex t) with
  | none => (d, false)
  | some x =>
    let need := pagesFor (x.words.length + ws.length) - x.pages.length
    let (ok, d) := (List.range need).foldl (fun (acc : Bool × Dev) _ =>
      if !acc.1 then acc
      else
        match getPage 32768 acc.2 with
        | (some p, d) => (match d.queue (qIndex t) with
          | some x => (true, d.setQueue (qIndex t) { x with pages := x.pages ++ [p] })
          | none => (false, d))
        | (none, d) => (false, d)) (true, d)
    if ok then
      (match d.queue (qIndex t) with
      | some x => (flipQueue (qIndex t) x.words.length (d.setQueue (qIndex t) { x with words := x.words ++ ws }), true)
      | none => (d, false))
    else (refuseTurn t true (freeQueue (qIndex t) d), false)

/-- Steps of the mark until it passes a turn (R233, R235). -/
def passMark : Nat → Nat → Dev → Dev
  | 0, _, d => d
  | f + 1, t, d => if d.pinned t then passMark f t (markAdvance d) else d

/-- The frame that a port is sending is aborted (R244): once a block of it has left, the port ends it with K30.7 (R292). -/
def abortJob (p : Nat) (d : Dev) : Dev :=
  let u := d.tq.up.getD p {}
  match u.job with
  | none => d
  | some j =>
    let d := { d with tq := { d.tq with up := d.tq.up.set p { u with job := none } } }
    if j.fresh || j.left.isEmpty then d
    else count1 (R.LNK_PORT_COUNT p 3) { d with lnk := { d.lnk with ports := d.lnk.ports.modify p (fun x => { x with abort := true }) } }

/-- Queue n is due to open (R223, R233, R241). The second part tells whether it opened. -/
def openQueue (n : Nat) (d : Dev) : Dev × Bool :=
  let i := qIndex n
  let fresh (d : Dev) : Dev × Bool := ((d.put F.TQ_STATUS_REFUSING 0).putDesc i { st := .open_, turn := n }, true)
  match d.queue i with
  | none => fresh d
  | some x =>
    let abort (d : Dev) : Dev := [0, 1].foldl (fun d p => match (d.tq.up.getD p {}).job with
      | some j => if j.turn == x.turn then abortJob p d else d
      | none => d) d
    if x.turn == n then fresh (count1 (R.TQ_COUNT 17) (freeQueue i (abort d)))
    else if d.pinned x.turn && d.is F.TQ_CFG_MARK_POLICY then (refuseTurn n false d, false)
    else
      let d := passMark 32768 x.turn d
      let d := if awaitsVerdict x d then (defaultAction x d).2 else d
      fresh (countReclaim x (freeQueue i (abort d)))

/-- A closed queue whose verdict is REJECT is released (R226). -/
def releaseUnsent (i : Nat) (x : TQueue) (d : Dev) : Dev :=
  if d.pinned x.turn then d.putDesc i { x with st := .held } else freeQueue i d

/-- Queue n closes (R223, R226, R228). -/
def closeQueue (n : Nat) (d : Dev) : Dev :=
  let i := qIndex n
  match d.queue i with
  | none => d
  | some x =>
    let x := { x with st := .closed, closedAt := d.clk.bounds }
    let d := { d with tq := { d.tq with newestClosed := some (match d.tq.newestClosed with
      | some m => max m n
      | none => n) } }
    if d.verdictPolicy && x.verdict == 2 then releaseUnsent i x d else d.putDesc i x

/-! ### Verdicts and acknowledgements (R228, R230) -/

/-- A SENT turn is released (R226, R230). A port that was to replay it skips it uncounted: it was not reclaimed (R246). -/
def releaseSent (i : Nat) (x : TQueue) (d : Dev) : Dev :=
  let d := { d with tq := { d.tq with up := d.tq.up.map (fun u => { u with replay := u.replay.filter (· != x.turn) }) } }
  if d.is F.TQ_CFG_RETAIN || d.pinned x.turn then d.putDesc i { x with st := .held } else freeQueue i d

/-- TURN_ACK for one turn (R230). -/
def ackTurn (t : Nat) (d : Dev) : Dev :=
  match d.holding t with
  | some x =>
    if x.st == .sent then
      let d := { d with tq := { d.tq with newestAck := some (match d.tq.newestAck with
        | some m => max m t
        | none => t) } }
      releaseSent (qIndex t) x d
    else count1 (R.TQ_COUNT 5) d
  | none => count1 (R.TQ_COUNT 5) d

/-- A verdict acts on a queue (R226, R228). -/
def actVerdict (i : Nat) (x : TQueue) (d : Dev) : Dev :=
  if x.st == .closed && x.verdict == 2 then releaseUnsent i x d else d.putDesc i x

/-- ACCEPT (1) or REJECT (2) for one turn (R230). -/
def verdictTurn (v t : Nat) (d : Dev) : Dev :=
  match d.holding t with
  | some x =>
    if d.verdictPolicy && (x.st == .open_ || x.st == .closed) && x.verdict == 0 then actVerdict (qIndex t) { x with verdict := v } d
    else count1 (R.TQ_COUNT 6) d
  | none => count1 (R.TQ_COUNT 6) d

/-- The turns that a link control body covers (R229). -/
def bodyTurns (b : Word64) : List Nat := (List.range (wbits b 59 52 + 1)).map (fun i => turnAdd (wbits b 47 0) i)

/-- A SENT frame without TURN_ACK for ACK_WAIT turns is released (R230). -/
def ackTimeout (t : Nat) (d : Dev) : Dev :=
  match d.holding t with
  | some x =>
    (match x.lastSend with
    | some s => if x.st == .sent && !x.inflight && s + d.get F.TQ_CFG_ACK_WAIT ≤ d.clk.bounds then
        releaseSent (qIndex t) x (count1 (R.TQ_COUNT 4) d) else d
    | none => d)
  | none => d

/-- A turn without a verdict for VERDICT_LIMIT turns takes the default action (R228). -/
def verdictTimeout (t : Nat) (d : Dev) : Dev :=
  match d.holding t with
  | some x =>
    if awaitsVerdict x d && x.closedAt + d.get F.TQ_LIMITS_VERDICT_LIMIT ≤ d.clk.bounds then
      let (x, d) := defaultAction x d
      actVerdict (qIndex t) x d
    else d
  | none => d

/-! ### Upstream ports (R242 to R248) -/

def Dev.upPort (d : Dev) (p : Nat) : UpPort := d.tq.up.getD p {}
def Dev.setUpPort (d : Dev) (p : Nat) (u : UpPort) : Dev := { d with tq := { d.tq with up := d.tq.up.set p u } }

/-- UA_STATE or UB_STATE: 0 OFF, 1 ACTIVE, 2 HOT_STANDBY, 3 GIVEN_UP. -/
def upStateField (p : Nat) : FRef := if p == 0 then F.TQ_STATUS_UA_STATE else F.TQ_STATUS_UB_STATE
def Dev.upState (d : Dev) (p : Nat) : Nat := d.get (upStateField p)

/-- Are the lanes of an upstream port ACTIVE? -/
def Dev.portUp (d : Dev) (p : Nat) : Bool := d.is (F.LNK_PORT_STATUS_ACTIVE p)

/-- BONDED arrangement. -/
def Dev.bonded (d : Dev) : Bool := d.is F.TQ_CFG_UP_ARR

/-- May a port start a frame? -/
def Dev.carries (d : Dev) (p : Nat) : Bool := d.upState p == 1 && (d.upPort p).gaveUp.isNone && d.portUp p

/-- Does a port carry a turn (R242, R244)? -/
def Dev.carriesTurn (d : Dev) (p t : Nat) : Bool := d.carries p && (!(d.bonded && d.upState (1 - p) == 1) || t % 2 == p)

/-- The marking of an upstream link in capability sets: true is active (R242). -/
def Dev.markActive (d : Dev) (p : Nat) : Bool :=
  d.is (if p == 0 then F.TQ_CFG_UP_EN_UA else F.TQ_CFG_UP_EN_UB) && d.upState p != 3

/-- A trigger of R243 is met on a port. -/
def portGiveUp (p : Nat) (d : Dev) : Dev :=
  let u := d.upPort p
  let d := d.setUpPort p { u with hit := true }
  if (d.upState p == 1 || d.upState p == 2) && u.gaveUp.isNone then
    count1 (R.TQ_COUNT (15 + p)) (d.setUpPort p { d.upPort p with gaveUp := some d.clk.bounds })
  else d

/-- Turns in SENT whose last send went out on a port, ascending (R244); with `all`, every turn in SENT (R248). -/
def sentTurns (all : Bool) (p : Nat) (d : Dev) : List Nat :=
  ((d.tq.q.filter (fun x => x.2.st == .sent && (all || x.2.viaUB == (p == 1)))).foldl (fun l x => insertTurn x l) []).map (fun x => x.2.turn)

/-- UPSTREAM_LOST is set or cleared: no upstream port can carry frames, for whatever reason (R248). -/
def judgeLost (d : Dev) : Dev :=
  let lost := d.upState 0 != 1 && d.upState 1 != 1
  let was := d.is F.TQ_STATUS_UPSTREAM_LOST
  let d := d.put F.TQ_STATUS_UPSTREAM_LOST (b2n lost)
  if lost && !was then raise E.TQ_UPSTREAM_LOST [] d else d

/-- Is a port sending the frame of a turn, be it first send, replay or rewind (R225)? -/
def Dev.sendsFrame (d : Dev) (p t : Nat) : Bool := match (d.upPort p).job with
  | some j => j.turn == t && j.kind != .stub && j.kind != .gone
  | none => false

/-- What one upstream port does at the boundary that has just come: its enable, switch-over, abort and rejoin (R242 to R248). A
trigger met at this boundary belongs to the turn that it opens. -/
def upBoundary (p : Nat) (d : Dev) : Dev :=
  let t := d.clk.bounds
  let q := 1 - p
  let en := d.is (if p == 0 then F.TQ_CFG_UP_EN_UA else F.TQ_CFG_UP_EN_UB)
  let u := d.upPort p
  let waits := match u.job with
    | some j => !j.left.isEmpty && !u.credited
    | none => false
  let whole := u.wasUp && d.portUp p
  let u := { u with waitTurns := if waits then u.waitTurns + 1 else 0, credited := false, wasUp := d.portUp p }
  let d := d.setUpPort p u
  if !en then (d.put (upStateField p) 0).setUpPort p { u with gaveUp := none, goodTurns := 0, hit := false }
  else
    let st := d.upState p
    match u.gaveUp.filter (· < t) with
    | some _ =>
      let d := (d.put (upStateField p) 3).setUpPort p { u with gaveUp := none, abortAt := some (t + 1), goodTurns := 0, hit := false, replay := [] }
      if st == 1 && (d.upState q == 1 || d.upState q == 2) && (d.upPort q).gaveUp.isNone && d.portUp q then
        let d := (d.put (upStateField q) 1).setUpPort q { d.upPort q with replay := sentTurns false p d }
        raise E.TQ_SWITCH_OVER [] d
      else d
    | none =>
      if st == 3 then
        let cut := u.abortAt == some t
        let d := match u.job with
          | some j => if cut then
              let d := abortJob p d
              (match d.holding j.turn with
              | some x => d.putDesc (qIndex j.turn) { x with inflight := d.sendsFrame q j.turn }
              | none => d) else d
          | none => d
        let u := if cut then { u with job := none, abortAt := none } else u
        let good := if u.hit || !whole then 0 else u.goodTurns + 1
        if d.get F.TQ_LIMITS_RECOVER_TURNS ≤ good then
          let alone := d.upState q != 1
          let d := d.put (upStateField p) (if d.bonded || alone then 1 else 2)
          let d := d.setUpPort p { u with goodTurns := 0, hit := false, replay := if alone then sentTurns true p d else [] }
          raise E.TQ_PORT_REJOINED [] d
        else d.setUpPort p { u with goodTurns := good, hit := false }
      else if st == 0 && d.portUp p then
        let alone := d.upState q != 1
        (d.put (upStateField p) (if d.bonded || alone then 1 else 2)).setUpPort p { u with hit := false, replay := if alone then sentTurns true p d else [] }
      else if st == 1 && !d.bonded && d.upState q == 1 && p == 1 then d.put (upStateField p) 2
      else if st == 2 && d.bonded && d.portUp p then d.put (upStateField p) 1
      else d.setUpPort p { u with hit := false }

/-- Both upstream ports at a boundary; in REDUNDANT a hot standby becomes active where UP_EN has taken the active port out (R242). -/
def upsBoundary (d : Dev) : Dev :=
  let d := upBoundary 1 (upBoundary 0 d)
  let lone (p : Nat) : Bool := !d.bonded && d.upState p == 2 && d.upState (1 - p) == 0 && (d.upPort p).gaveUp.isNone && d.portUp p
  judgeLost ([0, 1].foldl (fun d p => if lone p then
    (d.put (upStateField p) 1).setUpPort p { d.upPort p with replay := sentTurns true p d } else d) d)

/-! ### Sending (R231, R236, R237, R240) -/

/-- A frame as it leaves: REPLAY set without recomputing the CRC (R246). -/
def asReplay (ws : List Word64) : List Word64 :=
  match ws with
  | h :: r => wset h 56 56 1 :: r
  | [] => []

/-- A frame read with poisoned words (R240): none when its own structure is hit. `depth` bounds nesting. -/
def poisonFrame : Nat → List Nat → Nat → List Word64 → Option (List Word64)
  | 0, _, _, _ => none
  | f + 1, bad, i0, ws =>
    let items := frameItems ws.length i0 ws
    let fix (acc : Option (List Word64)) (it : Nat × List Word64) : Option (List Word64) :=
      match acc with
      | none => none
      | some out =>
        let (i, w) := it
        let ty := wbits (w.headD 0) 63 60
        let structure_ := bad.contains i || ((ty == 0xC || ty == 0xD) && bad.any (fun b => i ≤ b && b < i + w.length)) || (ty == 0xA && bad.contains (i + 1))
        let hit := bad.any (fun b => i ≤ b && b < i + w.length)
        if structure_ then none
        else if !hit then some (out ++ w)
        else if ty == 0xA then
          let h0 := w.headD 0
          let h1 := (w.drop 1).headD 0
          (match poisonFrame f bad (i + 2) (w.drop 2) with
          | some inner => some (out ++ [h0, wset (wset h1 63 32 inner.length) 22 22 1] ++ inner)
          | none => some (out ++ [h0, wset (wset (wset h1 63 32 0) 23 23 1) 22 22 1]))
        else some (out ++ (wset (w.headD 0) 59 59 1 :: w.drop 1))
    items.foldl fix (some [])

/-- The frame of a queue is read: errors that the flip mask left in its words are found (R384, R385). -/
def queueCheck (x : TQueue) (d : Dev) : TQueue × Dev :=
  let fam := d.tqFam
  d.ram.faulty.foldl (fun (acc : TQueue × Dev) p =>
    let (x, d) := acc
    let u := p.1 % 2 ^ 40
    if p.1 / 2 ^ 40 != fam || !x.pages.contains (if fam == 6 then u / 512 else u / 256) then acc
    else
      let d := { d with ram := { d.ram with faulty := kdel d.ram.faulty p.1 } }
      if p.2 == 1 then (x, correctable fam u 1 0x09 d)
      else
        let idx := (List.range x.words.length).filter (fun i => frameUnit x.pages i d == u)
        ({ x with bad := x.bad ++ idx.filter (fun i => !x.bad.contains i) }, uncorrectableNote fam u 1 0x09 d)) (x, d)

/-- The words of a queue's frame as sent (R240), and the queue after the read: with poisoned words, CRC and counts are
recomputed, POISON_READ counts it, and a frame whose own structure is hit becomes a GONE stub. -/
def frameToSend (x : TQueue) (replay : Bool) (d : Dev) : (List Word64 × TQueue) × Dev :=
  let (x, d) := queueCheck x d
  let mark (ws : List Word64) : List Word64 := if replay then asReplay ws else ws
  if x.bad.isEmpty then ((mark x.words, x), d)
  else
    let d := count1 (R.TQ_COUNT 18) (count (R.MEM_FAM_COUNT d.tqFam 2) ((x.bad.map (fun i => frameUnit x.pages i d)).eraseDups).length d)
    match poisonFrame 8 x.bad 0 x.words with
    | none => ((stubFrame x.turn true d, x), d)
    | some ws =>
      let body := ws.take (ws.length - 2)
      let t0 := (ws.drop (ws.length - 2)).headD 0
      ((mark (withTail body x.turn (wbits t0 55 40) (wbits t0 31 0)), x), d)

/-- The counter of a send: GONE where the frame leaves as a GONE stub, because its own structure is poisoned (R239, R240). -/
def sendCounter (i : Nat) (x : TQueue) : Nat := if x.bad.isEmpty || (poisonFrame 8 x.bad 0 x.words).isSome then i else 3

/-- Closed queues that may be sent for the first time (R227, R228). -/
def sendable (x : TQueue) (d : Dev) : Bool := x.st == .closed && (!d.verdictPolicy || x.verdict == 1)

/-- What a port would send next among replays, first sends and stubs: the lowest turn (R231). -/
def nextSend (p : Nat) (d : Dev) : Option (Nat × SendKind) :=
  let firsts := ((d.tq.q.filter (fun x => sendable x.2 d && d.carriesTurn p x.2.turn)).map (fun x => (x.2.turn, SendKind.first)))
  let stubs := (d.tq.refusals.filter (fun r => d.carriesTurn p r.1 && 0 < r.2)).map (fun r => (r.1, SendKind.stub))
  let reps := if d.carries p then ((d.upPort p).replay.map (fun t => (t, SendKind.replay))) else []
  (firsts ++ stubs ++ reps).foldl (fun m c => match m with
    | none => some c
    | some b => if c.1 < b.1 then some c else some b) none

/-- Take a refused turn off the refusal list. -/
def dropRefusal (t : Nat) (l : List (Nat × Nat)) : List (Nat × Nat) :=
  (l.map (fun r => if r.1 == t then (turnAdd r.1 1, r.2 - 1) else r)).filter (fun r => 0 < r.2)

/-- Start a job on a port. -/
def startJob (p t : Nat) (k : SendKind) (ws : List Word64) (d : Dev) : Dev :=
  d.setUpPort p { d.upPort p with job := some { turn := t, kind := k, left := ws } }

/-- A free port starts the waiting replay, first send or stub with the lowest turn; a replayed turn that is gone is
skipped (R231, R246). `fuel` bounds the turns skipped. -/
def frameSendStartF : Nat → Nat → Dev → Dev
  | 0, _, d => d
  | f + 1, p, d =>
    if (d.upPort p).job.isSome then d
    else
      match nextSend p d with
      | none => d
      | some (t, .stub) => startJob p t .stub (stubFrame t false d) { d with tq := { d.tq with refusals := dropRefusal t d.tq.refusals } }
      | some (t, .replay) =>
        let d := d.setUpPort p { d.upPort p with replay := (d.upPort p).replay.filter (· != t) }
        (match d.holding t with
        | some x =>
          if x.st == .sent then
            let ((ws, x), d) := frameToSend x true d
            startJob p t .replay ws (count1 (R.TQ_COUNT (sendCounter 1 x)) (d.putDesc (qIndex t) { x with inflight := true, viaUB := p == 1 }))
          else frameSendStartF f p d
        | none => frameSendStartF f p (count1 (R.TQ_COUNT 14) d))
      | some (t, _) =>
        match d.holding t with
        | some x =>
          let ((ws, x), d) := frameToSend x false d
          startJob p t .first ws (count1 (R.TQ_COUNT (sendCounter 0 x)) (d.putDesc (qIndex t)
            { x with st := .sent, sentOnce := true, viaUB := p == 1, inflight := true, lastSend := some d.clk.bounds }))
        | none => d

/-- FRAME_SEND_START (R231). -/
def frameSendStart (p : Nat) (d : Dev) : Dev := frameSendStartF 32768 (p % 2) d

/-- A frame has left (R231): its queue is no longer INFLIGHT, and ACK_WAIT counts from now (R230). -/
def frameSendDone (p : Nat) (d : Dev) : Dev :=
  let p := p % 2
  match (d.upPort p).job with
  | none => d
  | some j =>
    if !j.left.isEmpty then d
    else
      let d := d.setUpPort p { d.upPort p with job := none }
      match d.holding j.turn with
      | some x => if j.kind == .stub || j.kind == .gone then d
          else d.putDesc (qIndex j.turn) { x with inflight := d.sendsFrame (1 - p) j.turn, lastSend := some d.clk.bounds }
      | none => d

/-! ### Rewind (R238, R239) -/

/-- A rewind request: its status (R238). -/
def rewindRequest (f c : Nat) (d : Dev) : Dev × Nat :=
  let ok := 1 ≤ c && c ≤ 32768 && d.clk.turn ≤ f + 32767 && (match d.tq.newestClosed with
    | some m => decide (f + c ≤ m + 1)
    | none => false)
  let st := if !ok then 5 else if 4 ≤ d.tq.rewinds.length then 1 else 0
  let d := d.put F.TQ_REWIND_STATUS_RESULT st
  (if st == 0 then { d with tq := { d.tq with rewinds := d.tq.rewinds ++ [{ next := f, left := c }] } } else d, st)

/-- OUT_CAP as taken: 8 to 4 096, others 4 096. -/
def Dev.jobCap (d : Dev) : Nat :=
  let c := d.get F.CMP_JOB_CAP_OUT_CAP
  if 8 ≤ c && c ≤ 4096 then c else 4096

/-- Pips of a rewound frame: 640 bytes to an SDRAM pip, 512 to a fabric pip (R41, R231). -/
def rewindPips (bytes : Nat) (d : Dev) : Nat := if d.reservoir then (bytes + 511) / 512 else (bytes + 639) / 640

/-- The next rewound turn is sent under the REWIND budget, when nothing else waits on its port (R231, R239). -/
def rewindSend (d : Dev) : Dev :=
  match d.tq.rewinds with
  | [] => d
  | r :: rest =>
    let t := r.next
    match [0, 1].find? (fun p => d.carriesTurn p t) with
    | none => d
    | some p =>
      if (d.upPort p).job.isSome || (nextSend p d).isSome then d
      else
        let adv (d : Dev) : Dev := { d.put F.TQ_REWIND_STATUS_CURRENT t with tq := { d.tq with
          rewinds := if r.left ≤ 1 then rest else { next := turnAdd t 1, left := r.left - 1 } :: rest } }
        match d.holding t with
        | some x =>
          if x.st == .open_ then startJob p t .gone (stubFrame t true d) (count1 (R.TQ_COUNT 3) (adv d))
          else withPips (if d.reservoir then 0 else 1) 5 (rewindPips (8 * x.words.length) d) (fun d =>
            let ((ws, x), d) := frameToSend x true d
            let (ws, d) := if d.is F.CMP_CFG_RW_VERIFY then
                let (ws, k) := verifyFrame d.jobCap ws
                (ws, if k == 0 then d else raiseOnce E.CMP_VERIFY_FAIL [] (count (R.CMP_COUNT 6) k d))
              else (ws, d)
            let d := startJob p t .rewind ws (count1 (R.TQ_COUNT (sendCounter 2 x)) (adv (d.putDesc (qIndex t)
              { x with inflight := true, sentOnce := true, viaUB := p == 1 })))
            d.setUpPort p { d.upPort p with job := (d.upPort p).job.map (fun j => { j with verify := d.is F.CMP_CFG_RW_VERIFY }) }) d
        | none => startJob p t .gone (stubFrame t true d) (count1 (R.TQ_COUNT 3) (adv d))

/-! ### Marks (R234) -/

/-- SET of a mark at m: its status (R234). -/
def markSet (m : Nat) (d : Dev) : Dev × Nat :=
  let ok := d.clk.turn ≤ m + 32767 && m ≤ d.clk.turn + 32767
  let st := if ok then 0 else 5
  let d := d.put F.TQ_MARK_STATUS_RESULT st
  (if ok then { d with tq := { d.tq with markNext := some (some m) } } else d, st)

/-- CLEAR of the mark (R234). -/
def markClear (d : Dev) : Dev × Nat :=
  ({ d.put F.TQ_MARK_STATUS_RESULT 0 with tq := { d.tq with markNext := some none } }, 0)

/-- A set or clear takes effect at a boundary; HELD turns whose pin lifted before it, while RETAIN was 0, become FREE (R226, R234). -/
def markBoundary (d : Dev) : Dev :=
  let free := d.tq.q.filter (fun p => p.2.st == .held && p.2.lifted && !d.pinned p.2.turn && !p.2.inflight)
  let d := free.foldl (fun d p => freeQueue p.1 d) d
  match d.tq.markNext with
  | none => d
  | some m => let d := moveMark m (d.put F.TQ_STATUS_MARK_SET (b2n m.isSome))
    { d with tq := { d.tq with markNext := none } }

/-- A change of the queue area frees every queue that is not OPEN (R224). -/
def areaLanded (d : Dev) : Dev :=
  (d.tq.q.filter (fun p => p.2.st != .open_)).foldl (fun d p => countReclaim p.2 (freeQueue p.1 d)) d

/-- TL words of the queues at a boundary: OLDEST, NEWEST_ACK, FREE_PAGES. -/
def tqLatch (d : Dev) : Dev :=
  let olds := (d.tq.q.filter (fun p => p.2.st != .open_)).foldl (fun l p => insertTurn p l) []
  let d := match olds.head? with
    | some (_, x) => (d.setReg R.TQ_OLDEST_LO (toWord x.turn)).setReg R.TQ_OLDEST_HI (toWord (x.turn / 2 ^ 32))
    | none => (d.setReg R.TQ_OLDEST_LO 0xFFFFFFFF).setReg R.TQ_OLDEST_HI 0xFFFFFFFF
  let d := match d.tq.newestAck with
    | some t => (d.setReg R.TQ_NEWEST_ACK_LO (toWord t)).setReg R.TQ_NEWEST_ACK_HI (toWord (t / 2 ^ 32))
    | none => d
  d.setReg R.TQ_FREE_PAGES (toWord d.freePages)

/-- TQ_STATUS as it reads. -/
def tqStatus (d : Dev) : Word :=
  setBits (setBits (d.reg R.TQ_STATUS) 23 19 d.tq.refusals.length) 18 16 d.tq.rewinds.length

/-- CREDIT_TIMEOUT (R243): a frame has waited 4 turns without credit. -/
def creditTimeout (p : Nat) (d : Dev) : Dev := if 4 ≤ (d.upPort (p % 2)).waitTurns then portGiveUp (p % 2) d else d

/-- FORCE of UP_CMD or GIVE_UP: 1 UA, 2 UB (R243). -/
def forceGiveUp (f : Nat) (d : Dev) : Dev := if f == 1 then portGiveUp 0 d else if f == 2 then portGiveUp 1 d else d

/-! ### Commands -/

/-- DESC_SEL_WRITE (R225). -/
def execDescSelWrite (val : Word) (s : State) : Host.Outcome State Fault Refusal := onDev (descSelWrite val) s
/-- FRAME_SEND_START (R231). -/
def execFrameSendStart (p : Nat) (s : State) : Host.Outcome State Fault Refusal := onDev (frameSendStart p) s
/-- FRAME_SEND_DONE (R231). -/
def execFrameSendDone (p : Nat) (s : State) : Host.Outcome State Fault Refusal := onDev (frameSendDone p) s
/-- ACK_TIMEOUT (R230). -/
def execAckTimeout (turn : Nat) (s : State) : Host.Outcome State Fault Refusal := onDev (ackTimeout turn) s
/-- VERDICT_TIMEOUT (R228). -/
def execVerdictTimeout (turn : Nat) (s : State) : Host.Outcome State Fault Refusal := onDev (verdictTimeout turn) s
/-- RECLAIM (R232). -/
def execReclaim (s : State) : Host.Outcome State Fault Refusal := onDev reclaim s
/-- REWIND_SEND (R239). -/
def execRewindSend (s : State) : Host.Outcome State Fault Refusal := onDev rewindSend s
/-- CREDIT_TIMEOUT (R243). -/
def execCreditTimeout (p : Nat) (s : State) : Host.Outcome State Fault Refusal := onDev (creditTimeout p) s

end Sys2Proof.Machine
end

