-- ==== Sys2Proof/Machine/Collector.lean ====
section
/-! DEFINITION. The collector: sources, horizons, key order, order slips, LATE items, drains (R170 to R174), and the frame
builder: TURN_HEAD, items and TURN_TAIL of the Burjor's own frame (R184, R197 to R200). -/

namespace Sys2Proof.Machine

/-! ### Horizons (R171) -/

/-- The lesser of two horizons, ties to the first. -/
def lowHorizon (a b : Int × Nat) : Int × Nat := if b.1 < a.1 then b else a

/-- Horizon of the output FIFO of a channel, in fb from turn 0 (R171). -/
def outHorizon (n : Nat) (d : Dev) : Int :=
  let segs := (d.capCh n).segs.map (fun g => (sampleOf g.t - (g.pre : Int)) * 512)
  let gaps := (d.cap.gaps.filter (fun g => g.ch == some n)).map (·.first)
  match segs ++ gaps with
  | [] => ((d.clk.turn * 16384 + d.clk.ct : Nat) - (d.get F.CAP_DEC_DEC_WIN : Int) - 32) * 2048 - (d.get F.CAP_REC_PRE * 512 : Nat)
  | x :: r => r.foldl min x

/-- The lowest horizon and its source (R171): ties go to the lower source index. -/
def Dev.horizon (d : Dev) : Int × Nat :=
  let now : Int := ((d.clk.turn * 16384 + d.clk.ct) * 2048 : Nat)
  let h := (List.range 64).foldl (fun h n => lowHorizon h (outHorizon n d, 2 * n + 1)) (now - 320 * 2048, 0)
  let h := if d.tdc.gates.any (fun l => !l.isEmpty) then lowHorizon h (now - 2048 * 2048, 129) else h
  match (d.cap.gaps.filter (fun g => g.ch.isNone)).map (·.first) with
  | [] => lowHorizon h (now - 16 * 2048, 130)
  | x :: r => lowHorizon h (r.foldl min x, 130)

/-- COL_STATUS as it reads. -/
def colStatus (d : Dev) : Word := setBits (d.reg R.COL_STATUS) 23 16 d.horizon.2

/-- FIFO_LEVEL of a source as it reads. -/
def fifoLevel (s : Nat) (d : Dev) : Word :=
  pack32 [(26, 16, fifoWords (kget d.fifos (2 * s) [])), (9, 0, if s < 64 then fifoWords (kget d.fifos (2 * s + 1) []) else 0)]

/-! ### Entries (R169, R171) -/

/-- Up to n entries of a FIFO with their places; items that follow their predecessor are part of its entry. -/
def entryHeads : List Entry → Nat → Nat → List (Nat × Entry)
  | [], _, _ => []
  | e :: r, n, i => if n == 0 then [] else if e.cont then entryHeads r n (i + 1) else (i, e) :: entryHeads r (n - 1) (i + 1)

/-- The LOST item of a source (R169, R193). -/
def lostItem (src : Nat) (t : Stamp) (n : Nat) : Entry :=
  { t := t, src := src, words := [pack64 [(63, 60, 6), (57, 51, src / 2), (39, 0, t.t40)], pack64 [(63, 32, min n (2 ^ 32 - 1))]] }

/-- The entries that the collector examines: place in the FIFO, none for a LOST entry (R169, R171). -/
def examined (d : Dev) : List (Option Nat × Entry) :=
  d.lost.map (fun p => (none, lostItem p.1 p.2.1 p.2.2)) ++
    d.fifos.flatMap (fun p => (entryHeads p.2 (if (kfind d.lost p.1).isSome then 15 else 16) 0).map (fun x => (some x.1, x.2)))

/-- Order of keys: time, then source index (R171). -/
def keyLt (a b : Nat × Nat) : Bool := a.1 < b.1 || (a.1 == b.1 && a.2 < b.2)

/-- The key of an entry. -/
def Entry.key (e : Entry) : Nat × Nat := (e.t.fbs, e.src)

/-- The examined entry with the smallest key. -/
def smallest (l : List (Option Nat × Entry)) : Option (Option Nat × Entry) :=
  l.foldl (fun m x => match m with
    | none => some x
    | some b => if keyLt x.2.key b.2.key then some x else some b) none

/-! ### The frame being built (R197, R198) -/

/-- Does a turn have a frame (R197)? -/
def Dev.framed (d : Dev) (t : Nat) : Bool := d.col.framed.any (fun r => r.1 ≤ t && t ≤ r.2)

/-- Take n pages beside those of the queues (R224); none when the store cannot give them. -/
def takePages : Nat → List Nat → Dev → Option (List Nat) × Dev
  | 0, got, d => (some got, d)
  | n + 1, got, d =>
    match getPage 32768 d with
    | (some p, d) => takePages n (got ++ [p]) { d with tq := { d.tq with chains := d.tq.chains ++ [p] } }
    | (none, d) => (none, { d with tq := { d.tq with chains := d.tq.chains.filter (fun p => !got.contains p) } })

/-- The recoded chain of a frame grows with what has come of the frame; a chain that finds no page is given up, and the frame is to
be spliced raw (R262). The pages of the chain, and whether it was given up. -/
def growSecond (recode short : Bool) (ws : List Word64) (ps : List Nat) (d : Dev) : (List Nat × Bool) × Dev :=
  if !recode || short then ((ps, short), d)
  else match takePages (pagesFor (recodedSoFar ws) - ps.length) [] d with
    | (some qs, d) => ((ps ++ qs, false), d)
    | (none, d) => (([], true), dropPages ps d)

/-- The queue of a turn is refused while it is built (R236); a turn already refused is refused once. -/
def refuseOpen (t : Nat) (d : Dev) : Dev :=
  match d.holding t with
  | some x => if x.st == .open_ then refuseTurn t true (freeQueue (qIndex t) d) else d
  | none => d

/-- Words of the frame being built are written: in a leaf into the queue, in a concentrator into the own chain (R209, R212,
R223). -/
def colWrite (ws : List Word64) (d : Dev) : Dev :=
  match d.col.build with
  | none => d
  | some b =>
    if b.refused then d
    else if b.own then
      match takePages (pagesFor (b.words.length + ws.length) - b.pages.length) [] d with
      | (some ps, d) =>
        let ((ps2, short), d) := growSecond b.recode b.short (b.words ++ ws) b.pages2 d
        { d with col := { d.col with build := some { b with words := b.words ++ ws, pages := b.pages ++ ps, pages2 := ps2, short := short } } }
      | (none, d) => refuseOpen b.turn (dropChains b.turn d)
    else
      let (d, ok) := appendWords b.turn ws d
      if ok then d else { d with col := { d.col with build := some { b with refused := true } } }

/-- Close the frame being built: its TURN_TAIL is written, and a leaf's queue closes (R198, R223). -/
def closeFrame (d : Dev) : Dev :=
  match d.col.build with
  | none => d
  | some b =>
    let body := if b.own then b.words else (match d.holding b.turn with
      | some x => x.words
      | none => [])
    let d := colWrite ((withTail body b.turn b.late b.items).drop body.length) d
    match d.col.build with
    | none => d
    | some b =>
      let d := { d with col := { d.col with build := none } }
      if b.refused then d
      else if b.own then
        let o : OwnFrame :=
          { turn := b.turn, words := b.words, pages := b.pages, recode := b.recode, pages2 := b.pages2, short := b.short, overflow := b.overflow }
        { d with col := { d.col with ownDone := d.col.ownDone ++ [o] } }
      else closeQueue b.turn d

/-- Open the next frame with its TURN_HEAD (R198); it is the own frame of a concentrator where a cascade frame of its turn
has opened (R211). -/
def openFrame (h : Option (Nat × List Word64)) (d : Dev) : Dev :=
  match h with
  | none => d
  | some (n, ws) =>
    let own := d.cas.frames.any (fun f => f.turn == n)
    let open_ := match d.holding n with
      | some x => x.st == .open_
      | none => false
    let b : FrameBuild := { turn := n, own := own, refused := own && !open_, recode := own && d.is F.CMP_CFG_EN && d.is F.CMP_CFG_OWN_EN }
    if own then colWrite ws { d with col := { d.col with build := some b } }
    else
      let (d, ok) := openQueue n d
      colWrite ws { d with col := { d.col with build := some { b with refused := !ok } } }

/-- The TURN_TAIL of the closing frame and the next TURN_HEAD, once any started item is finished (R173, R198). -/
def frameTail (d : Dev) : Dev :=
  if d.col.group.isSome then d
  else
    match d.col.closing with
    | none => d
    | some h => openFrame h (closeFrame { d with col := { d.col with closing := none } })

/-- What the collector does at the boundary that opens the present turn: the frame of the turn before last closes, and the
present turn's TURN_HEAD is fixed (R22, R197, R198). -/
def collectorBoundary (d : Dev) : Dev :=
  let d := frameTail (if d.col.closing.isSome then { d with col := { d.col with group := none } } else d)
  let n := d.clk.turn
  let m := d.mode
  let has := d.turnValid && m != .boot && m != .test && m != .dormant
  let head := if has then some (n, turnHead n (d.get F.CAS_CFG_ROLE) d.clk.stepped d.clk.stepW d.clk.stepF d.headFields) else none
  let fr := d.col.framed
  let framed := if !has then fr else (match fr.getLast? with
    | some (a, z) => if turnAdd z 1 == n then fr.dropLast ++ [(a, n)] else fr ++ [(n, n)]
    | none => [(n, n)])
  frameTail { d.put F.COL_STATUS_DRAINING 0 with col := { d.col with
    closing := some d.col.head, head := head, framed := framed } }

/-! ### Emission (R171 to R173, R184, R197) -/

/-- After a step backwards the present turn may be numbered no higher than the frame being built. An item of the present turn
then waits for the present turn's own frame (R57, R173, R197); where the two turns have one number, an item whose time has
not come yet in the present turn is of the earlier one (DESIGN CHOICE, log entry 37). -/
def awaitsOwnFrame (e : Entry) (d : Dev) : Bool :=
  match d.col.build with
  | none => false
  | some b => e.t.turn == d.clk.turn && (d.clk.turn < b.turn || (d.clk.turn == b.turn && e.t.fbs ≤ d.now.fbs))

/-- The fate of the entry with the smallest key; none while it waits. -/
def entryFate (e : Entry) (d : Dev) : Option ItemFate :=
  let t := e.t.turn
  if !d.framed t then (if t ≤ d.clk.turn then some .noFrame else none)
  else
    match d.col.build with
    | none => if d.clk.turn ≤ t then none else some .lateNoFrame
    | some b =>
      if t < b.turn then (if 2048 ≤ b.turn - t then some .tooOld else some .late)
      else if t == b.turn then
        let slip := match b.last with
          | some k => keyLt e.key k
          | none => false
        if slip || d.is F.COL_STATUS_DRAINING || decide ((e.t.fbs : Int) < d.horizon.1) then some .inTime else none
      else none

/-- One item goes where its fate says. -/
def deliver (fate : ItemFate) (e : Entry) (d : Dev) : Dev :=
  match fate with
  | .noFrame => d
  | .lateNoFrame => count1 (R.COL_COUNT 1) d
  | .tooOld =>
    let ty := wbits (e.words.headD 0) 63 60
    if ty == 0 || ty == 1 then loseItems e.src 1 e.t d else count1 (R.COL_COUNT 1) d
  | .inTime | .late =>
    let late := fate == .late
    let slip := !late && (match d.col.build with
      | some b => (match b.last with
        | some k => !e.cont && keyLt e.key k
        | none => false)
      | none => false)
    let d := if slip then raiseOnce E.COL_ORDER_SLIP [] (count1 (R.COL_COUNT 2) d) else d
    let d := if late then raiseOnce E.COL_LATE [] (count1 (R.COL_COUNT 1) d) else d
    let d := count1 (R.COL_COUNT 0) d
    let d := if wbits (e.words.headD 0) 63 60 == 6 then count1 (R.COL_COUNT 3) d else d
    let d := colWrite (if late then (match e.words with
      | w :: r => wset w 58 58 1 :: r
      | [] => []) else e.words) d
    match d.col.build with
    | none => d
    | some b => { d with col := { d.col with build := some { b with
        items := b.items + 1, late := b.late + b2n late, last := if late || e.cont then b.last else some e.key } } }

/-- Place of the next item of a group, from place i on. -/
def nextCont : List Entry → Nat → Option (Nat × Entry)
  | [], _ => none
  | e :: r, i => if e.cont then some (i, e) else nextCont r (i + 1)

/-- Source and address of a memory error in the FIFO of a collector source (R371, R378). -/
def fifoFault (src : Nat) : Nat × Nat :=
  if src % 2 == 0 then (if src < 128 then src / 2 * 4 + 1 else 0x180, 0x30000000 + 0x2000 * (src / 2)) else (0x120 + src / 16, src)

/-- An item is read from its FIFO (R178, R382, R384, R385), where the read finds an error `err`: 1 corrected, 2
uncorrectable in a payload word, 3 uncorrectable in the first word. Then it goes where its fate says. -/
def readDeliver (err : Nat) (fate : ItemFate) (e : Entry) (d : Dev) : Dev :=
  let k := if 129 ≤ e.src then 0 else max err e.err
  -- under PARITY no error is corrected (R382)
  let k := if k == 1 && d.is (if e.src % 2 == 0 then F.MEM_FIFO_PROT_HIT else F.MEM_FIFO_PROT_OUT) then 2 else k
  let (source, addr) := fifoFault e.src
  if k == 0 then deliver fate e d
  else if k == 1 then deliver fate e (correctableAt 7 source addr (.sram 7 e.src) 1 0x08 d)
  else
    let d := uncorrectableAt 7 source addr (.sram 7 e.src) 1 0x08 d
    if k == 2 then deliver fate { e with words := match e.words with
      | w :: r => wset w 59 59 1 :: r
      | [] => [] } d
    else loseItems e.src 1 e.t d

/-- The collector was stalled for some ct before an item (R174). -/
def stallCount (stall : Nat) (d : Dev) : Dev := if stall == 0 then d else count (R.COL_COUNT 4) stall d

/-- The input FIFO of the compressor pipe overflows as an item enters an own frame that is to be recoded: the frame is to be spliced
raw (R262). -/
def overflowMark (o : Bool) (d : Dev) : Dev :=
  if o then { d with col := { d.col with build := d.col.build.map (fun b => { b with overflow := b.overflow || (b.own && b.recode) }) } } else d

/-- COLLECTOR_EMIT: the next item of a group whose emission has started, else the entry with the smallest key when it may go
(R171 to R173, R187). `stall` is the ct for which the frame builder could not accept the item: an operand of the model, since the
spec gives the builder's pace nowhere (log entry 53); an item that goes counts them in STALL_CT (R174). -/
def collectorEmit (o : Emission) (d : Dev) : Dev :=
  let note (d : Dev) : Dev := overflowMark o.overflow (stallCount o.stall d)
  match d.col.group with
  | some (src, i, fate) =>
    let l := kget d.fifos src []
    (match nextCont (l.drop i) i with
    | none => d
    | some (j, e) =>
      readDeliver o.err fate e (note { d with
        fifos := kset d.fifos src (l.eraseIdx j)
        col := { d.col with group := if e.more then some (src, j, fate) else none } }))
  | none =>
    let d := frameTail d
    match smallest ((examined d).filter (fun x => !awaitsOwnFrame x.2 d)) with
    | none => d
    | some (place, e) =>
      match entryFate e d with
      | none => d
      | some fate =>
        match place with
        | none => deliver fate e (note { d with lost := kdel d.lost e.src })
        | some i => readDeliver o.err fate e (note { d with
            fifos := kset d.fifos e.src ((kget d.fifos e.src []).eraseIdx i)
            col := { d.col with group := if e.more then some (e.src, i, fate) else none } })

/-- COLLECTOR_DRAIN_START: at ct 15 360 the drain of the frame being built begins (R173). -/
def drainStart (d : Dev) : Dev :=
  let d := emitPastGaps { d with clk := { d.clk with ct := max d.clk.ct 15360 } }
  if d.col.build.isSome then d.put F.COL_STATUS_DRAINING 1 else d

/-! ### Commands -/

/-- COLLECTOR_EMIT (R171). -/
def execCollectorEmit (e : Emission) (s : State) : Host.Outcome State Fault Refusal := onDev (collectorEmit e) s
/-- COLLECTOR_DRAIN_START (R173). -/
def execCollectorDrainStart (s : State) : Host.Outcome State Fault Refusal := onDev drainStart s
/-- FRAME_TAIL_EMIT (R198). -/
def execFrameTailEmit (s : State) : Host.Outcome State Fault Refusal := onDev frameTail s

end Sys2Proof.Machine
end

