-- ==== Sys2Proof/Machine/Cascade.lean ====
section
/-! DEFINITION. The concentrator role: downstream ports, ingest of frames, cascade frames, the cluster trigger, accepts, summaries
and the adjacency table (R204 to R219); short messages of VL_0 and link control bodies as they arrive (R219, R229, R293). -/

namespace Sys2Proof.Machine

def Dev.casPort (d : Dev) (j : Nat) : CasPort := d.cas.ports.getD j {}
def Dev.setCasPort (d : Dev) (j : Nat) (p : CasPort) : Dev := { d with cas := { d.cas with ports := d.cas.ports.set j p } }

/-- State of a downstream port (R206): 0 OFF, 1 LINK, 2 STANDBY, 3 ATTACHED, 4 DOWN, 5 ID_MISMATCH. -/
def Dev.portState (d : Dev) (j : Nat) : Nat := d.get (F.CAS_PORT_STATUS_STATE j)
/-- LEARNED_ID of a downstream port (R207). -/
def Dev.learnedId (d : Dev) (j : Nat) : Nat := d.get (F.CAS_PORT_STATUS_LEARNED_ID j)
/-- A port in STANDBY or ATTACHED. -/
def Dev.portOpen (d : Dev) (j : Nat) : Bool := d.portState j == 2 || d.portState j == 3

/-- The partner of a port (R208). -/
def Dev.partner (d : Dev) (j : Nat) : Option Nat :=
  if d.is (F.CAS_PORT_CFG_PARTNER_EN j) then some (d.get (F.CAS_PORT_CFG_PARTNER j)) else none
/-- The slot of a port: the lower port of a pair (R208). -/
def Dev.pairSlot (d : Dev) (j : Nat) : Nat := match d.partner j with
  | some q => min j q
  | none => j

/-! ### Short messages as they arrive (R293) -/

/-- A short message arrives on a lane: with a bad CRC, an unknown KIND or a character error it is discarded and counted in
MSG_CRC; on a lane that is not ACTIVE nothing arrives (R274, R293). -/
def shortIn (l : Nat) (good : Bool) (e : CharErr) (f : Dev → Dev) (d : Dev) : Dev :=
  if d.get (F.LNK_LANE_STATUS_STAGE l) != 5 then d
  else
    let d := countCharErr l e d
    if good && e == .none then f d else count1 (R.LNK_LANE_COUNT l 3) d

/-- KIND of a VL_0 body (R219). -/
def vl0Kind (body : List Word) : Nat := bits (wordAt body 0) 31 29

/-- A VL_0 body has a known KIND and the length that goes with it (R219, R293). -/
def vl0Good (body : List Word) : Bool :=
  let k := vl0Kind body
  ((k == 1 || k == 4) && body.length == 3) || ((k == 2 || k == 3) && body.length == 2)

/-- The ACCEPT that a body spells (R219). -/
def acceptBody (body : List Word) (d : Dev) : Accept :=
  let w := wordAt body 0
  { array := vl0Kind body == 3, cls := bits w 28 26, turn := extendTurn d.clk.turn (bits w 24 10), pip := bits w 9 0 }

/-- Words of an ACCEPT body (R219). -/
def acceptWords (kind cls : Nat) (coarse : Bool) (turn pip origin : Nat) : List Word :=
  [pack32 [(31, 29, kind), (28, 26, cls), (25, 25, b2n coarse), (24, 10, turn % 32768), (9, 0, pip)], pack32 [(31, 16, origin)]]

/-! ### Ports (R204 to R208) -/

/-- The learned ID of port j fails the check of R207. -/
def idMismatch (j : Nat) (d : Dev) : Bool :=
  let id := d.learnedId j
  let want := d.get (F.CAS_PORT_CFG_EXPECT_ID j)
  (want != 0 && want != id) ||
    (id != 0 && (id == d.chipId ||
      (List.range 8).any (fun i => i != j && d.learnedId i == id && d.partner j != some i && d.portState i != 0)))

/-- A frame arriving on a port is discarded: its pages return. -/
def dropRx (j : Nat) (d : Dev) : Dev :=
  match (d.casPort j).rx with
  | some r => dropPages (r.pages ++ r.pages2) (d.setCasPort j { d.casPort j with rx := none })
  | none => d

/-- The frame arriving on a port ends before its TURN_TAIL (R209). R209 names a TRUNCATED event too, but CAS_EVENT has no such bit:
the count is all there is. -/
def truncateRx (j : Nat) (d : Dev) : Dev :=
  match (d.casPort j).rx with
  | some _ => count1 (R.CAS_PORT_COUNT j 2) (dropRx j d)
  | none => d

/-- A downstream port changes state at a boundary (R206, R207). -/
def portBoundary (j : Nat) (d : Dev) : Dev :=
  let en := d.isConc && nbits (d.get F.CAS_CFG_PORT_EN) j j == 1
  let old := d.portState j
  let p := d.casPort j
  if !en then
    let d := dropRx j d
    (d.setReg (R.CAS_PORT_STATUS j) 0).setCasPort j { d.casPort j with was := false }
  else if !d.is (F.LNK_PORT_STATUS_ACTIVE (2 + j)) then
    if p.was then
      let d := d.put (F.CAS_PORT_STATUS_STATE j) 4
      if old == 4 then d else raise E.CAS_PORT_DOWN [] d
    else d.put (F.CAS_PORT_STATUS_STATE j) 1
  else if idMismatch j d then
    let d := d.put (F.CAS_PORT_STATUS_STATE j) 5
    if old == 5 then d else raise E.CAS_ID_MISMATCH [] d
  else if d.is (F.LNK_PEER_CAP_MARK (2 + j)) then
    let d := d.put (F.CAS_PORT_STATUS_STATE j) 3
    if old == 3 then d.setCasPort j { p with was := true }
    else raise E.CAS_PORT_ATTACHED [] (d.setCasPort j { p with was := true, attachedAt := d.clk.turn })
  else (d.put (F.CAS_PORT_STATUS_STATE j) 2).setCasPort j { p with was := true }

/-- The IDs and roles adopted from the capability sets of active downstream ports (R206, R207, R282). -/
def learnIds (d : Dev) : Dev :=
  (List.range 8).foldl (fun d j =>
    if d.isConc && nbits (d.get F.CAS_CFG_PORT_EN) j j == 1 && d.is (F.LNK_PORT_STATUS_ACTIVE (2 + j)) then
      (d.put (F.CAS_PORT_STATUS_LEARNED_ID j) (d.get (F.LNK_PORT_STATUS_PEER_ID (2 + j)))).put (F.CAS_PORT_STATUS_PEER_CONC j)
        (d.get (F.LNK_PEER_CAP_ROLE (2 + j)))
    else d) d

/-- CAS_STATUS as it reads. -/
def casStatus (d : Dev) : Word :=
  let mask (s : Nat) : Nat := ((List.range 8).filter (fun j => d.portState j == s)).foldl (fun a j => a + 2 ^ j) 0
  pack32 [(31, 31, d.get F.CAS_CFG_ROLE), (23, 16, mask 3), (15, 8, mask 4)]

/-! ### Cascade frames (R210 to R212) -/

def Dev.casFrame (d : Dev) (t : Nat) : Option CasFrame := d.cas.frames.find? (fun f => f.turn == t)
def Dev.setCasFrame (d : Dev) (f : CasFrame) : Dev :=
  { d with cas := { d.cas with frames := d.cas.frames.map (fun x => if x.turn == f.turn then f else x) } }

/-- The queue of a turn is OPEN. -/
def Dev.queueOpen (d : Dev) (t : Nat) : Bool := match d.holding t with
  | some x => x.st == .open_
  | none => false

/-- SUBFRAME_HEAD (R202). -/
def subframeHead (chip turn words port : Nat) (missing crcBad recoded : Bool) : List Word64 :=
  [pack64 [(63, 60, 0xA), (55, 40, chip), (39, 25, turn)],
    pack64 [(63, 32, words), (31, 24, port), (23, 23, b2n missing), (22, 22, b2n crcBad), (21, 21, b2n recoded)]]

/-- Words go behind those of an OPEN queue on pages of their own, which are then the queue's; pages that the frame does not need
return (R209, R224). -/
def spliceWords (t : Nat) (ws : List Word64) (pages : List Nat) (d : Dev) : Dev × Bool :=
  let d := dropPages pages d
  match d.queue (qIndex t) with
  | none => (d, false)
  | some x =>
    let n := pagesFor (x.words.length + ws.length)
    appendWords t ws (d.setQueue (qIndex t) { x with pages := (x.pages ++ pages).take n })

/-- A sub-frame is spliced into queue t behind its SUBFRAME_HEAD (R209, R211, R212). `port` is 255 for the own frame. -/
def spliceSub (port chip t : Nat) (ws : List Word64) (crcBad recoded : Bool) (pages : List Nat) (d : Dev) : Dev :=
  match d.casFrame t with
  | none => dropPages pages d
  | some f =>
    if !d.queueOpen t then
      let d := dropPages pages d
      if port == 255 then d else count1 (R.TQ_COUNT 13) d
    else
      let (d, ok) := spliceWords t (subframeHead chip t ws.length port false crcBad recoded ++ ws) pages d
      if !ok then d
      else
        let d := d.setCasFrame { f with subs := f.subs ++ [(chip, port)] }
        if port == 255 then d
        else
          let p := d.casPort port
          let left := (2 + 2 * f.level - f.age) * 16384 - d.clk.ct
          { d.setCasPort port { p with margins := p.margins ++ [(d.clk.bounds, min left 131071)] } with
            outCtl := d.outCtl ++ [(2 + port, pack64 [(63, 60, 1), (47, 0, t)])] }

/-- What the cascade frames do at the boundary that opens the present turn: frames close with their MISSING heads, and, for a
concentrator in a turn that has a frame, cascade frame n opens (R211, R212). -/
def casClose (f : CasFrame) (d : Dev) : Dev :=
  let d := { d with cas := { d.cas with frames := d.cas.frames.filter (fun x => x.turn != f.turn) } }
  let missing := f.owed.filter (fun s => !f.subs.any (fun x => x.2 != 255 && d.pairSlot x.2 == s))
  match d.holding f.turn with
  | none => d
  | some x =>
    if x.st != .open_ then d
    else
      let d := if missing.isEmpty then d else raiseOnce E.CAS_MISSING [] d
      let heads := missing.flatMap (fun s => subframeHead (d.learnedId s) f.turn 0 s true false false)
      let ws := withTail (x.words ++ heads) f.turn 0 (f.subs.length + missing.length)
      let (d, ok) := appendWords f.turn (ws.drop x.words.length) d
      if ok then closeQueue f.turn d else d

/-- Slots that owe a sub-frame of a turn that opens now, in port order (R211). -/
def owedSlots (d : Dev) : List Nat :=
  (List.range 8).filter (fun s => (List.range 8).any (fun j => d.pairSlot j == s && (d.portState j == 3 || d.portState j == 4)))

/-- Cascade frame of the present turn opens with its TURN_HEAD (R212). After a backward step it takes the place of the frame that was open
under its number (R241). -/
def casOpen (d : Dev) : Dev :=
  let n := d.clk.turn
  let (d, ok) := openQueue n d
  let d := { d with cas := { d.cas with frames := d.cas.frames.filter (fun f => f.turn != n) ++ [{ turn := n, level := d.get F.CAS_CFG_LEVEL, owed := owedSlots d }] } }
  if ok then (appendWords n (turnHead n 1 d.clk.stepped d.clk.stepW d.clk.stepF d.headFields) d).1 else d

/-- Margins of the last 4 096 turns; the smallest is latched (R212). -/
def marginLatch (d : Dev) : Dev :=
  (List.range 8).foldl (fun d j =>
    let p := d.casPort j
    let ms := p.margins.filter (fun m => d.clk.bounds ≤ m.1 + 4096)
    (d.setCasPort j { p with margins := ms }).put (F.CAS_PORT_MARGIN_MARGIN j) (ms.foldl (fun a m => min a m.2) 131071)) d

/-- All downstream state is cleared: partial sub-frames and those being recoded, margins, the cluster trigger, and what waits for a
downstream port or came from one (R204). The learned IDs go with PORT_STATUS. -/
def casClear (d : Dev) : Dev :=
  let d := dropPages (d.cas.ports.flatMap (fun p => (p.rx.toList ++ p.pipe).flatMap (fun r => r.pages ++ r.pages2))) d
  { d with
    cas := { d.cas with ports := List.replicate 8 {}, prims := [], coarse := [], maps := [], hold := [0, 0, 0, 0], due := [], delayed := [],
                        relayed := [], held := {} }
    outCtl := d.outCtl.filter (fun c => c.1 < 2)
    outShort := d.outShort.filter (fun m => m.port < 2)
    lnk := { d.lnk with ports := d.lnk.ports.mapIdx (fun p x => if 2 ≤ p && p < 10 then { x with rxMsg := [], txMsg := none, msgs := [] } else x) }
    out := d.out.filter (fun m => m.relay.isNone && (match m.dst with
      | .down _ => false
      | _ => true)) }

/-- The cascade unit at the boundary that opens the present turn, after its commits (R204, R206, R211, R212). It stands before the
collector's boundary, which opens the own frame of the turn before. -/
def cascadeBoundary (d : Dev) : Dev :=
  let d := { d with cas := { d.cas with frames := d.cas.frames.map (fun f => { f with age := f.age + 1 }) } }
  let d := learnIds d
  let d := (List.range 8).foldl (fun d j => portBoundary j d) d
  let d := (d.cas.frames.filter (fun f => 2 + 2 * f.level ≤ f.age)).foldl (fun d f => casClose f d) d
  let d := if d.isConc then d else casClear d
  let d := { d with tq := { d.tq with head0 := d.headFields } }
  let m := d.mode
  if d.isConc && d.turnValid && m != .boot && m != .test && m != .dormant then casOpen d else d

/-! ### Ingest (R209) -/

/-- Leave out the IDLE words that stand between items, those of enclosed frames too (R181). -/
def dropIdle : Nat → List Word64 → List Word64
  | 0, l => l
  | _ + 1, [] => []
  | f + 1, w :: r =>
    if wbits w 63 60 == 0xF then dropIdle f r
    else
      let n := max (itemLen w) 1
      (w :: r).take n ++ dropIdle f ((w :: r).drop n)

/-- Words of VL_2 arrive on D_j in order (R209, R292): `mark` begins a frame, whatever becomes of those before it. A frame beyond
65 536 words, IDLE words not counted, is discarded when it reaches the limit, and one whose chain finds no page refuses its turn. The
chain of a frame that is recoded has a second one beside it (R262). -/
def ingestWords (j : Nat) (mark : Bool) (ws : List Word64) (d : Dev) : Dev :=
  if d.portState j != 3 then dropRx j d
  else
    let d := if mark then
        let d := truncateRx j d
        d.setCasPort j { d.casPort j with rx := some { recode := d.is F.CMP_CFG_EN } }
      else d
    match (d.casPort j).rx with
    | none => d
    | some r =>
      let all := dropIdle (r.words.length + ws.length) (r.words ++ ws)
      if 65536 < all.length then truncateRx j d
      else
        match takePages (pagesFor all.length - r.pages.length) [] d with
        | (some ps, d) =>
          let ((ps2, short), d) := growSecond r.recode r.short all r.pages2 d
          d.setCasPort j { d.casPort j with rx := some { r with words := all, pages := r.pages ++ ps, pages2 := ps2, short := short } }
        | (none, d) => count1 (R.TQ_COUNT 13) (refuseOpen (headTurn all) (dropRx j d))

/-- The frame is discarded and counted in counter i of its port. -/
def rejectRx (j i : Nat) (d : Dev) : Dev := count1 (R.CAS_PORT_COUNT j i) (dropRx j d)

/-- The checks Closed and Duplicate of R209 on a TURN_HEAD: none if both pass, else the counter. -/
def closedOrDuplicate (h0 h1 : Word64) (d : Dev) : Option Nat :=
  match d.casFrame (wbits h0 47 0) with
  | none => some 3
  | some f => if f.subs.any (fun x => x.1 == wbits h1 63 48) then some 5 else none

/-- The checks of R209 that a TURN_HEAD decides: none if all pass, else the counter. The boundary at which the port attached is taken
under its present number (R57). -/
def headFails (j : Nat) (h0 h1 : Word64) (d : Dev) : Option Nat :=
  let t := wbits h0 47 0
  let id := d.learnedId j
  if id == 0 || wbits h1 63 48 != id || wbits h0 50 48 != 1 then some 4
  else if t < d.presentTurn (d.casPort j).attachedAt then some 4
  else if d.clk.turn < t then some 4
  else closedOrDuplicate h0 h1 d

/-- The frame that words spell, up to and with its TURN_TAIL, as items; none before the TURN_TAIL is complete. -/
def wholeFrame (ws : List Word64) : Option (List (List Word64)) :=
  let items := (frameItems ws.length 0 ws).map (·.2)
  let pre := items.takeWhile (fun w => itemType w != 0xD)
  match items.drop pre.length with
  | t :: _ => if t.length == 2 then some (pre ++ [t]) else none
  | [] => none

/-- A discard on a failed head check; a late frame raises its event (R209). -/
def discardRx (j i : Nat) (d : Dev) : Dev :=
  let d := rejectRx j i d
  if i == 3 then raiseOnce E.CAS_LATE_FRAME [] d else d

/-- FRAME_HEAD_RECEIVE: the TURN_HEAD that has arrived on D_j is checked (R209). -/
def frameHeadReceive (j : Nat) (d : Dev) : Dev :=
  match (d.casPort j).rx with
  | none => d
  | some r =>
    let ws := r.words
    if r.stage != .head || ws.length < 3 then d
    else if wbits (ws.headD 0) 63 60 != 0xC then rejectRx j 4 d
    else match headFails j (ws.headD 0) (ws.getD 1 0) d with
      | some i => discardRx j i d
      | none => d.setCasPort j { d.casPort j with rx := some { r with stage := .body } }

/-- A frame of D_j, on pages of its own, is spliced, with the checks Closed and Duplicate made again (R209). -/
def spliceRx (j : Nat) (ws : List Word64) (crcBad recoded : Bool) (pages : List Nat) (d : Dev) : Dev :=
    match closedOrDuplicate (ws.headD 0) (ws.getD 1 0) d with
    | some i =>
      let d := count1 (R.CAS_PORT_COUNT j i) (dropPages pages d)
      if i == 3 then raiseOnce E.CAS_LATE_FRAME [] d else d
    | none =>
      let d := if crcBad then raiseOnce E.CAS_CRC_BAD [] (count1 (R.CAS_PORT_COUNT j 1) d) else d
      let d := if crcBad || !d.queueOpen (wbits (ws.headD 0) 47 0) then d else count1 (R.CAS_PORT_COUNT j 0) d
      spliceSub j (wbits (ws.getD 1 0) 63 48) (wbits (ws.headD 0) 47 0) ws crcBad recoded pages d

/-- ITEM_COUNT, TURN_LO and CRC of a frame agree (R201, R203, R209). -/
def frameGood (items : List (List Word64)) : Bool :=
  let t := items.getLast?.getD []
  let h0 := (items.headD []).headD 0
  let body := items.dropLast.flatMap id ++ t.take 1
  wbits (t.headD 0) 31 0 == items.length - 2 && wbits (t.getD 1 0) 63 32 == wbits h0 31 0 &&
    wbits (t.getD 1 0) 31 0 == frameCrc body (wbits (t.getD 1 0) 63 32)

/-- FRAME_TAIL_RECEIVE: the frame on D_j whose TURN_TAIL has arrived is checked, and spliced, recoded or discarded (R209, R210). -/
def frameTailReceive (j : Nat) (d : Dev) : Dev :=
  let d := frameHeadReceive j d
  match (d.casPort j).rx with
  | none => d
  | some r =>
    if r.stage != .body then d
    else match wholeFrame r.words with
      | none => d
      | some items =>
        let ws := items.flatMap id
        let bad := !frameGood items
        let d := d.setCasPort j { d.casPort j with rx := none }
        if !bad && r.recode && itemType (items.getD 1 []) != 0xA then
          d.setCasPort j { d.casPort j with pipe := (d.casPort j).pipe ++ [{ r with done := ws }] }
        else spliceRx j ws bad false r.pages (dropPages r.pages2 d)

/-! ### Recoding on ingress (R210, R261, R262) -/

/-- Counters of a frame that was recoded. -/
def countRecode (r : Recoded) (d : Dev) : Dev :=
  let d := if r.groups == 0 then d else count (R.CMP_COUNT 1) r.groups (count1 (R.CMP_COUNT 0) d)
  let d := if r.kept == 0 then d else count (R.CMP_COUNT 2) r.kept d
  let d := if r.passed == 0 then d else count (R.CMP_COUNT 3) r.passed d
  let add (f : FRef) (n : Nat) (d : Dev) : Dev := d.lput f (min (d.lget f + n) 65535)
  add F.CMP_RATE_WORDS_OUT r.wordsOut (add F.CMP_RATE_WORDS_IN r.wordsIn d)

/-- The words that a frame is spliced with, whether they are recoded, and their pages: the recoded chain is kept, or the raw one after an
overflow of the input FIFO or with no page for the recoded chain; the other is freed (R262). -/
def recodeChoice (overflow short : Bool) (ws : List Word64) (pages pages2 : List Nat) (d : Dev) : (List Word64 × Bool × List Nat) × Dev :=
  let raw (i : Nat) (d : Dev) : (List Word64 × Bool × List Nat) × Dev :=
    ((ws, false, pages), raiseOnce E.CMP_NO_RECODE [] (count1 (R.CMP_COUNT i) (dropPages pages2 d)))
  if overflow then raw 4 d
  else if short then raw 5 d
  else
    let (out, r) := recodeFrame ws
    if r.groups == 0 then ((ws, false, pages), countRecode r (dropPages pages2 d))
    else match takePages (pagesFor out.length - pages2.length) [] d with
    | (none, d) => raw 5 d
    | (some ps, d) => ((out, true, pages2 ++ ps), countRecode r (dropPages pages d))

/-- RECODE_DONE: a pipe has finished the checked frame of D_j (R262). -/
def recodeDone (j : Nat) (overflow : Bool) (d : Dev) : Dev :=
  match (d.casPort j).pipe with
  | [] => d
  | r :: rest =>
    let d := d.setCasPort j { d.casPort j with pipe := rest }
    match closedOrDuplicate (r.done.headD 0) (r.done.getD 1 0) d with
    | some _ => spliceRx j r.done false false r.pages (dropPages r.pages2 d)
    | none =>
      let ((ws, rec, pages), d) := recodeChoice overflow r.short r.done r.pages r.pages2 d
      spliceRx j ws false rec pages d

/-- CMP_STATUS as it reads: PIPE_BUSY, where port D_j uses pipe j mod 4 and the own frame of turn n pipe n mod 4 (R262), and
VERIFY_ACTIVE while a rewound frame is verified as it leaves (R267). -/
def cmpStatus (d : Dev) : Word :=
  let port (j : Nat) : Bool := !(d.casPort j).pipe.isEmpty || (match (d.casPort j).rx with
    | some r => r.recode && r.stage != .head
    | none => false)
  let own (k : Nat) : Bool := d.col.ownDone.any (fun o => o.recode && o.turn % 4 == k) || (match d.col.build with
    | some b => b.recode && !b.refused && b.turn % 4 == k
    | none => false)
  let verify : Bool := d.tq.up.any (fun u => match u.job with
    | some j => j.verify && !j.left.isEmpty
    | none => false)
  let mask := ((List.range 4).filter (fun k => port k || port (k + 4) || own k)).foldl (fun a k => a + 2 ^ k) 0
  setBits (setBits (d.reg R.CMP_STATUS) 31 28 mask) 27 27 (b2n verify)

/-- OWN_FRAME_SPLICE: the own closed frame is spliced (R212), recoded first with OWN_EN (R251), or raw where its input FIFO has
overflowed (R262). -/
def ownFrameSplice (d : Dev) : Dev :=
  match d.col.ownDone with
  | [] => d
  | o :: rest =>
    let d := { d with col := { d.col with ownDone := rest } }
    if !d.queueOpen o.turn then dropPages (o.pages ++ o.pages2) d
    else
      let ((ws, rec, pages), d) := if o.recode then recodeChoice o.overflow o.short o.words o.pages o.pages2 d else ((o.words, false, o.pages), d)
      spliceSub 255 d.chipId o.turn ws false rec pages d

/-! ### The cluster trigger (R213 to R218) -/

/-- Half of an adjacency entry: bank, pixel, word (R214). -/
def Dev.adjWord (d : Dev) (bank i w : Nat) : Word := kget d.cas.adj (bank * 2048 + i * 2 + w) (if w == 0 then 0xBFFFFFFF else 0x3FFFFFFF)

/-- Pixels with EN = 1 in a bank, as a bitmap. -/
def enabledPixels (bank : Nat) (d : Dev) : Nat :=
  d.cas.adj.foldl (fun a p => if p.1 / 2048 == bank && p.1 % 2 == 0 && !bit p.2 31 && nbits a (p.1 % 2048 / 2) (p.1 % 2048 / 2) == 1
    then a - 2 ^ (p.1 % 2048 / 2) else a) (2 ^ 576 - 1)

/-- Neighbours of a pixel (R214). -/
def neighbours (bank i : Nat) (d : Dev) : List Nat :=
  let w0 := d.adjWord bank i 0
  let w1 := d.adjWord bank i 1
  ([bits w0 29 20, bits w0 19 10, bits w0 9 0, bits w1 29 20, bits w1 19 10, bits w1 9 0]).filter (· < 576)

/-- PRIMITIVE_FORM: 24 ct after tick p ends its bitmap closes (R146, R148); a leaf sends or holds it, a concentrator gives it to its
cluster trigger. -/
def primitiveForm (turn pip : Nat) (d : Dev) : Dev :=
  if !primForms turn d then d
  else if d.isConc then
    let p := tickNo turn pip
    let b := primBitmap turn pip d
    { d with cap := { d.cap with maps := kset d.cap.maps p b }, cas := { d.cas with prims := kset d.cas.prims (16 * p + 8) b } }
  else primLeaf turn pip d

/-- PRIMITIVE_RECEIVE: a PRIMITIVE arrives on D_j (R213). -/
def primitiveReceive (j : Nat) (body : List Word) (d : Dev) : Dev :=
  if d.portState j != 3 || vl0Kind body != 1 then d
  else
    let w := wordAt body 0
    let turn := extendTurn d.clk.turn (bits w 27 13)
    let p := tickNo turn (bits w 12 3)
    let due := d.periodOf ((p * 32768 : Nat) : Int) + (d.getAt turn F.CAS_TRIG_CFG_D_CT : Nat) - 32
    if due < (d.nowCt : Int) then raiseOnce E.CAS_PRIM_LATE [] (count1 (R.CAS_PORT_COUNT j 6) d)
    else
      let k := 16 * p + d.pairSlot j
      let m := (wordAt body 1).toNat * 2 ^ 32 + (wordAt body 2).toNat
      { d with cas := { d.cas with
        prims := kset d.cas.prims k (kget d.cas.prims k 0 ||| m)
        coarse := if bit w 28 && !d.cas.coarse.contains p then d.cas.coarse ++ [p] else d.cas.coarse } }

/-- The bitmap b[p] (R213). -/
def clusterMap (turn p : Nat) (d : Dev) : Nat :=
  let raw := (List.range 9).foldl (fun a s => a + kget d.cas.prims (16 * p + s) 0 * 2 ^ (64 * s)) 0
  raw &&& enabledPixels (d.getAt turn F.CAS_TRIG_CFG_ADJ_BANK) d

/-- Does rule r hit on a window's bitmap (R215)? -/
def ruleHits (turn r map : Nat) (d : Dev) : Bool :=
  let n := d.getAt turn (F.CAS_RULE_N r)
  if d.getAt turn (F.CAS_RULE_KIND r) == 1 then n ≤ popcount map 576
  else
    let bank := d.getAt turn F.CAS_TRIG_CFG_ADJ_BANK
    (List.range 576).any (fun i => nbits map i i == 1 && n - 1 ≤ ((neighbours bank i d).filter (fun k => nbits map k k == 1)).length)

/-- Rule r is evaluated for tick p: whether it fired, its next hold and whether the hit was suppressed (R215). -/
def ruleStep (turn p r : Nat) (d : Dev) : Bool × Nat × Bool :=
  let hold := d.cas.hold.getD r 0
  if d.getAt turn (F.CAS_RULE_EN r) == 0 then (false, hold, false)
  else
    let win := d.getAt turn (F.CAS_RULE_WIN r) + 1
    let map := (List.range win).foldl (fun a i => if i ≤ p then a ||| kget d.cas.maps (p - i) 0 else a) 0
    let hit := ruleHits turn r map d
    if hit && hold == 0 then (true, d.getAt turn (F.CAS_RULE_HOLDOFF r), false)
    else (false, hold - 1, hit)

/-- A PRIMITIVE of the window of rule r was coarsened (R219). -/
def ruleCoarse (turn p r : Nat) (d : Dev) : Bool :=
  (List.range (d.getAt turn (F.CAS_RULE_WIN r) + 1)).any (fun i => i ≤ p && d.cas.coarse.contains (p - i))

/-- SUMMARY of tick p, sent or held under the cap of R148 (R218). -/
def summaryForm (turn pip map rules : Nat) (d : Dev) : Dev :=
  let port := d.primPort
  let bucket := d.bucketFill port
  let d := d.setBucket port bucket
  let mult := popcount map 576
  let h := d.cas.held
  if h.span == 0 && mult < d.getAt turn F.CAS_TRIG_CFG_UP_MULT && rules == 0 then d
  else
    let slots := ((List.range 9).filter (fun s => nbits map (64 * s + 63) (64 * s) != 0)).foldl (fun a s => a + 2 ^ s) 0
    let h : HeldSummary := { slots := h.slots ||| slots, mult := max h.mult mult, rules := h.rules ||| rules, span := h.span + 1 }
    if 16 ≤ bucket then
      let body : List Word := [pack32 [(31, 29, 4), (28, 28, b2n (decide (1 < h.span))), (27, 13, turn % 32768), (12, 3, pip), (2, 0, h.span - 1)],
        pack32 [(31, 23, h.slots), (22, 13, h.mult), (12, 9, h.rules)], 0]
      let up := d.get (F.LNK_LANE_STATUS_STAGE (4 * port)) == 5
      let d := d.setBucket port (bucket - 16)
      count1 (R.CAS_COUNT 5) { d with
        cas := { d.cas with held := {} }
        outShort := if up then d.outShort ++ [{ port := port, body := body }] else d.outShort }
    else { d with cas := { d.cas with held := h } }

/-- CLUSTER_EVALUATE: at the collection deadline of tick p the rules are evaluated (R213, R215, R218). -/
def clusterEvaluate (turn pip : Nat) (d : Dev) : Dev :=
  if !d.isConc || !primMode (d.modeAt turn) then d
  else
    let p := tickNo turn pip
    let map := clusterMap turn p d
    let d := { d with cas := { d.cas with
      maps := kset (d.cas.maps.filter (fun x => p < x.1 + 8)) p map
      prims := d.cas.prims.filter (fun x => p < x.1 / 16)
      coarse := d.cas.coarse.filter (fun t => p < t + 8) } }
    let en := d.isAt turn F.CAS_TRIG_CFG_CT_EN
    let res := if en then (List.range 4).map (fun r => ruleStep turn p r d) else (d.cas.hold.map (fun h => (false, h, false)))
    let fired := (List.range 4).filter (fun r => (res.getD r (false, 0, false)).1)
    let d := { d with cas := { d.cas with hold := res.map (fun x => x.2.1) } }
    let d := fired.foldl (fun d r => count1 (R.CAS_COUNT (6 + r)) d) d
    let supp := (res.filter (fun x => x.2.2)).length
    let d := if supp == 0 then d else count (R.CAS_COUNT 2) supp d
    let d := match fired with
      | [] => d
      | r :: _ => { d with cas := { d.cas with due := d.cas.due ++ [{ turn := turn, pip := pip, cls := d.getAt turn (F.CAS_RULE_CLASS r), coarse := ruleCoarse turn p r d }] } }
    if d.getAt turn F.CAS_CFG_UP_PRIM == 1 then summaryForm turn pip map (fired.foldl (fun a r => a + 2 ^ r) 0) d else d

/-- A VL_0 body leaves on D_j, or waits for the message that the port is sending (R216). -/
def sendDown (count : Bool) (body : List Word) (j : Nat) (d : Dev) : Dev :=
  if !d.portOpen j then d
  else if d.outShort.any (fun m => m.port == 2 + j) || d.cas.delayed.any (fun m => m.1 == j) then
    let d := { d with cas := { d.cas with delayed := d.cas.delayed ++ [(j, body)] } }
    if count then count1 (R.CAS_PORT_COUNT j 7) d else d
  else { d with outShort := d.outShort ++ [{ port := 2 + j, body := body }] }

/-- CLUSTER_ACCEPT_SEND: the oldest decided ACCEPT leaves on every open port and reaches the own capture (R216). -/
def clusterAcceptSend (d : Dev) : Dev :=
  match d.cas.due with
  | [] => d
  | a :: rest =>
    let d := count1 (R.CAS_COUNT 0) { d with cas := { d.cas with due := rest } }
    let d := (List.range 8).foldl (fun d j => sendDown true (acceptWords 2 a.cls a.coarse a.turn a.pip d.chipId) j d) d
    acceptDecoded { array := false, cls := a.cls, turn := a.turn, pip := a.pip } d

/-- ACCEPT_DELAYED_SEND: the VL_0 message before it has ended, and a delayed ACCEPT leaves on D_j (R216). -/
def acceptDelayedSend (j : Nat) (d : Dev) : Dev :=
  match d.cas.delayed.find? (fun m => m.1 == j) with
  | none => d
  | some m =>
    if d.outShort.any (fun x => x.port == 2 + j) then d
    else { d with
      outShort := d.outShort ++ [{ port := 2 + j, body := m.2 }]
      cas := { d.cas with delayed := d.cas.delayed.erase m } }

/-- The period of the coarse clock in which a decided ACCEPT leaves: D_CT after its tick's first ct (R216). -/
def DueAccept.leaves (a : DueAccept) (d : Dev) : Int :=
  d.periodOf (((a.turn * 16384 + a.pip * 16) * 2048 : Nat) : Int) + (d.getAt a.turn F.CAS_TRIG_CFG_D_CT : Nat)

/-- The cluster ACCEPTs that are due leave, before an array ACCEPT of the same ct (R217). -/
def dueAccepts : Nat → Dev → Dev
  | 0, d => d
  | f + 1, d => match d.cas.due with
    | [] => d
    | a :: _ => if a.leaves d ≤ (d.nowCt : Int) then dueAccepts f (clusterAcceptSend d) else d

/-- An array ACCEPT arrives at a concentrator (R217). -/
def arrayAccept (p : Nat) (body : List Word) (d : Dev) : Dev :=
  if d.upState p != 1 then d
  else
    let key := bits (wordAt body 0) 24 0 % 2 ^ 25 + bits (wordAt body 0) 28 26 * 2 ^ 25
    let tick := d.nowCt / 16
    let recent := d.cas.relayed.filter (fun r => tick ≤ r.1 + 64)
    if recent.any (fun r => r.2 == key) then { d with cas := { d.cas with relayed := recent } }
    else
      let m := d.mode
      let d := dueAccepts d.cas.due.length d
      let d := acceptDecoded (acceptBody body d) { d with cas := { d.cas with relayed := recent ++ [(tick, key)] } }
      if m == .boot || m == .test || m == .dormant then d
      else (List.range 8).foldl (fun d j => sendDown false body j d) (count1 (R.CAS_COUNT 1) d)

/-- An ACCEPT arrives on an upstream port (R138, R217). -/
def acceptIn (p : Nat) (body : List Word) (d : Dev) : Dev :=
  if vl0Kind body == 3 && d.isConc then arrayAccept p body d
  else if vl0Kind body == 2 || vl0Kind body == 3 then acceptDecoded (acceptBody body d) d
  else d

/-! ### The adjacency table (R214) -/

/-- Half-entry and selection move on after an access to ADJ_DATA: WORD toggles, and PIXEL advances when it returns to 0. -/
def adjAdvance (d : Dev) : Dev :=
  if d.is F.CAS_ADJ_SEL_WORD then (d.put F.CAS_ADJ_SEL_WORD 0).put F.CAS_ADJ_SEL_PIXEL (d.get F.CAS_ADJ_SEL_PIXEL + 1)
  else d.put F.CAS_ADJ_SEL_WORD 1

/-- Is a bank in use, or selected by a pending slot (R214)? -/
def adjProtected (bank : Nat) (d : Dev) : Bool :=
  d.get F.CAS_TRIG_CFG_ADJ_BANK == bank ||
    d.commit.slots.any (fun s => s.st != .free && s.words.any (fun w => w.1 == R.CAS_TRIG_CFG && bits w.2 30 30 == bank))

/-- A read of ADJ_DATA. -/
def adjRead (d : Dev) : Word × Dev :=
  let i := d.get F.CAS_ADJ_SEL_PIXEL
  (if i < 576 then d.adjWord (d.get F.CAS_ADJ_SEL_BANK) i (d.get F.CAS_ADJ_SEL_WORD) else 0, adjAdvance d)

/-- A write of ADJ_DATA. -/
def adjWrite (v : Word) (d : Dev) : Dev :=
  let i := d.get F.CAS_ADJ_SEL_PIXEL
  let bank := d.get F.CAS_ADJ_SEL_BANK
  let w := d.get F.CAS_ADJ_SEL_WORD
  let d' := adjAdvance d
  if adjProtected bank d then raise E.CAS_ADJ_WR_ERR [] d'
  else if i < 576 then
    { d' with cas := { d'.cas with adj := kset d'.cas.adj (bank * 2048 + i * 2 + w) (if w == 0 then v &&& 0xBFFFFFFF else v &&& 0x3FFFFFFF) } }
  else d'

/-! ### Link control bodies (R229, R230, R243) -/

/-- A link control body arrives on an upstream port: KIND 1 TURN_ACK, 2 ACCEPT, 3 REJECT, 4 GIVE_UP; other kinds are discarded
(R229, R230, R243). -/
def controlBody (p : Nat) (body : List Word) (d : Dev) : Dev :=
  let b : Word64 := BitVec.ofNat 64 ((wordAt body 0).toNat * 2 ^ 32 + (wordAt body 1).toNat)
  match wbits b 63 60 with
  | 1 => (bodyTurns b).foldl (fun d t => ackTurn t d) d
  | 2 => (bodyTurns b).foldl (fun d t => verdictTurn 1 t d) d
  | 3 => (bodyTurns b).foldl (fun d t => verdictTurn 2 t d) d
  | 4 => portGiveUp (p % 2) d
  | _ => d

/-- A link control body on lane index 0 of an upstream port, with the check of its CRC (R293). -/
def controlIn (p : Nat) (body : List Word) (crcOk : Bool) (e : CharErr) (d : Dev) : Dev :=
  shortIn (4 * (p % 2)) (crcOk && body.length == 2) e (controlBody p body) d

/-! ### Commands -/

/-- PRIMITIVE_FORM (R148). -/
def execPrimitiveForm (turn pip : Nat) (s : State) : Host.Outcome State Fault Refusal := onDev (primitiveForm turn pip) s
/-- ACCEPT_RECEIVE (R138). -/
def execAcceptReceive (p : Nat) (body : List Word) (crcOk : Bool) (err : CharErr) (s : State) : Host.Outcome State Fault Refusal :=
  onDev (shortIn (4 * (p % 2)) (crcOk && vl0Good body) err (acceptIn (p % 2) body)) s
/-- ARRAY_ACCEPT_RECEIVE (R217). -/
def execArrayAcceptReceive (p : Nat) (body : List Word) (crcOk : Bool) (err : CharErr) (s : State) : Host.Outcome State Fault Refusal :=
  onDev (shortIn (4 * (p % 2)) (crcOk && vl0Good body) err (acceptIn (p % 2) body)) s
/-- PRIMITIVE_RECEIVE (R213). -/
def execPrimitiveReceive (j : Nat) (body : List Word) (crcOk : Bool) (err : CharErr) (s : State) : Host.Outcome State Fault Refusal :=
  onDev (shortIn (8 + j % 8) (crcOk && vl0Good body) err (primitiveReceive (j % 8) body)) s
/-- SUMMARY_RECEIVE (R218): a SUMMARY from below is discarded; the checks of R293 still count. -/
def execSummaryReceive (j : Nat) (body : List Word) (crcOk : Bool) (err : CharErr) (s : State) : Host.Outcome State Fault Refusal :=
  onDev (shortIn (8 + j % 8) (crcOk && vl0Good body) err (fun d => d)) s
/-- FRAME_HEAD_RECEIVE (R209). -/
def execFrameHeadReceive (j : Nat) (s : State) : Host.Outcome State Fault Refusal := onDev (frameHeadReceive (j % 8)) s
/-- FRAME_TAIL_RECEIVE (R209). -/
def execFrameTailReceive (j : Nat) (s : State) : Host.Outcome State Fault Refusal := onDev (frameTailReceive (j % 8)) s
/-- OWN_FRAME_SPLICE (R212). -/
def execOwnFrameSplice (s : State) : Host.Outcome State Fault Refusal := onDev ownFrameSplice s
/-- RECODE_DONE (R262). -/
def execRecodeDone (j : Nat) (overflow : Bool) (s : State) : Host.Outcome State Fault Refusal := onDev (recodeDone (j % 8) overflow) s
/-- CLUSTER_EVALUATE (R215). -/
def execClusterEvaluate (turn pip : Nat) (s : State) : Host.Outcome State Fault Refusal := onDev (clusterEvaluate turn pip) s
/-- CLUSTER_ACCEPT_SEND (R216). -/
def execClusterAcceptSend (s : State) : Host.Outcome State Fault Refusal := onDev clusterAcceptSend s
/-- ACCEPT_DELAYED_SEND (R216). -/
def execAcceptDelayedSend (j : Nat) (s : State) : Host.Outcome State Fault Refusal := onDev (acceptDelayedSend (j % 8)) s
/-- ADJ_DATA_ACCESS (R214). -/
def execAdjDataAccess (wr : Option Word) (s : State) : Host.Outcome State Fault Refusal :=
  match wr with
  | some v => onDev (adjWrite v) s
  | none => onRead adjRead s
/-- TURN_ACK_RECEIVE (R230). -/
def execTurnAckReceive (p : Nat) (body : List Word) (crcOk : Bool) (err : CharErr) (s : State) : Host.Outcome State Fault Refusal :=
  onDev (controlIn p body crcOk err) s
/-- VERDICT_ACCEPT_RECEIVE (R230). -/
def execVerdictAcceptReceive (p : Nat) (body : List Word) (crcOk : Bool) (err : CharErr) (s : State) : Host.Outcome State Fault Refusal :=
  onDev (controlIn p body crcOk err) s
/-- VERDICT_REJECT_RECEIVE (R230). -/
def execVerdictRejectReceive (p : Nat) (body : List Word) (crcOk : Bool) (err : CharErr) (s : State) : Host.Outcome State Fault Refusal :=
  onDev (controlIn p body crcOk err) s
/-- GIVE_UP_RECEIVE (R243). -/
def execGiveUpReceive (p : Nat) (body : List Word) (crcOk : Bool) (err : CharErr) (s : State) : Host.Outcome State Fault Refusal :=
  onDev (controlIn p body crcOk err) s

end Sys2Proof.Machine
end

