-- ==== Sys2Proof/Machine/Operands.lean ====
section
/-! DEFINITION. Operand forms: the fields of a message's header words (R304), of the commit block (R314), the payload layout of
every message of the catalogue (R321 to R329 and the chapters R321 names), and the words in which commands carry turns. -/

namespace Sys2Proof.Machine

/-! ### The header (R304) -/

/-- MSG_ID of header word 0. -/
def hdrId (w0 : Word) : Nat := bits w0 31 16
/-- SEQ of header word 0. -/
def hdrSeq (w0 : Word) : Nat := bits w0 15 8
/-- LEN of header word 0. -/
def hdrLen (w0 : Word) : Nat := bits w0 7 0
/-- CHIP of header word 1. -/
def hdrChip (w1 : Word) : Nat := bits w1 31 16
/-- RSP, EVT, SIG, STAMP and FWD of header word 1. -/
def hdrRsp (w1 : Word) : Bool := bit w1 15
def hdrEvt (w1 : Word) : Bool := bit w1 14
def hdrSig (w1 : Word) : Bool := bit w1 13
def hdrStamp (w1 : Word) : Bool := bit w1 12
def hdrFwd (w1 : Word) : Bool := bit w1 11
/-- MBX of header word 1. -/
def hdrMbx (w1 : Word) : Nat := bits w1 10 8
/-- STATUS of header word 1. -/
def hdrStatus (w1 : Word) : Nat := bits w1 7 0

/-- A response (R306): RSP = 1, STAMP copied, the responder's own chip ID. -/
def responseWords (chip id seq hm : Nat) (stamp : Bool) (status : Nat) (payload : List Word) : List Word :=
  let p := payload.take 126
  header id seq p.length chip (16 + 2 * b2n stamp) hm status ++ p

/-! ### Turns and wide numbers in words -/

/-- A number in a HI and a LO word (R321). -/
def hiLo (n : Nat) : List Word := [toWord (n / 2 ^ 32), toWord n]

/-- A turn number from a HI word, bits 15:0, and a LO word (R321). -/
def turnOf (hi lo : Word) : Nat := bits hi 15 0 * 2 ^ 32 + lo.toNat

/-! ### The commit block (R314) -/

/-- KIND of commit-block word 0. -/
def cbKind (w : List Word) : Nat := bits (wordAt w 0) 31 28
/-- TAG of commit-block word 0. -/
def cbTag (w : List Word) : Nat := bits (wordAt w 0) 23 16
/-- N of a commit block. -/
def cbTarget (w : List Word) : Nat := turnOf (wordAt w 0) (wordAt w 1)
/-- KIND is one of the four, and TARGET is 0 but for AT. -/
def cbOk (w : List Word) : Bool := cbKind w ≤ 3 && (cbKind w == 3 || cbTarget w == 0)

/-- Bits of commit-block word 0 that have a field. -/
def cbMask : Nat := 0xF0FFFFFF
/-- A word all of whose bits have a field. -/
def allBits : Nat := 0xFFFFFFFF

/-! ### Payload layouts -/

/-- The layout of a payload: the bits with a field in each leading word, then `lo` to `hi` repetitions of a group. -/
structure PaySpec where
  lead : List Nat
  group : List Nat := []
  lo : Nat := 0
  hi : Nat := 0
  deriving DecidableEq, Repr

/-- Payload layouts of the groups 0x0000 to 0x0400. -/
def paySpecLow (id : Nat) : Option PaySpec :=
  if id == 0x0002 then some { lead := [] }
  else if id == 0x0003 then some { lead := [0xFFFF] }
  else if id == 0x0004 then some { lead := [], group := [allBits], hi := 126 }
  else if id == 0x0005 then some { lead := [allBits] }
  else if id == 0x0006 then some { lead := [] }
  else if id == 0x0101 then some { lead := [cbMask, allBits, 0xF] }
  else if id == 0x0102 then some { lead := [cbMask, allBits] }
  else if id == 0x0103 then some { lead := [0x7] }
  else if id == 0x0104 then some { lead := [] }
  else if id == 0x0105 then some { lead := [] }
  else if id == 0x0106 then some { lead := [cbMask, allBits], group := [0xF80003FF], lo := 1, hi := 21 }
  else if id == 0x0201 then some { lead := [cbMask, allBits, allBits, allBits], group := [0xFF800000, allBits, allBits], lo := 1, hi := 8 }
  else if id == 0x0202 then some { lead := [0xFF803F7F] }
  else if id == 0x0203 then some { lead := [cbMask, allBits, 0xFFFF, allBits, 0x3FFF, 0x8000FFFF] }
  else if id == 0x0301 then some { lead := [] }
  else if id == 0x0302 then some { lead := [0xFF3F] }
  else if id == 0x0303 then some { lead := [0xFFFFFC7F] }
  else if id == 0x0401 then some { lead := [allBits, allBits] }
  else if id == 0x0402 then some { lead := [] }
  else none

/-- Payload layouts of the groups 0x0500 to 0x0800. -/
def paySpecMid (id : Nat) : Option PaySpec :=
  if id == 0x0501 then some { lead := [] }
  else if id == 0x0502 then some { lead := [0xF, 0xFFFF, allBits, allBits, allBits] }
  else if id == 0x0601 then some { lead := [0xF], group := [allBits], lo := 2, hi := 125 }
  else if id == 0x0602 then some { lead := [0x3, 0xFFFF, allBits] }
  else if id == 0x0603 then some { lead := [0xFFFF, allBits, 0xFFFF] }
  else if id == 0x0604 then some { lead := [0xFFFF, allBits] }
  else if id == 0x0605 then some { lead := [0x3] }
  else if id == 0x0606 then some { lead := [0xFF, allBits, allBits, 0xFF, allBits, allBits, allBits, 0x7] }
  else if id == 0x0607 then some { lead := [] }
  else if id == 0x0701 then some { lead := [0x0F0F1F07] }
  else if id == 0x0702 then some { lead := [0xF] }
  else if id == 0x0801 then some { lead := [0xFFFE0000, 0xFF00FFFF] }
  else if id == 0x0802 then some { lead := [0xFFFC0001, allBits] }
  else if id == 0x0803 then some { lead := [0x3F] }
  else none

/-- Payload layouts of the groups 0x0900 to 0x0D00. -/
def paySpecHigh (id : Nat) : Option PaySpec :=
  if id == 0x0901 then some { lead := List.replicate 32 allBits }
  else if id == 0x0902 then some { lead := [allBits, allBits] }
  else if id == 0x0903 then some { lead := [] }
  else if id == 0x0A01 then some { lead := [0x3F] }
  else if id == 0x0A02 then some { lead := [0x80000007] }
  else if id == 0x0A03 then some { lead := [cbMask, allBits], group := [0xFFFF00FF], lo := 1, hi := 32 }
  else if id == 0x0B01 then some { lead := List.replicate 8 allBits ++ [1] }
  else if id == 0x0B02 then some { lead := [0xFFFF, allBits] }
  else if id == 0x0B03 then some { lead := List.replicate 24 allBits }
  else if id == 0x0B04 then some { lead := 3 :: List.replicate 13 allBits }
  else if id == 0x0B05 then some { lead := [allBits], group := [allBits], lo := 1, hi := 125 }
  else if id == 0x0B06 then some { lead := [0x113] }
  else if id == 0x0B07 then some { lead := 0xFF :: List.replicate 10 allBits }
  else if id == 0x0C01 then some { lead := [0xFFFFFF, 0x7F] }
  else if id == 0x0C02 then some { lead := [cbMask, allBits], group := [0xFFFFFF, allBits], lo := 1, hi := 62 }
  else if id == 0x0D01 then some { lead := [0x3FFF, 0xFFFF, 0xFFFF, 1], group := [0xFFFFFF], lo := 0, hi := 30 }
  else if id == 0x0D03 then some { lead := [] }
  else none

/-- The payload layout of a request that the catalogue lists (R321); none for any other. -/
def paySpec (id : Nat) : Option PaySpec :=
  if id < 0x0500 then paySpecLow id else if id < 0x0900 then paySpecMid id else paySpecHigh id

/-- No bit of a word outside a mask is 1. -/
def maskOk (m : Nat) (w : Word) : Bool := w.toNat &&& m == w.toNat

/-- A payload has the length of its layout, and every reserved bit is 0 (R305, R311). -/
def payOk (p : PaySpec) (w : List Word) : Bool :=
  let tail := w.drop p.lead.length
  let g := p.group.length
  p.lead.length ≤ w.length &&
    (if g == 0 then tail.isEmpty else tail.length % g == 0 && p.lo ≤ tail.length / g && tail.length / g ≤ p.hi) &&
    (List.zip p.lead w).all (fun x => maskOk x.1 x.2) &&
    (List.range tail.length).all (fun i => maskOk (p.group.getD (i % g) 0) (wordAt tail i))

/-! ### Words of a payload that repeats a group -/

/-- Pairs of words. -/
def wordPairs : List Word → List (Word × Word)
  | a :: b :: r => (a, b) :: wordPairs r
  | _ => []

/-- Triples of words. -/
def wordTriples : List Word → List (Word × Word × Word)
  | a :: b :: c :: r => (a, b, c) :: wordTriples r
  | _ => []

/-- Words of bytes, each most significant byte first (R308); a last incomplete word is no word. -/
def wordsOfBytes : List Byte → List Word
  | a :: b :: c :: e :: r => BitVec.ofNat 32 (((a.toNat * 256 + b.toNat) * 256 + c.toNat) * 256 + e.toNat) :: wordsOfBytes r
  | _ => []

end Sys2Proof.Machine
end

