-- ==== Sys2Proof/Machine/Flags.lean ====
section
/-! DEFINITION. The checks that a request meets before its message is executed: the flags and counts of its header (R305), the
signature (R313) and the access rules of the catalogue (R2, R305, R321, R322, R346). -/

namespace Sys2Proof.Machine

/-- LEN agrees with the words received; on VL_1 an odd message may be padded by one word (R305, R307). -/
def lenAgrees (vl1 : Bool) (len got : Nat) : Bool := got == len + 2 || (vl1 && len % 2 == 1 && got == len + 3)

/-- The checks of R305: LEN, RSP, EVT, STATUS, and FWD on I²C. -/
def headerBad (path got : Nat) (w0 w1 : Word) : Bool :=
  126 < hdrLen w0 || !lenAgrees (path < 2) (hdrLen w0) got || hdrRsp w1 || hdrEvt w1 || hdrStatus w1 != 0 || (hdrFwd w1 && path == 2)

/-- A message that is sent by the Burjor only: EVENT and TELEM_REPORT (R318, R330). -/
def sentOnly (id : Nat) : Bool := id == 0x0001 || id == 0x0D02

/-- A configuring message (R314). -/
def isConfiguring (id : Nat) : Bool :=
  id == 0x0101 || id == 0x0102 || id == 0x0106 || id == 0x0201 || id == 0x0203 || id == 0x0A03 || id == 0x0C02

/-- The response is a commit response (R317, CANCEL). -/
def hasCommitResponse (id : Nat) : Bool := isConfiguring id || id == 0x0103

/-- A signature is required (R322, R321). -/
def needsSignature (id : Nat) : Bool :=
  (0x0901 ≤ id && id ≤ 0x0903) || id == 0x0B02 || id == 0x0B03 || id == 0x0B04 || id == 0x0B06 || id == 0x0B07

/-- The monitor serves a message in recovery (R346, R483). -/
def recoveryServes (id : Nat) : Bool :=
  id == 0x0002 || id == 0x0004 || id == 0x0005 || id == 0x0006 || id / 256 == 0x0B

/-- A message is executed in STANDBY only (R321). -/
def standbyOnly (id : Nat) : Bool := id == 0x0003 || id == 0x0B04 || id == 0x0B05 || id == 0x0B06

/-- A message is not executed when broadcast (R322). -/
def notBroadcast (id : Nat) : Bool := id == 0x0003 || id == 0x0601

/-- A message is addressed to a unit that is absent (R2, R305). -/
def absentUnit (id : Nat) (d : Dev) : Bool :=
  let f := d.reg R.PWR_FEATURES
  (id == 0x0601 && !bit f 0) || (id == 0x0606 && !bit f 3)

/-- The status that the access rules give a message of the catalogue before its payload is looked at; 0 where it may run. -/
def accessStatus (id : Nat) (c : MsgCtx) (d : Dev) : Nat :=
  if sentOnly id then 5
  else if (paySpec id).isNone then 4
  else if d.is F.PWR_STATUS_RECOVERY && !recoveryServes id then 4
  else if 6 ≤ c.mbx then 3
  else if needsSignature id && !c.signed then 3
  else if absentUnit id d then 4
  else if standbyOnly id && d.mode != .standby then 3
  else if notBroadcast id && c.bcast && !c.fwd then 5
  else 0

/-- The mailbox under which an open set is owned: an unsigned message in MBX_4 or MBX_5 acts as one in MBX_0 (R313). -/
def ownerOf (c : MsgCtx) : Nat := if !c.signed && 4 ≤ c.mbx then 0 else c.mbx

end Sys2Proof.Machine
end

