-- ==== Sys2Proof/Machine/Ports.lean ====
section
/-! DEFINITION. Serial ports and lanes: bring-up, exchange, adoption, retrains, blocks, credits, sending, low power and loopback
(R270 to R297). -/

namespace Sys2Proof.Machine

/-! ### Ports and lanes (R270) -/

/-- The lane of index i of port p: 0 UA, 1 UB, 2 + j D_j, 10 TPA, 11 TPB. -/
def laneOf (p i : Nat) : Nat := if p < 2 then 4 * p + i else 6 + p
/-- The port of a lane. -/
def portOf (l : Nat) : Nat := if l < 8 then l / 4 else l - 6
/-- The lane index of a lane within its port. -/
def laneIdx (l : Nat) : Nat := if l < 8 then l % 4 else 0
/-- Lanes of a port on this variant; none where it does not bond the port (R12). -/
def portLanes (p : Nat) : Nat := if p < 2 then bits Config.features 21 19 else if p < 12 then b2n (laneBonded (laneOf p 0)) else 0
/-- A timing port. -/
def isTiming (p : Nat) : Bool := 10 ≤ p

def Dev.port (d : Dev) (p : Nat) : LnkPort := d.lnk.ports.getD p {}
def Dev.setPort (d : Dev) (p : Nat) (x : LnkPort) : Dev := { d with lnk := { d.lnk with ports := d.lnk.ports.set p x } }

/-- STAGE of a lane (R274): 0 OFF, 1 DETECT, 2 TRAIN, 3 LOCK, 4 EXCHANGE, 5 ACTIVE, 6 LP_DEEP, 7 FAILED. -/
def Dev.stage (d : Dev) (l : Nat) : Nat := d.get (F.LNK_LANE_STATUS_STAGE l)
/-- Running width of a port (R279). -/
def Dev.runWidth (d : Dev) (p : Nat) : Nat := d.get (F.LNK_PORT_STATUS_WIDTH p)

/-- LNK_STATUS as it reads. -/
def lnkStatus (d : Dev) : Word := toWord (((List.range 18).filter (fun l => d.stage l == 5)).foldl (fun a l => a + 2 ^ l) 0)

/-- What follows when a lane of a port leaves ACTIVE: a give-up trigger on UA and UB, a truncated frame on D_j, a lost timing port
(R60, R209, R243, R287). -/
def portDown (p : Nat) (d : Dev) : Dev :=
  let d := (d.put (F.LNK_PORT_STATUS_ACTIVE p) 0).setPort p { d.port p with txMsg := none }
  if p < 2 then portGiveUp p d else if p < 10 then truncateRx (p - 2) d else portLost (p - 10) d

/-- The lanes of a port that the variant bonds. -/
def lanesOf (p : Nat) : List Nat := (List.range (portLanes p)).map (laneOf p)

/-- A lane goes to a stage (R274); LANE_ACTIVE and LANE_DOWN are raised. PORT_STATUS.LP_DEEP tells that all lanes of the port are in
LP_DEEP. -/
def goStage (l st : Nat) (d : Dev) : Dev :=
  let old := d.stage l
  let p := portOf l
  let d := (d.put (F.LNK_LANE_STATUS_STAGE l) st).setLane l ((d.lane l).enter (isTiming p) st)
  let d := if st < 3 || 5 < st then (d.put (F.LNK_LANE_STATUS_BIT_LOCK l) 0).put (F.LNK_LANE_STATUS_SYM_LOCK l) 0 else d
  let d := if st == 5 then d.put (F.LNK_LANE_STATUS_ATTEMPT l) 0 else d
  let d := d.put (F.LNK_PORT_STATUS_LP_DEEP p) (b2n ((lanesOf p).all (fun m => d.stage m == 6)))
  if old == 5 && st != 5 then portDown (portOf l) (raise E.LNK_LANE_DOWN [] d)
  else if old != 5 && st == 5 then raise E.LNK_LANE_ACTIVE [] d
  else d

/-- A lane starts a warm retrain (R287). -/
def laneRetrain (l : Nat) (d : Dev) : Dev :=
  let d := goStage l 2 (count1 (R.LNK_LANE_COUNT l 5) d)
  d.setLane l { d.lane l with warm := true, idle := false, caps := none }

/-- A lane starts bring-up from DETECT (R274, R275). -/
def laneDetect (l : Nat) (d : Dev) : Dev :=
  let d := ((goStage l 1 d).put (F.LNK_LANE_STATUS_RX_DETECTED l) 0).put (F.LNK_LANE_STATUS_ATTEMPT l) 0
  d.setLane l { d.lane l with probe := false, idle := false, warm := false, caps := none }

/-- MAX_RATE of a port; 2.56 Gbaud on a timing port (R273, R281). -/
def Dev.maxRate (d : Dev) (p : Nat) : Nat := if isTiming p then 3 else d.get (F.LNK_PORT_CFG_MAX_RATE p)

/-- A cold start of a port at MAX_RATE: each of its lanes starts from DETECT (R274, R280). -/
def coldStart (p : Nat) (d : Dev) : Dev :=
  let d := (d.put (F.LNK_PORT_STATUS_FALLBACK p) 0).setPort p { d.port p with rate := d.maxRate p, retrain := false, restart := false, adopt := none }
  (lanesOf p).foldl (fun d l => laneDetect l d) d

/-- A lane is in a stage, and no loopback test has taken it from there (R296). -/
def Dev.inStage (d : Dev) (l st : Nat) : Bool := d.stage l == st && !d.is (F.LNK_LANE_STATUS_PRBS_BUSY l)

/-! ### Bring-up (R275 to R281) -/

/-- LANE_DETECT_PROBE (R275). -/
def detectProbe (l : Nat) (found : Bool) (d : Dev) : Dev :=
  if !d.inStage l 1 then d
  else if !found then (d.put (F.LNK_LANE_STATUS_RX_DETECTED l) 0).setLane l { d.lane l with probe := false }
  else if (d.lane l).probe then goStage l 2 (d.put (F.LNK_LANE_STATUS_RX_DETECTED l) 1)
  else d.setLane l { d.lane l with probe := true }

/-- LANE_ADAPT from CTLE and H1 to H4. -/
def adaptWord (a : List Nat) : Word :=
  pack32 [(31, 27, a.getD 0 0), (26, 19, a.getD 1 0), (18, 12, a.getD 2 0), (11, 6, a.getD 3 0), (5, 0, a.getD 4 0)]

/-- LANE_TRAIN_DONE: TRAIN ends once `chars` characters, 2^17 or more (2^14 in a warm retrain), have been received, and no adaptation
value has moved by more than 1 LSB over the last `calm` passing windows, 4 or more (R276). -/
def trainDone (l : Nat) (adapt : List Nat) (chars calm : Nat) (d : Dev) : Dev :=
  if !d.inStage l 2 || (d.lane l).idle || chars < (if (d.lane l).warm then 2 ^ 14 else 2 ^ 17) || calm < 4 then d
  else goStage l 3 ((d.setReg (R.LNK_LANE_ADAPT l) (adaptWord adapt)).put (F.LNK_LANE_STATUS_FROZEN l) 0)

/-- A failed attempt at bring-up (R280, R281). -/
def failedAttempt (l : Nat) (d : Dev) : Dev :=
  let p := portOf l
  let d := goStage l 2 (count1 (R.LNK_LANE_COUNT l 7) d)
  let n := min (d.get (F.LNK_LANE_STATUS_ATTEMPT l) + 1) 2
  let d := d.put (F.LNK_LANE_STATUS_ATTEMPT l) n
  if isTiming p then
    (if n == 2 then
      report (0x100 + l) 0x0E 0 0 0 (some (.lane l)) (raise E.LNK_LINK_FAIL [] (d.put (F.LNK_LANE_STATUS_ATTEMPT l) 0))
    else d.setLane l { d.lane l with idle := true })
  else
    let d := d.setLane l { d.lane l with idle := true }
    let x := d.port p
    if n == 2 && 0 < x.rate then
      let d := raise E.LNK_FALLBACK [] ((d.put (F.LNK_PORT_STATUS_FALLBACK p) 1).setPort p { x with rate := x.rate - 1 })
      (lanesOf p).foldl (fun d m =>
        let d := d.put (F.LNK_LANE_STATUS_ATTEMPT m) 0
        if d.stage m == 3 || d.stage m == 4 || d.stage m == 5 then goStage m 2 d else d) d
    else d

/-- LANE_TRAIN_TIMEOUT (R276). -/
def trainTimeout (l : Nat) (d : Dev) : Dev := if d.inStage l 2 && !(d.lane l).idle then failedAttempt l d else d
/-- LANE_LOCK_TIMEOUT (R277). -/
def lockTimeout (l : Nat) (d : Dev) : Dev := if d.inStage l 3 then failedAttempt l d else d

/-- SYMBOL_LOCK (R277). -/
def symbolLock (l : Nat) (d : Dev) : Dev :=
  if d.inStage l 3 then (d.put (F.LNK_LANE_STATUS_BIT_LOCK l) 1).put (F.LNK_LANE_STATUS_SYM_LOCK l) 1 else d

/-- LANE_LOCK_DONE (R277). -/
def lockDone (l : Nat) (d : Dev) : Dev :=
  if d.inStage l 3 && d.is (F.LNK_LANE_STATUS_SYM_LOCK l) then (let d := goStage l 4 d
    d.setLane l { d.lane l with caps := none }) else d

/-- LANE_RETRY: TRAIN starts again after the electrical idle of a failed attempt (R280). -/
def laneRetry (l : Nat) (d : Dev) : Dev :=
  if d.inStage l 2 && (d.lane l).idle then (let d := goStage l 2 d
    d.setLane l { d.lane l with idle := false }) else d

/-- LINK_FAIL (R280). -/
def linkFail (l : Nat) (d : Dev) : Dev :=
  let p := portOf l
  if isTiming p || (d.port p).rate != 0 || !(d.stage l == 2 || d.stage l == 3) then d
  else
    let d := (lanesOf p).foldl (fun d m => if d.stage m == 0 || d.stage m == 6 then d else goStage m 7 d) d
    raise E.LNK_LINK_FAIL [] (report (0x100 + l) 0x0E 0 0 0 (some (.lane l)) d)

/-- LANE_FAILED_RESTART (R274, R280). -/
def failedRestart (l : Nat) (d : Dev) : Dev := if d.stage l == 7 then coldStart (portOf l) d else d

/-- EXCHANGE_FAIL_TICK (R279). -/
def exchangeFailTick (l : Nat) (d : Dev) : Dev := if d.stage l == 4 then count1 (R.LNK_LANE_COUNT l 8) d else d

/-- LOCK_LOSS (R284). -/
def lockLoss (l : Nat) (d : Dev) : Dev :=
  if d.stage l != 5 then d
  else laneRetrain l (report (0x100 + l) 0x0F 0 0 0 (some (.lane l)) (count1 (R.LNK_LANE_COUNT l 4) d))

/-- TS_RECEIVE_ACTIVE (R287). -/
def tsActive (l : Nat) (d : Dev) : Dev := if d.stage l == 5 then laneRetrain l d else d

/-! ### Capability sets (R278, R279, R282) -/

/-- The first 12 bytes of the capability set that lane index i of a port sends (R278). -/
def capFields (p i : Nat) (d : Dev) : List Nat :=
  let code := if p < 2 then p else if p < 10 then 6 + p else p - 8
  let mark := if p < 2 then b2n (d.markActive p) else 1
  let w := if isTiming p then 1 else d.get (F.LNK_PORT_CFG_WIDTH p)
  [d.chipId / 256, d.chipId % 256, bits Config.features 31 28 * 16 + code, d.get F.CAS_CFG_ROLE * 128 + mark * 64 + w * 8 + i,
    if isTiming p then 0 else 7, (d.port p).rate, 0, if 2 ≤ p && p < 10 then 64 else 0, if isTiming p then 0 else 8, 1, 0, 0]

/-- The 14 bytes of a capability set. -/
def capBytes (p i : Nat) (d : Dev) : List Byte :=
  let b : List Byte := (capFields p i d).map (fun v => BitVec.ofNat 8 v)
  let c := crc16 b
  b ++ [BitVec.ofNat 8 (c / 256), BitVec.ofNat 8 c]

/-- A byte of a set. -/
def capAt (b : List Byte) (i : Nat) : Nat := (b.getD i 0).toNat
/-- A field of a set. -/
def capBits (b : List Byte) (i hi lo : Nat) : Nat := nbits (capAt b i) hi lo

/-- The adopted capability set as PEER_CAP shows it. -/
def peerWord (b : List Byte) : Word :=
  pack32 [(31, 28, capBits b 2 7 4), (27, 24, capBits b 2 3 0), (23, 23, capBits b 3 7 7), (22, 22, capBits b 3 6 6), (21, 19, capBits b 3 5 3),
    (18, 16, capBits b 4 2 0), (15, 9, capAt b 8), (8, 0, capAt b 6 * 256 + capAt b 7)]

/-- The peer's PORT matches (R279). -/
def peerPortOk (p code : Nat) : Bool := if p < 2 then 8 ≤ code else code < 2

/-- The running width that R279 gives. -/
def widthFor (p lanes : Nat) (d : Dev) : Nat :=
  let ok (w : Nat) : Bool := w ≤ d.get (F.LNK_PORT_CFG_WIDTH p) && w ≤ lanes && w ≤ portLanes p && (List.range w).all (fun i => !d.isolated (.lane (laneOf p i)))
  if ok 4 then 4 else if ok 2 then 2 else if ok 1 then 1 else 0

/-- EXCHANGE passes on a port when the checks of R279 hold on every lane of its running width. -/
def tryExchange (p : Nat) (d : Dev) : Dev :=
  match (d.lane (laneOf p 0)).caps with
  | none => d
  | some c0 =>
    let b := c0.bytes
    let w := widthFor p (capBits b 3 5 3) d
    let laneOk (i : Nat) : Bool :=
      let l := laneOf p i
      (match (d.lane l).caps with
      | some c => 4 ≤ c.n && (d.stage l == 4 || d.stage l == 5) && capAt c.bytes 0 == capAt b 0 && capAt c.bytes 1 == capAt b 1 &&
          capBits c.bytes 2 3 0 == capBits b 2 3 0 && capBits c.bytes 3 5 3 == capBits b 3 5 3 && capBits c.bytes 3 2 0 == i &&
          capAt c.bytes 5 == (d.port p).rate && capAt c.bytes 9 == 1
      | none => false)
    if w == 0 || d.is (F.LNK_PORT_STATUS_ACTIVE p) || !(List.range w).all laneOk || !peerPortOk p (capBits b 2 3 0) then d
    else
      let d := (List.range w).foldl (fun d i => if d.stage (laneOf p i) == 5 then d else goStage (laneOf p i) 5 d) d
      let x := d.port p
      let d := d.setPort p { x with
        vl1 := { limit := capAt b 8 }
        vl2 := { limit := capAt b 6 * 256 + capAt b 7 }
        rxMsg := []
        txMsg := none
        abort := false
        adopt := none
        sentCaps := capBytes p 0 d }
      let d := d.setReg (R.LNK_PORT_STATUS p) (pack32 [(31, 31, 1), (30, 30, d.get (F.LNK_PORT_STATUS_FALLBACK p)), (29, 28, x.rate), (27, 25, w),
        (15, 0, capAt b 0 * 256 + capAt b 1)])
      let d := d.setReg (R.LNK_PEER_CAP p) (peerWord b)
      if p < 2 then d.setBucket p 32 else d

/-- The adopted values of a port: PEER_ID, PEER_CAP and the running rate, as a set shows them. -/
def newValues (p : Nat) (b : List Byte) (d : Dev) : Bool :=
  d.reg (R.LNK_PEER_CAP p) != peerWord b || d.get (F.LNK_PORT_STATUS_PEER_ID p) != capAt b 0 * 256 + capAt b 1 || capAt b 5 != (d.port p).rate

/-- A set whose LANES, RATE or PORT differs from the running values (R282). -/
def capMoved (p : Nat) (b : List Byte) (d : Dev) : Bool :=
  capBits b 3 5 3 != d.get (F.LNK_PEER_CAP_LANES p) || capAt b 5 != (d.port p).rate || capBits b 2 3 0 != d.get (F.LNK_PEER_CAP_PORT p)

/-- CAPABILITY_RECEIVE: a capability set on a lane (R278, R279, R281, R282). -/
def capabilityReceive (l : Nat) (bytes : List Byte) (d : Dev) : Dev :=
  let p := portOf l
  let st := d.stage l
  if !(st == 4 || st == 5) || isTiming p || bytes.length != 14 || crc16 (bytes.take 12) != bytesNat (bytes.drop 12) then d
  else
    let run : CapRun := match (d.lane l).caps with
      | some c => if c.bytes == bytes then { c with n := min (c.n + 1) 4 } else { bytes := bytes, n := 1 }
      | none => { bytes := bytes, n := 1 }
    let d := d.setLane l { d.lane l with caps := some run }
    if st == 4 then tryExchange p d
    else
      let d := if d.is (F.LNK_PORT_STATUS_ACTIVE p) && capMoved p bytes d then d.setPort p { d.port p with retrain := true } else d
      let same (i : Nat) : Bool := match (d.lane (laneOf p i)).caps with
        | some c => 4 ≤ c.n && c.bytes.take 3 == bytes.take 3 && capBits c.bytes 3 7 3 == capBits bytes 3 7 3 && (c.bytes.drop 4).take 8 == (bytes.drop 4).take 8
        | none => false
      if d.is (F.LNK_PORT_STATUS_ACTIVE p) && (List.range (d.runWidth p)).all same && newValues p bytes d then
        d.setPort p { d.port p with adopt := some bytes }
      else d

/-- A changed field of R278 is announced with 4 sets on each lane (R282). -/
def announceCaps (d : Dev) : Dev :=
  (List.range 12).foldl (fun d p =>
    let b := capBytes p 0 d
    let was := (d.port p).sentCaps
    if d.is (F.LNK_PORT_STATUS_ACTIVE p) && was != b then
      let d := d.setPort p { d.port p with sentCaps := b }
      if was.isEmpty then d else
      (List.range (d.runWidth p)).foldl (fun d i => d.setLane (laneOf p i) { d.lane (laneOf p i) with capOut := 4 }) d
    else d) d

/-- New capability values are adopted at a boundary (R282). -/
def adoptCaps (p : Nat) (d : Dev) : Dev :=
  match (d.port p).adopt with
  | none => d
  | some b =>
    let d := d.setPort p { d.port p with adopt := none }
    raise E.LNK_PEER_CHANGE [] ((d.setReg (R.LNK_PEER_CAP p) (peerWord b)).put (F.LNK_PORT_STATUS_PEER_ID p) (capAt b 0 * 256 + capAt b 1))

/-! ### Blocks received (R288 to R292) -/

def LnkPort.vl (x : LnkPort) (two : Bool) : LnkVl := if two then x.vl2 else x.vl1
def LnkPort.setVl (x : LnkPort) (two : Bool) (v : LnkVl) : LnkPort := if two then { x with vl2 := v } else { x with vl1 := v }

/-- Two 32-bit words of each block word (R307). -/
def splitWords (ws : List Word64) : List Word := ws.flatMap (fun w => [toWord (w.toNat / 2 ^ 32), toWord w.toNat])

/-- What R292 discards when a block is lost or aborted. -/
def breakVl (p : Nat) (two : Bool) (d : Dev) : Dev :=
  let x := d.port p
  let d := d.setPort p { x.setVl two { x.vl two with skip := true } with rxMsg := if two then x.rxMsg else [] }
  if two && 2 ≤ p && p < 10 then truncateRx (p - 2) d else d

/-- One block is delivered in SEQ order (R289, R291, R292). -/
def deliverBlock (p : Nat) (two : Bool) (b : RxBlock) (d : Dev) : Dev :=
  let x := d.port p
  let v := x.vl two
  let d := d.setPort p (x.setVl two { v with rxNext := (v.rxNext + 1) % 1024, retired := v.retired + 1 })
  if b.aborted then breakVl p two d
  else
    let x := d.port p
    let v := x.vl two
    if two then
      (if b.mark || !v.skip then ingestWords (p - 2) b.mark b.words (d.setPort p (x.setVl two { v with skip := false })) else d)
    else if v.skip then d.setPort p (x.setVl two { v with skip := !b.mark })
    else if b.mark then d.setPort p { x with rxMsg := [], msgs := x.msgs ++ [splitWords (x.rxMsg ++ b.words)] }
    else d.setPort p { x with rxMsg := x.rxMsg ++ b.words }

/-- Blocks held early are delivered while the next SEQ is among them. -/
def deliverHeld : Nat → Nat → Bool → Dev → Dev
  | 0, _, _, d => d
  | f + 1, p, two, d =>
    let x := d.port p
    let v := x.vl two
    match v.early.find? (fun b => b.seq == v.rxNext) with
    | none => d
    | some b => deliverHeld f p two (deliverBlock p two b (d.setPort p (x.setVl two { v with early := v.early.erase b })))

/-- The missing SEQ is declared lost (R289). -/
def loseSeq (p : Nat) (two : Bool) (d : Dev) : Dev :=
  let x := d.port p
  let v := x.vl two
  let d := d.setPort p (x.setVl two { v with rxNext := (v.rxNext + 1) % 1024, retired := v.retired + 1 })
  raiseOnce E.LNK_BLOCK_LOST [] (count1 (R.LNK_PORT_COUNT p 2) (breakVl p two d))

/-- Distance of a SEQ ahead of the next one to deliver. -/
def ahead (v : LnkVl) (s : Nat) : Nat := (s + 1024 - v.rxNext) % 1024

/-- SEQs are declared lost while a held block lies 4w or more ahead (R289). -/
def loseOld : Nat → Nat → Bool → Dev → Dev
  | 0, _, _, d => d
  | f + 1, p, two, d =>
    let v := (d.port p).vl two
    if v.early.any (fun b => 4 * d.runWidth p ≤ ahead v b.seq) then loseOld f p two (deliverHeld 1024 p two (loseSeq p two d)) else d

/-- BLOCK_LOST_TIMEOUT: 256 ct after a later block, every SEQ missing before it is lost (R289). -/
def blockLostTimeout : Nat → Nat → Bool → Dev → Dev
  | 0, _, _, d => d
  | f + 1, p, two, d =>
    let v := (d.port p).vl two
    let now := d.nowCt
    if v.early.any (fun b => b.at_ + 256 ≤ now) then blockLostTimeout f p two (deliverHeld 1024 p two (loseSeq p two d)) else d

/-- A block CRC error on an upstream port: more than 8 within 16 turns is a give-up trigger (R243). -/
def noteBlockCrc (l : Nat) (d : Dev) : Dev :=
  let p := portOf l
  let d := count1 (R.LNK_LANE_COUNT l 2) d
  if 2 ≤ p then d
  else
    let x := d.port p
    let ts := (x.crcTurns.filter (fun t => d.clk.bounds < t + 16)) ++ [d.clk.bounds]
    let d := d.setPort p { x with crcTurns := ts }
    if 8 < ts.length then portGiveUp p d else d

/-- A credit limit arrives (R290). -/
def creditIn (p : Nat) (two : Bool) (c : Nat) (d : Dev) : Dev :=
  let x := d.port p
  let v := x.vl two
  let step := (c + 1024 - v.limit) % 1024
  if 1 ≤ step && step ≤ 512 then
    let d := d.setPort p (x.setVl two { v with limit := c })
    if two && p < 2 then d.setUpPort p { d.upPort p with credited := true } else d
  else d

/-- BLOCK_RECEIVE: a data block arrives on a lane (R288 to R291). -/
def blockReceive (l : Nat) (hdr : Word) (payload : List Word64) (crcOk : Bool) (err : CharErr) (aborted : Bool) (d : Dev) : Dev :=
  let p := portOf l
  if d.stage l != 5 then d
  else
    let d := countCharErr l err d
    if isTiming p then d
    else
      let vl := bits hdr 31 30
      let len := bits hdr 18 13
      let good := crcOk && err == .none && len ≤ 32 && payload.length == len
      if aborted && !good then count1 (R.LNK_PORT_COUNT p 4) d
      else if !good || (0 < len && (vl == 0 || vl == 3)) then
        let d := noteBlockCrc l d
        if good && vl == 0 then count1 (R.LNK_PORT_COUNT p 5) d else d
      else
        let d := if aborted then count1 (R.LNK_PORT_COUNT p 4) d else d
        let d := creditIn p (bit hdr 12) (bits hdr 9 0) (count1 (R.LNK_PORT_COUNT p 1) d)
        if len == 0 then d
        else if vl == 2 && p < 2 then count1 (R.LNK_PORT_COUNT p 5) d
        else
          let two := vl == 2
          let x := d.port p
          let v := x.vl two
          let s := bits hdr 28 19
          if 512 ≤ ahead v s || v.early.any (fun b => b.seq == s) then d
          else
            let b : RxBlock := { seq := s, mark := bit hdr 29, aborted := aborted, words := payload, at_ := d.nowCt }
            let d := d.setPort p (x.setVl two { v with early := v.early ++ [b] })
            loseOld 1024 p two (deliverHeld 1024 p two d)

/-! ### Sending (R288 to R294) -/

/-- The credit that a port returns for a VL (R290). -/
def creditOut (p : Nat) (two : Bool) (d : Dev) : Nat :=
  ((if two then (if 2 ≤ p then 64 else 0) else 8) + ((d.port p).vl two).retired) % 1024

/-- May the next block of a VL go (R290)? -/
def maySend (v : LnkVl) : Bool :=
  let step := (v.limit + 1024 - v.txSeq) % 1024
  1 ≤ step && step ≤ 512

/-- The message that a port sends next on VL_1: its place in the list of waiting messages. -/
def nextMsg (p : Nat) (d : Dev) : Option OutMsg :=
  d.out.find? (fun m => match m.dst with
    | .active => d.upActive == some p
    | .up q => q == p && p < 2
    | .down j => p == 2 + j
    | .i2c => false)

/-- Header of a block (R288); the credit of one VL goes with it, VL_1 and VL_2 in turn on a port that receives both. -/
def blockHdr (p : Nat) (two mark : Bool) (seq len : Nat) (d : Dev) : Word :=
  let c2 := (d.port p).creditVl2 && 2 ≤ p
  pack32 [(31, 30, if two then 2 else 1), (29, 29, b2n mark), (28, 19, seq), (18, 13, len), (12, 12, b2n c2), (9, 0, creditOut p c2 d)]

/-- A block of a VL leaves on a lane. -/
def sendBlock (l : Nat) (two mark aborted : Bool) (ws : List Word64) (d : Dev) : Dev :=
  let p := portOf l
  let x := d.port p
  let v := x.vl two
  let h := blockHdr p two mark v.txSeq ws.length d
  let d := d.setPort p { x.setVl two { v with txSeq := (v.txSeq + 1) % 1024 } with creditVl2 := !x.creditVl2, sinceVl1 := if two then x.sinceVl1 + 1 else 0 }
  count1 (R.LNK_PORT_COUNT p 0) (emitUnit l (.block h ws aborted) d)

/-- The next VL_1 block of a port leaves (R291, R306, R307). -/
def sendVl1 (l fb : Nat) (d : Dev) : Dev :=
  let p := portOf l
  let go (ws : List Word64) (d : Dev) : Dev :=
    let rest := ws.drop 32
    let d := sendBlock l false rest.isEmpty false (ws.take 32) d
    d.setPort p { d.port p with txMsg := if rest.isEmpty then none else some rest }
  match (d.port p).txMsg with
  | some ws => go ws d
  | none =>
    match nextMsg p d with
    | none => d
    | some m =>
      let d := { d with out := d.out.erase m }
      let d := match m.stampId with
        | some id => if p < 2 then
            let (lat, d) := drawFree 65535 d
            txtsPush p id (stampOf ((d.clk.turn * 16384 + d.clk.ct) * 2048 + fb + lat)) d
          else d
        | none => d
      go (pairWords m.words) d

/-- The next VL_2 block of an upstream port leaves (R231, R292). -/
def sendVl2 (l : Nat) (d : Dev) : Dev :=
  let p := portOf l
  if (d.port p).abort then
    sendBlock l true false true [0xF000000000000000] (d.setPort p { d.port p with abort := false })
  else
    match (d.upPort p).job with
    | none => d
    | some j =>
      let d := d.setUpPort p { d.upPort p with job := some { j with left := j.left.drop 32, fresh := false } }
      sendBlock l true j.fresh false (j.left.take 32) d

/-- A VL_2 unit waits on a port. -/
def vl2Waits (p : Nat) (d : Dev) : Bool := p < 2 && ((d.port p).abort || (match (d.upPort p).job with
  | some j => !j.left.isEmpty
  | none => false))

/-- A capability ordered set leaves, one of those that wait (R278). -/
def sendCaps (l : Nat) (d : Dev) : Dev :=
  emitUnit l (.capability (capBytes (portOf l) (laneIdx l) d)) (d.setLane l { d.lane l with capOut := (d.lane l).capOut - 1 })

/-- The next unit of a lane in ACTIVE, in the order of R291; a timing lane carries ordered sets only (R281). -/
def activeUnit (l fb : Nat) (d : Dev) : Dev :=
  let p := portOf l
  if isTiming p then (if 0 < (d.lane l).capOut then sendCaps l d else emitIdle l d)
  else if d.runWidth p ≤ laneIdx l || !d.is (F.LNK_PORT_STATUS_ACTIVE p) then emitIdle l d
  else
    let short := if laneIdx l == 0 then d.outShort.find? (fun m => m.port == p) else none
    match short with
    | some m => count1 (R.LNK_PORT_COUNT p 7) (emitUnit l (.short m.body) { d with outShort := d.outShort.erase m })
    | none =>
      match d.outCtl.find? (fun c => c.1 == p) with
      | some c => emitUnit l (.control c.2) { d with outCtl := d.outCtl.erase c }
      | none =>
        if 0 < (d.lane l).capOut then sendCaps l d
        else
          let x := d.port p
          let w1 := x.txMsg.isSome || (nextMsg p d).isSome
          let w2 := vl2Waits p d
          let d := if (w1 && !maySend x.vl1) || (w2 && !maySend x.vl2) then d.setPort p { x with waited := true } else d
          if w1 && maySend x.vl1 && (!w2 || 3 ≤ x.sinceVl1) then sendVl1 l fb d
          else if w2 && maySend x.vl2 then sendVl2 l d
          else emitIdle l d

/-- May what a lane has sent stand before the next idle ordered set? One is sent at least once in every 1 024 characters (R283). -/
def idleInTime (before : Nat) (u : SentUnit) : Bool := match u with
  | .idle _ | .short _ => true
  | _ => before + (unitChars u).length + 16 ≤ 1024

/-- BLOCK_SEND: a free lane sends the next unit of its stage: TS in TRAIN and LOCK, capability sets in EXCHANGE, the units of R291 in
ACTIVE, entry sets as it enters LP_DEEP, else nothing (R274, R277, R281, R283, R291 to R295). `fb` is the fine bin of the first bit,
for a transmit timestamp (R67). -/
def blockSend (l fb : Nat) (d : Dev) : Dev :=
  let p := portOf l
  let x := d.lane l
  let st := d.stage l
  let locked := b2n (st == 3 && d.is (F.LNK_LANE_STATUS_SYM_LOCK l))
  if d.is (F.LNK_LANE_STATUS_PRBS_BUSY l) then d
  else if st == 2 && x.idle then d
  else if st == 2 || st == 3 then
    emitFilled l 12 (.training (if isTiming p then 3 else (d.port p).rate) (locked + 2 * b2n x.warm + 4 * b2n x.lpExit)) d
  else if st == 4 then (if isTiming p && x.capOut == 0 then emitIdle l d else sendCaps l d)
  else if st == 5 then
    let d' := activeUnit l fb d
    if idleInTime x.sinceIdle d'.lnk.sent.2 then d' else emitIdle l d
  else if st == 6 && 0 < x.lpOut then emitFilled l 14 .lpEntry (d.setLane l { x with lpOut := x.lpOut - 1 })
  else d

/-- CREDIT_RETURN: a block with LEN 0 returns the credit of a VL (R290). -/
def creditReturn (p : Nat) (two : Bool) (d : Dev) : Dev :=
  if isTiming p || !d.is (F.LNK_PORT_STATUS_ACTIVE p) then d
  else
    let h := pack32 [(31, 30, 1), (12, 12, b2n two), (9, 0, creditOut p two d)]
    count1 (R.LNK_PORT_COUNT p 0) (emitUnit (laneOf p 0) (.block h [] false) d)

/-! ### Low power, commands and loopback (R287, R295, R296) -/

/-- LP_DEEP_ENTRY_RECEIVE: a lane that has symbol lock follows its partner into LP_DEEP (R295). -/
def lpEntry (l : Nat) (d : Dev) : Dev := if isTiming (portOf l) || d.stage l < 3 || 5 < d.stage l then d else goStage l 6 d

/-- A lane leaves LP_DEEP through a warm retrain whose TS carry LP_EXIT (R295). -/
def lpWake (l : Nat) (d : Dev) : Dev :=
  if d.stage l == 6 then (let d := laneRetrain l d
    d.setLane l { d.lane l with lpExit := true }) else d

/-- A warm retrain of a port runs, or waits for the boundary (R287). -/
def retrainRuns (p : Nat) (d : Dev) : Bool :=
  (d.port p).retrain || (List.range (portLanes p)).any (fun i => (d.lane (laneOf p i)).warm && 2 ≤ d.stage (laneOf p i) && d.stage (laneOf p i) ≤ 4)

/-- The result of LNK_CMD. -/
def lnkResult (st : Nat) (d : Dev) : Dev × Nat := (d.put F.LNK_CMD_STATUS_RESULT st, st)

/-- RETRAIN of a port (R287). -/
def linkRetrain (p : Nat) (d : Dev) : Dev × Nat :=
  if portLanes p == 0 then lnkResult 4 d
  else if retrainRuns p d then lnkResult 1 d
  else lnkResult 0 (d.setPort p { d.port p with retrain := true })

/-- RESTART of a port (R280). -/
def linkRestart (p : Nat) (d : Dev) : Dev × Nat :=
  if portLanes p == 0 then lnkResult 4 d else lnkResult 0 (d.setPort p { d.port p with restart := true })

/-- PRBS_START on a lane (R296). -/
def prbsStart (l len : Nat) (d : Dev) : Dev × Nat :=
  if !laneBonded l then lnkResult 4 d
  else if 12 < len then lnkResult 5 d
  else if d.stage l == 5 then lnkResult 3 d
  else if d.is (F.LNK_LANE_STATUS_PRBS_BUSY l) then lnkResult 1 d
  else lnkResult 0 ((d.put (F.LNK_LANE_STATUS_PRBS_BUSY l) 1).setLane l { d.lane l with prbsLen := len })

/-- A loopback test ends: the lane returns to DETECT unless it is isolated (R296). -/
def prbsEnd (l result errors units : Nat) (d : Dev) : Dev :=
  let d := (d.put (F.LNK_LANE_STATUS_PRBS_BUSY l) 0).put (F.LNK_LANE_PRBS_RESULT l) result
  let d := (d.setReg (R.LNK_LANE_PRBS_ERR l) (countWord 0 errors)).setReg (R.LNK_LANE_PRBS_BITS l) (toWord units)
  raise E.LNK_PRBS_DONE [] (if d.isolated (.lane l) then d else laneDetect l d)

/-- PRBS_STOP on a lane: how many bits were checked and how many failed by then is a free value (R296). -/
def prbsStop (l : Nat) (d : Dev) : Dev × Nat :=
  if !laneBonded l then lnkResult 4 d
  else if !d.is (F.LNK_LANE_STATUS_PRBS_BUSY l) then lnkResult 0 d
  else
    let (units, d) := drawFree (2 ^ (4 + (d.lane l).prbsLen)) d
    let (errors, d) := drawFree (units * 65536) d
    lnkResult 0 (prbsEnd l 3 errors units d)

/-- PRBS_DONE (R296). -/
def prbsDone (l errors : Nat) (d : Dev) : Dev :=
  if d.is (F.LNK_LANE_STATUS_PRBS_BUSY l) then prbsEnd l (if errors == 0 then 1 else 2) errors (2 ^ (4 + (d.lane l).prbsLen)) d else d

/-! ### Boundaries (R204, R274, R282, R285 to R287, R295) -/

/-- Is a port enabled (R204, R274)? -/
def portEnabled (p : Nat) (d : Dev) : Bool :=
  d.mode != .boot && d.mode != .test && (p < 2 || 10 ≤ p || (d.isConc && nbits (d.get F.CAS_CFG_PORT_EN) (p - 2) (p - 2) == 1))

/-- What the port configuration and role that have landed do to a port (R204, R280). -/
def portLanded (old : Dev) (p : Nat) (d : Dev) : Dev :=
  let moved (f : FRef) : Bool := old.get f != d.get f
  let d := if !isTiming p && (moved (F.LNK_PORT_CFG_MAX_RATE p) || moved (F.LNK_PORT_CFG_WIDTH p)) then d.setPort p { d.port p with restart := true } else d
  if 2 ≤ p && p < 10 && moved F.CAS_CFG_ROLE then
    (if d.isConc then (if portEnabled p d then coldStart p d else d)
    else (lanesOf p).foldl (fun d l => if d.stage l == 6 then d else goStage l 6 d) d)
  else d

/-- Eyes and adaptation of a lane over the turn that ends (R285, R286). -/
def eyeBoundary (env : BoundaryEnv) (l : Nat) (d : Dev) : Dev :=
  let (h, v) := env.eyes.getD l (d.get (F.LNK_LANE_EYE_EYE_H l), d.get (F.LNK_LANE_EYE_EYE_V l))
  let d := (d.put (F.LNK_LANE_EYE_EYE_H l) h).put (F.LNK_LANE_EYE_EYE_V l) v
  let d := match kfind env.adapt l with
    | some a => (d.setReg (R.LNK_LANE_ADAPT l) (adaptWord a)).put (F.LNK_LANE_STATUS_FROZEN l) 0
    | none => d.put (F.LNK_LANE_STATUS_FROZEN l) (b2n (2 ≤ d.stage l && d.stage l ≤ 5))
  let p := portOf l
  let low := d.stage l == 5 && d.is (F.LNK_PORT_CFG_MARGIN_EN p) && l < env.eyes.length &&
    (h < d.get (F.LNK_PORT_CFG_EYE_MIN_H p) || v < d.get (F.LNK_PORT_CFG_EYE_MIN_V p))
  let n := if low then (d.lane l).eyeLow + 1 else 0
  if low && d.get (F.LNK_PORT_CFG_EYE_COUNT p) ≤ n then
    laneRetrain l (raise E.LNK_MARGIN_RETRAIN [] (count1 (R.LNK_LANE_COUNT l 6) (d.setLane l { d.lane l with eyeLow := 0 })))
  else d.setLane l { d.lane l with eyeLow := n }

/-- A timing lane in ACTIVE sends a capability set every 16 turns (R281). -/
def capsBoundary (l : Nat) (d : Dev) : Dev :=
  let x := d.lane l
  d.setLane l (if 15 ≤ x.capTurns then { x with capTurns := 0, capOut := x.capOut + 1 } else { x with capTurns := x.capTurns + 1 })

/-- Lanes beyond the running width of a port that is up go to LP_DEEP (R279, R295). -/
def beyondWidth (p : Nat) (d : Dev) : Dev :=
  if isTiming p || !d.is (F.LNK_PORT_STATUS_ACTIVE p) then d
  else ((lanesOf p).drop (d.runWidth p)).foldl (fun d l => if d.stage l == 6 || d.is (F.LNK_LANE_STATUS_PRBS_BUSY l) then d else goStage l 6 d) d

/-- What a port does at the boundary that opens the present turn, after its commits. -/
def linkBoundary (old : Dev) (p : Nat) (d : Dev) : Dev :=
  let lanes := lanesOf p
  let x := d.port p
  let waits := x.waited || (vl2Waits p d && !maySend x.vl2) || ((x.txMsg.isSome || (nextMsg p d).isSome) && !maySend x.vl1)
  let d := if d.is (F.LNK_PORT_STATUS_ACTIVE p) && !isTiming p && waits then count1 (R.LNK_PORT_COUNT p 6) d else d
  let d := d.setPort p { d.port p with waited := false }
  let d := adoptCaps p (portLanded old p d)
  let x := d.port p
  if !portEnabled p d then
    -- a port that is not enabled is OFF; a downstream port of a LEAF stays in LP_DEEP (R204)
    (if 2 ≤ p && p < 10 && !d.isConc then d else lanes.foldl (fun d l => if d.stage l == 0 then d else goStage l 0 d) d)
  else if d.mode == .dormant && old.mode != .dormant && !isTiming p then
    let d := lanes.foldl (fun d l => if d.stage l == 0 || d.stage l == 6 then d else goStage l 6 d) d
    d.setPort p { d.port p with retrain := false }
  else
    let d := if isTiming p && d.stage (laneOf p 0) == 5 then capsBoundary (laneOf p 0) d else d
    -- in DORMANT lanes stay in LP_DEEP but for those that are woken (R348)
    if x.restart && (d.mode != .dormant || isTiming p) then coldStart p d
    else if old.mode == .dormant && d.mode != .dormant && !isTiming p then lanes.foldl (fun d l => lpWake l d) d
    else if x.retrain then
      (let d := lanes.foldl (fun d l => if d.stage l == 5 then laneRetrain l d else if laneIdx l < max 1 (d.runWidth p) then lpWake l d else d) d
      d.setPort p { d.port p with retrain := false })
    else if d.mode == .dormant && !isTiming p then d
    else beyondWidth p (lanes.foldl (fun d l =>
      if d.stage l == 0 then laneDetect l (d.setPort p { d.port p with rate := d.maxRate p }) else d) d)

/-- All ports and lanes at a boundary; `old` is the state before its commits landed. -/
def linksBoundary (env : BoundaryEnv) (old d : Dev) : Dev :=
  let d := (List.range 18).foldl (fun d l => eyeBoundary env l d) (env.chars.foldl (fun d c => countCharErr (c.1 % 18) c.2 d) d)
  (List.range 12).foldl (fun d p => linkBoundary old p d) d

/-! ### Commands -/

/-- CAPABILITY_RECEIVE (R282). -/
def execCapabilityReceive (lane : Nat) (bytes : List Byte) (err : CharErr) (s : State) : Host.Outcome State Fault Refusal :=
  onDev (fun d => let d := countCharErr (lane % 18) err d
                  if err == .none then capabilityReceive (lane % 18) bytes d else d) s
/-- LANE_DETECT_PROBE (R275). -/
def execLaneDetectProbe (l : Nat) (found : Bool) (s : State) : Host.Outcome State Fault Refusal := onDev (detectProbe (l % 18) found) s
/-- LANE_TRAIN_DONE (R276). -/
def execLaneTrainDone (l : Nat) (a : Adaptation) (s : State) : Host.Outcome State Fault Refusal :=
  onDev (trainDone (l % 18) a.adapt a.chars a.calm) s
/-- LANE_TRAIN_TIMEOUT (R276). -/
def execLaneTrainTimeout (l : Nat) (s : State) : Host.Outcome State Fault Refusal := onDev (trainTimeout (l % 18)) s
/-- LANE_LOCK_DONE (R277). -/
def execLaneLockDone (l : Nat) (s : State) : Host.Outcome State Fault Refusal := onDev (lockDone (l % 18)) s
/-- LANE_LOCK_TIMEOUT (R277). -/
def execLaneLockTimeout (l : Nat) (s : State) : Host.Outcome State Fault Refusal := onDev (lockTimeout (l % 18)) s
/-- LANE_RETRY (R280). -/
def execLaneRetry (l : Nat) (s : State) : Host.Outcome State Fault Refusal := onDev (laneRetry (l % 18)) s
/-- LINK_FAIL (R280). -/
def execLinkFail (l : Nat) (s : State) : Host.Outcome State Fault Refusal := onDev (linkFail (l % 18)) s
/-- LANE_FAILED_RESTART (R274). -/
def execLaneFailedRestart (l : Nat) (s : State) : Host.Outcome State Fault Refusal := onDev (failedRestart (l % 18)) s
/-- EXCHANGE_FAIL_TICK (R279). -/
def execExchangeFailTick (l : Nat) (s : State) : Host.Outcome State Fault Refusal := onDev (exchangeFailTick (l % 18)) s
/-- LOCK_LOSS (R284). -/
def execLockLoss (l : Nat) (s : State) : Host.Outcome State Fault Refusal := onDev (lockLoss (l % 18)) s
/-- TS_RECEIVE_ACTIVE (R287). -/
def execTsReceiveActive (l : Nat) (s : State) : Host.Outcome State Fault Refusal := onDev (tsActive (l % 18)) s
/-- SYMBOL_LOCK (R277). -/
def execSymbolLock (l : Nat) (s : State) : Host.Outcome State Fault Refusal := onDev (symbolLock (l % 18)) s
/-- BLOCK_RECEIVE (R288). -/
def execBlockReceive (lane : Nat) (hdr : Word) (payload : List Word64) (crcOk : Bool) (err : CharErr) (aborted : Bool) (s : State) :
    Host.Outcome State Fault Refusal := onDev (blockReceive (lane % 18) hdr payload crcOk err aborted) s
/-- BLOCK_LOST_TIMEOUT (R289). -/
def execBlockLostTimeout (p vl : Nat) (s : State) : Host.Outcome State Fault Refusal := onDev (blockLostTimeout 1024 (p % 12) (vl == 2)) s
/-- BLOCK_SEND (R291). -/
def execBlockSend (lane fb : Nat) (s : State) : Host.Outcome State Fault Refusal := onDev (blockSend (lane % 18) (fb % 2048)) s
/-- CREDIT_RETURN (R290). -/
def execCreditReturn (p vl : Nat) (s : State) : Host.Outcome State Fault Refusal := onDev (creditReturn (p % 12) (vl == 2)) s
/-- LP_DEEP_ENTRY_RECEIVE (R295). -/
def execLpDeepEntryReceive (l : Nat) (s : State) : Host.Outcome State Fault Refusal := onDev (lpEntry (l % 18)) s
/-- LP_DEEP_WAKE (R295). -/
def execLpDeepWake (l : Nat) (s : State) : Host.Outcome State Fault Refusal := onDev (lpWake (l % 18)) s
/-- PRBS_DONE (R296). -/
def execPrbsDone (l errors : Nat) (s : State) : Host.Outcome State Fault Refusal := onDev (prbsDone (l % 18) errors) s

end Sys2Proof.Machine
end

