-- ==== Sys2Proof/Machine/Memory.lean ====
section
/-! DEFINITION. The fabric: the address map and its worlds (R371 to R377, R472 to R477), the bytes, protection marks and
errors (R378 to R387), scrubbing (R388, R389), remapping (R390 to R392), the flip mask (R393) and MRAM wear (R396). -/

namespace Sys2Proof.Machine

/-! ### The byte memory -/

/-- First address of the SDRAM (R371). -/
def sdramBase : Nat := 0x100000000

/-- What an address that nothing has written reads as: in the SDRAM the bytes of IDLE words (R383), in the MRAM and the
boot ROM the contents as delivered, elsewhere the zeros that BOOT writes (R383). -/
def memDefault (a : Nat) : Byte :=
  if sdramBase ≤ a then (if a % 8 == 7 then 0xF0 else 0)
  else if 0x40000000 ≤ a && a < 0x41000000 then Config.mramByte (a - 0x40000000)
  else if a < 0x10000 then Config.romByte a
  else 0

/-- The byte at an address. -/
def memGet : List Host.Cell → Nat → Byte
  | [], a => memDefault a
  | (k, v) :: r, a => if k == a then v else memGet r a

/-- Set a listed byte, keeping the addresses rising. -/
def cellSet : List Host.Cell → Nat → Byte → List Host.Cell
  | [], a, v => [(a, v)]
  | (k, x) :: r, a, v => if a < k then (a, v) :: (k, x) :: r else if k == a then (a, v) :: r else (k, x) :: cellSet r a v

/-- Remove a listed byte. -/
def cellDel : List Host.Cell → Nat → List Host.Cell
  | [], _ => []
  | (k, x) :: r, a => if k == a then r else (k, x) :: cellDel r a

/-- Write a byte: a byte equal to what an unlisted address reads as is not listed. -/
def memSet (m : List Host.Cell) (a : Nat) (v : Byte) : List Host.Cell :=
  if v == memDefault a then cellDel m a else cellSet m a v

/-- Write bytes from an address on. -/
def memWrite (m : List Host.Cell) : Nat → List Byte → List Host.Cell
  | _, [] => m
  | a, b :: r => memSet (memWrite m (a + 1) r) a b

/-- The canonical form of the memory: addresses strictly rising, no byte equal to its default. -/
def Memory.wf (m : List Host.Cell) : Bool :=
  m.all (fun c => c.2 != memDefault c.1) && (m.zip (m.drop 1)).all (fun p => decide (p.1.1 < p.2.1))

/-! ### Regions (R371, R375, R376) -/

/-- The regions of the fabric address map. -/
inductive Region where
  | rom | isram | dsram | regs | acq | fifo | desc | res | mram | store | horef
  deriving DecidableEq, Repr

/-- Bytes of SDRAM in use: none under R7. -/
def Dev.sdramBytes (d : Dev) : Nat := if d.is F.MEM_STATUS_SDRAM_OK then d.get F.PWR_FEATURES_SDRAM_GIB * 2 ^ 30 else 0

/-- The region of an address; none where it is unmapped (R372, R375). -/
def Dev.region (d : Dev) (a : Nat) : Option Region :=
  let c := d.sdramBytes
  if a < 0x10000 then some .rom
  else if 0x01000000 ≤ a && a < 0x01040000 then some .isram
  else if 0x02000000 ≤ a && a < 0x02040000 then some .dsram
  else if 0x10000000 ≤ a && a < 0x10130000 then some .regs
  else if 0x20000000 ≤ a && a < 0x20300000 then some .acq
  else if 0x30000000 ≤ a && a < 0x30082000 then some .fifo
  else if 0x31000000 ≤ a && a < 0x31080000 then some .desc
  else if 0x32000000 ≤ a && a < 0x32400000 then some .res
  else if 0x40000000 ≤ a && a < 0x41000000 then some .mram
  else if sdramBase ≤ a && a < sdramBase + c then
    (let o := a - sdramBase
    let t := c - 0x2000000
    if o < t then some .store else if t + 0x400000 ≤ o then some .horef else none)
  else none

/-- May a region be written over the fabric (R372, R361)? -/
def Region.writable : Region → Bool
  | .isram | .dsram | .regs | .mram | .store | .horef => true
  | .rom | .acq | .fifo | .desc | .res => false

/-- Family of the protected units of a region (R378). -/
def Region.fam : Region → Option Nat
  | .isram => some 0 | .dsram => some 1 | .acq => some 2 | .fifo => some 7 | .desc => some 5 | .res => some 6
  | .store | .horef => some 8 | .mram => some 9
  | .rom | .regs => none

/-- The budgeted resource beside the fabric that an access of a region occupies: 1 SDRAM, 2 MRAM (R358). -/
def Region.port : Region → Option Nat
  | .store | .horef => some 1
  | .mram => some 2
  | _ => none

/-! ### Worlds (R472 to R477) -/

/-- World bit i; bit 36 is 1 while the S_DEBUG scope is unlocked (R474, R490). -/
def Dev.worldBit (d : Dev) (i : Nat) : Bool := if i == 36 then nbits (d.get F.SEC_STATUS_SCOPE) 3 3 == 1 else if i < 32 then bit (d.reg R.SEC_WORLD_LO) i else bit (d.reg R.SEC_WORLD_HI) (i - 32)

/-- Does an enabled region descriptor cover a page (R475)? -/
def Dev.covers (d : Dev) (r page : Nat) : Bool :=
  d.is (F.SEC_REGION_ATTR_EN r) && d.get (F.SEC_REGION_BASE_PAGE r) ≤ page && page ≤ d.get (F.SEC_REGION_LIMIT_PAGE r)

/-- Is a "world map" address secure for an access (R473, R475)? -/
def Dev.mapSecure (d : Dev) (a : Nat) (write : Bool) : Bool :=
  match (List.range 64).find? (fun r => d.covers r (a / 4096)) with
  | none => true
  | some r => d.is (F.SEC_REGION_ATTR_SECURE r) || (write && d.is (F.SEC_REGION_ATTR_NS_RO r))

/-- MRAM partitions that are secure whatever the descriptors say (R376, R473). -/
def mramSecure (o : Nat) : Bool := o < 0x700000 || (0xB00000 ≤ o && o < 0xE00000)

/-- Is the target of an access secure (R473)? -/
def Dev.secureAt (d : Dev) (a : Nat) (write : Bool) : Bool :=
  match d.region a with
  | none => false
  | some .rom | some .horef => true
  | some .regs => 0x8000 ≤ a % 65536 || d.worldBit ((a - 0x10000000) / 65536)
  | some .mram => mramSecure (a - 0x40000000) || d.mapSecure a write
  | some _ => d.mapSecure a write

/-- A violation of the world map is counted, raised and reported (R477). -/
def worldViolation (access master addr : Nat) (d : Dev) : Dev :=
  report 0x1B0 0x14 access master addr none (raise E.SEC_VIOLATION [] (count1 (R.SEC_COUNT 0) d))

/-! ### What the bytes of a region are (R373, R374, R224, R225) -/

/-- The queue that holds a page, and the page's place in its frame. -/
def Dev.pageOwner (d : Dev) (p : Nat) : Option (Nat × TQueue × Nat) :=
  (d.tq.q.find? (fun q => q.2.pages.contains p)).map (fun q => (q.1, q.2, q.2.pages.findIdx (· == p)))

/-- Byte b of a 64-bit word stored little-endian (R180). -/
def leByte (w : Word64) (b : Nat) : Byte := BitVec.ofNat 8 (w.toNat / 2 ^ (8 * b))

/-- A byte of which the spec says nothing. -/
def freeByte (d : Dev) : Byte × Dev :=
  let (x, d) := drawFree 255 d
  (BitVec.ofNat 8 x, d)

/-- A byte of a page of the queue store: frame words and the link word of a queue's page; the contents of other pages
once handed to a writer are free; a page never used answers `other`. -/
def pageByte (p o : Nat) (other : Byte) (d : Dev) : Byte × Dev :=
  match d.pageOwner p with
  | some (_, x, i) =>
    let w := o / 8
    if w == 511 then
      let last := i + 1 == x.pages.length
      (leByte (pack64 [(63, 63, b2n last), (22, 0, if last then 0 else x.pages.getD (i + 1) 0)]) (o % 8), d)
    else (match x.words[i * 511 + w]? with
      | some v => (leByte v (o % 8), d)
      | none => freeByte d)
  | none => if d.ram.handed.contains p then freeByte d else (other, d)

/-- The sample at memory position q of a channel: of a READY or READING segment its code (R373); others are free. -/
def Dev.sampleAt (d : Dev) (n : Nat) (lg : Bool) (q : Nat) : Option Nat :=
  let hits := (d.capCh n).segs.filter (fun g => (g.st == .ready || g.st == .reading) && g.w + g.j * g.size ≤ q && q < g.w + g.j * g.size + g.len)
  match hits with
  | g :: _ => some ((if lg then g.lg else g.hg).getD (q - g.w - g.j * g.size) 0)
  | [] => none

/-- A byte of the acquisition memory (R373). -/
def acqByte (o : Nat) (d : Dev) : Byte × Dev :=
  let n := o / 0xC000
  let r := o % 0xC000
  let lg := 0x6000 ≤ r
  let w := r % 0x6000 / 12
  let b := r % 12 * 8
  let q := 8 * w + b / 12
  let s (q : Nat) (d : Dev) : Nat × Dev := match d.sampleAt n lg q with
    | some v => (v, d)
    | none => drawFree 4095 d
  let (x, d) := s q d
  let (y, d) := if 12 < b % 12 + 8 then s (q + 1) d else (0, d)
  (BitVec.ofNat 8 ((x + y * 4096) / 2 ^ (b % 12)), d)

/-- The byte that a fabric read finds at a mapped address, marks apart. -/
def fabByte (mem : List Host.Cell) (a : Nat) (d : Dev) : Byte × Dev :=
  match d.region a with
  | some .acq => acqByte (a - 0x20000000) d
  | some .fifo =>
    let o := a - 0x30000000
    let ws := (kget d.fifos (o / 0x2000 * 2) []).flatMap (·.words)
    (leByte (ws.getD (o % 0x2000 / 8) 0xF000000000000000) (o % 8), d)
  | some .desc =>
    let o := a - 0x31000000
    (BitVec.ofNat 8 ((descWord (o / 16) (o % 16 / 4) d).toNat / 2 ^ (8 * (o % 4))), d)
  | some .res => if d.reservoir then pageByte ((a - 0x32000000) / 4096) (a % 4096) 0 d else (memGet mem a, d)
  | some .store => if d.reservoir then (memGet mem a, d) else pageByte ((a - sdramBase) / 4096) (a % 4096) (memGet mem a) d
  | _ => (memGet mem a, d)

/-- n bytes of a fabric read. -/
def fabBytes (mem : List Host.Cell) : Nat → Nat → Dev → List Byte × Dev
  | 0, _, d => ([], d)
  | n + 1, a, d =>
    let (b, d) := fabByte mem a d
    let (bs, d) := fabBytes mem n (a + 1) d
    (b :: bs, d)

/-! ### Marks and errors of units (R380, R381, R384, R385) -/

/-- Key of a protected unit. -/
def unitKey (fam u : Nat) : Nat := fam * 2 ^ 40 + u

/-- Put a key into a rising list. -/
def insertKey (k : Nat) : List Nat → List Nat
  | [] => [k]
  | x :: r => if k < x then k :: x :: r else if k == x then x :: r else x :: insertKey k r

/-- The unit of a family that holds a fabric address. -/
def unitOf (fam a : Nat) : Nat :=
  if fam == 0 then a - 0x01000000 else if fam == 1 then a - 0x02000000 else if fam == 2 then (a - 0x20000000) / 12
  else if fam == 5 then (a - 0x31000000) / 8 else if fam == 6 then (a - 0x32000000) / 8
  else if fam == 7 then (a - 0x30000000) / 0x2000 * 2 else if fam == 8 then (a - sdramBase) / 16 else (a - 0x40000000) / 8

/-- The page of the queue store that a unit of family 6 or 8 lies in, where that family is the store. -/
def Dev.storePage (d : Dev) (fam u : Nat) : Option Nat :=
  if fam == d.tqFam then some (if fam == 6 then u / 512 else u / 256) else none

/-- Words of a queue's frame that lie in a unit. -/
def unitWords (x : TQueue) (u : Nat) (d : Dev) : List Nat := (List.range x.words.length).filter (fun i => frameUnit x.pages i d == u)

/-- Record samples of a segment that lie in word w of the channel's memory: HG from 0, LG from the record's length (R142). -/
def segSamples (g : Segment) (w : Nat) : List Nat :=
  (List.range (2 * g.len)).filter (fun j =>
    let pos (j : Nat) : Nat := g.w + g.j * g.size + j
    (if j < g.len then pos j / 8 else 2048 + pos (j - g.len) / 8) == w)

/-- Does a unit carry a poison mark (R380)? -/
def Dev.poisoned (d : Dev) (fam u : Nat) : Bool :=
  match (d.storePage fam u).bind d.pageOwner with
  | some (_, x, _) => (unitWords x u d).any x.bad.contains
  | none =>
    if fam == 2 then (d.capCh (u / 4096)).segs.any (fun g => (segSamples g (u % 4096)).any g.bad.contains)
    else d.ram.poison.contains (unitKey fam u)

/-- The descriptor of a queue is lost: it reads FREE, and its pages return when the free list is rebuilt (R385). -/
def descLost (i : Nat) (d : Dev) : Dev :=
  match d.queue i with
  | none => d
  | some x => { d with tq := { d.tq with q := kdel d.tq.q i }, ram := { d.ram with leaked := d.ram.leaked ++ x.pages } }

/-- The table of a chain is lost: it leaves service at its next sampling edge and makes a dice run, which counts as a failed
run (R106, R385). -/
def tableLost (u q : Nat) (d : Dev) : Dev :=
  diceFail u q (d.setUnit u ((d.unit u).setChain q { (d.unit u).chain q with service := false, tbl := none }))

/-- A unit with an uncorrectable error is marked, where its memory keeps a mark, and its consumers see it (R380, R385). -/
def markUnit (fam u : Nat) (d : Dev) : Dev :=
  if fam == 2 then
    let n := u / 4096
    d.setCapCh n { d.capCh n with segs := (d.capCh n).segs.map (fun g =>
      if g.st == .ready || g.st == .reading then { g with bad := g.bad ++ (segSamples g (u % 4096)).filter (fun j => !g.bad.contains j) } else g) }
  else if fam == 4 then (if u < 52800 then tableLost (u / 80 / 5) (u / 80 % 5) d else d)
  else if fam == 5 then descLost (u / 2) d
  else if fam == 9 then d
  else
    match (d.storePage fam u).bind d.pageOwner with
    | some (i, x, _) => d.setQueue i { x with bad := x.bad ++ (unitWords x u d).filter (fun j => !x.bad.contains j) }
    | none => { d with ram := { d.ram with poison := insertKey (unitKey fam u) d.ram.poison } }

/-- Data goes to a unit with its mark: an SDRAM page's poison bit is set with it (R367, R380). -/
def markWritten (fam u : Nat) (d : Dev) : Dev :=
  let d := markUnit fam u d
  if fam == 8 then { d with ram := { d.ram with pagePoison := insertKey (u / 256) d.ram.pagePoison } } else d

/-- An uncorrectable error is found in a unit (R385): marked, counted and reported. -/
def uncorrectable (fam u access master : Nat) (d : Dev) : Dev := uncorrectableNote fam u access master (markUnit fam u d)

/-- A unit is read (R381, R384, R385), where the read finds `verdict`: 0 nothing, 1 a correctable, 2 an uncorrectable error;
an error left by the flip mask is found too. Answers whether the data is unreliable. -/
def readUnit (fam u access master verdict : Nat) (d : Dev) : Bool × Dev :=
  if d.poisoned fam u then (true, count1 (R.MEM_FAM_COUNT fam 2) d)
  else
    let v := max verdict (kget d.ram.faulty (unitKey fam u) 0)
    let d := { d with ram := { d.ram with faulty := kdel d.ram.faulty (unitKey fam u) } }
    if v == 0 then (false, d)
    else if v == 1 then (false, correctable fam u access master d)
    else (true, uncorrectable fam u access master d)

/-- The units of a family that hold n bytes from an address. -/
def unitsIn (fam a n : Nat) : List Nat :=
  if n == 0 then [] else (List.range (unitOf fam (a + n - 1) - unitOf fam a + 1)).map (· + unitOf fam a)

/-- The units of a read are checked; `corr` and `unc` are the addresses at which it finds errors. Answers the units whose
data is unreliable. -/
def readCheck (a n access master : Nat) (corr unc : List Nat) (d : Dev) : List Nat × Dev :=
  match (d.region a).bind Region.fam with
  | none => ([], d)
  | some fam =>
    let seen (u : Nat) (l : List Nat) : Bool := l.any (fun x => a ≤ x && x < a + n && unitOf fam x == u)
    (unitsIn fam a n).foldl (fun (acc : List Nat × Dev) u =>
      let (bad, d) := readUnit fam u access master (if seen u unc then 2 else if seen u corr then 1 else 0) acc.2
      (if bad then acc.1 ++ [u] else acc.1, d)) ([], d)

/-- Does an address lie in one of some units? -/
def Dev.inUnits (d : Dev) (a : Nat) (us : List Nat) : Bool :=
  match (d.region a).bind Region.fam with
  | none => false
  | some fam => us.contains (unitOf fam a)

/-- Does a read touch an SDRAM page that was never written (R383)? -/
def Dev.neverWritten (d : Dev) (a : Nat) : Bool :=
  match d.region a with
  | some .store | some .horef =>
    let p := (a - sdramBase) / 4096
    !d.ram.written.contains p && !(d.ram.handed.contains p && !d.reservoir)
  | _ => false

/-! ### Writes -/

/-- A written unit's mark and pending error: a write of the whole unit clears both; a partial one reads the unit first (R380,
R393). -/
def writeUnit (fam a n access master u : Nat) (d : Dev) : Dev :=
  let whole := a ≤ unitAddr fam u && unitAddr fam u + unitLen fam ≤ a + n
  if whole then
    let d := { d with ram := { d.ram with poison := d.ram.poison.filter (· != unitKey fam u), faulty := kdel d.ram.faulty (unitKey fam u) } }
    match (d.storePage fam u).bind d.pageOwner with
    | some (i, x, _) => d.setQueue i { x with bad := x.bad.filter (fun j => !(unitWords x u d).contains j) }
    | none => d
  else if (kfind d.ram.faulty (unitKey fam u)).isSome then (readUnit fam u access master 0 d).2
  else d

/-- Word writes of an MRAM sector are counted; the threshold raises WEAR_WARN once (R396). -/
def wearAdd (sector n : Nat) (d : Dev) : Dev :=
  let c := kget d.ram.wear sector 0 + n
  let d := { d with ram := { d.ram with wear := kset d.ram.wear sector c } }
  let d := if d.lget F.MEM_WEAR_MAX_WRITES < c / 256 then (d.setLive R.MEM_WEAR_MAX (toWord (c / 256))).put F.MEM_WEAR_SECTOR_SECTOR sector else d
  if 500000000 ≤ c && !d.is F.MEM_STATUS_WEAR_WARN then raise E.MEM_WEAR_WARN [] (d.put F.MEM_STATUS_WEAR_WARN 1) else d

/-- The sector's count is persisted in a wear-managed record after every 2^16 writes to it (R396). -/
def wearCount (sector n : Nat) (d : Dev) : Dev :=
  let d := wearAdd sector n d
  let c := kget d.ram.wear sector 0
  if c < kget d.ram.wearKept sector 0 + 2 ^ 16 then d
  else wearAdd 192 8 { d with ram := { d.ram with wearKept := kset d.ram.wearKept sector c } }

/-- WEAR_MAX and WEAR_SECTOR of some counts, as they stand after a reset (R396). -/
def wearShow (wear : KMap Nat) (d : Dev) : Dev :=
  let m := wear.foldl (fun (m : Nat × Nat) x => if m.1 < x.2 / 256 then (x.2 / 256, x.1) else m) (0, 0)
  ((d.setReg R.MEM_WEAR_MAX (toWord m.1)).setLive R.MEM_WEAR_MAX (toWord m.1)).put F.MEM_WEAR_SECTOR_SECTOR m.2

/-- A wear-managed record is written: one slot of 64 bytes, 8 words (R396). The spec gives no sector; the model takes the first of
the records' partition. -/
def wearRecord (d : Dev) : Dev := wearCount 192 8 d

/-- Bytes written into a page of a queue change its frame words; the link word keeps the chain. -/
def patchPage (p o : Nat) (bs : List Byte) (d : Dev) : Dev :=
  match d.pageOwner p with
  | none => d
  | some (i, x, k) =>
    let put (ws : List Word64) (j : Nat) (b : Byte) : List Word64 :=
      let w := (o + j) / 8
      let h := 8 * ((o + j) % 8)
      if w == 511 then ws else ws.modify (k * 511 + w) (fun v => wset v (h + 7) h b.toNat)
    d.setQueue i { x with words := (bs.zipIdx).foldl (fun ws q => put ws q.2 q.1) x.words }

/-- A fabric write of bytes that lie in one 4 KiB page of a writable region: bytes land, marks, written bits and wear follow,
and the flip mask strikes the first matching unit (R380, R383, R393, R396). Units that hold an address of `poison` are
marked. -/
def fabWrite (a : Nat) (bs : List Byte) (poison : List Nat) (access master : Nat) (s : State) : State :=
  match s.dev.region a with
  | none => s
  | some rg =>
    match rg.fam with
    | none => s
    | some fam =>
      let d := s.dev
      let n := bs.length
      let us := unitsIn fam a n
      let d := us.foldl (fun d u => writeUnit fam a n access master u d) d
      let hit := us.find? (fun u => d.flipArmed fam (unitAddr fam u) (unitLen fam))
      let (flip, d) := match hit with
        | none => (none, d)
        | some u => (match flipTake fam false (unitAddr fam u) (unitLen fam) d with
          | (some o, d) => (some (u, o), d)
          | (none, d) => (none, d))
      let p := (a - sdramBase) / 4096
      let d := if fam == 8 then { d with ram := { d.ram with written := insertKey p d.ram.written } } else d
      let d := if fam == 8 && !d.reservoir then patchPage p (a % 4096) bs d else d
      let d := if fam == 9 then wearCount ((a - 0x40000000) / 65536) us.length d else d
      let d := if fam == 9 then d else (us.filter (fun u => poison.any (fun x => unitOf fam x == u))).foldl (fun d u => markWritten fam u d) d
      let mem := memWrite s.mem a bs
      let (mem, d) := match flip with
        | none => (mem, d)
        | some (u, cls, m) =>
          let base := unitAddr fam u
          let mem := (List.range (unitLen fam)).foldl (fun mem i =>
            if nbits m (8 * i + 7) (8 * i) == 0 then mem else memSet mem (base + i) (memGet mem (base + i) ^^^ BitVec.ofNat 8 (m >>> (8 * i)))) mem
          (mem, if cls == 0 then d else { d with ram := { d.ram with faulty := kset d.ram.faulty (unitKey fam u) cls } })
      { s with dev := d, mem := mem }

/-! ### Scrubbing (R386, R388, R389) -/

/-- The unit at a byte position of the SRAM scrubber, family after family (R388). -/
def scrubUnit (pos : Nat) : Nat × Nat :=
  if pos < 262144 then (0, pos)
  else if pos < 524288 then (1, pos - 262144)
  else if pos < 3670016 then (2, (pos - 524288) / 12)
  else if pos < 3674112 then (3, pos - 3670016)
  else if pos < 3725312 then (4, pos - 3674112)
  else if pos < 4249600 then (5, (pos - 3725312) / 8)
  else (6, (pos - 4249600) / 8)

/-- End of the positions of the SRAM scrubber (R388). -/
def scrubBytes : Nat := 8443904

/-- The window rings are not scrubbed: from a position in one, the SRAM scrubber goes on at the segment stores behind it (R388). `w` is
the length of the ring in samples. -/
def ringSkip (w pos : Nat) : Nat :=
  let word := (pos - 524288) / 12
  if 524288 ≤ pos && pos < 3670016 && 8 * (word % 2048) < w then 524288 + 12 * (word / 2048 * 2048 + (w + 7) / 8) else pos

/-- The next n positions that the SRAM scrubber reads, and the position after them. -/
def scrubPlaces (w : Nat) : Nat → Nat → List Nat × Nat
  | 0, p => ([], p)
  | n + 1, p =>
    let p := ringSkip w p
    if scrubBytes ≤ p then ([], p)
    else
      let (l, q) := scrubPlaces w n (p + 1)
      (p :: l, q)

/-- SDRAM pages that the scrubber reads: written pages, the bitmaps and the spare slots in use (R388). -/
def Dev.scrubPages (d : Dev) : List Nat :=
  let top := (d.sdramBytes - 0x2000000) / 4096
  let own := if d.reservoir then [] else d.ram.handed
  let pages := own.foldl (fun l p => insertKey p l) d.ram.written
  pages.filter (· < top) ++ (List.range (16 * d.ram.rows.length)).map (· + top) ++ (List.range 768).map (· + top + 256) ++
    pages.filter (fun p => top + 1024 ≤ p)

/-- Up to n codewords of the pages that the SDRAM scrubber reads, from codeword `pos` on. -/
def scrubCodewords : Nat → Nat → List Nat → List Nat
  | _, _, [] => []
  | n, pos, p :: r =>
    if 256 * (p + 1) ≤ pos then scrubCodewords n pos r
    else
      let start := max pos (256 * p)
      let k := min n (256 * (p + 1) - start)
      (List.range k).map (· + start) ++ (if k == n then [] else scrubCodewords (n - k) (256 * (p + 1)) r)

/-- A sweep is complete: SCRUB_LAST gives its turns, and the next begins (R388). -/
def sweepDone (m : Nat) (d : Dev) : Dev :=
  let n := d.clk.bounds - d.ram.scrubStart.getD m 0
  let d := d.setLive (R.MEM_SCRUB_LAST m) (toWord n)
  { d with ram := { d.ram with scrubPos := d.ram.scrubPos.set m 0, scrubStart := d.ram.scrubStart.set m d.clk.bounds,
                               late := if m == 0 then false else d.ram.late } }

/-- A scrubber reads its units; `corr` and `unc` are the places among them at which it finds errors. A mark already there is no new
error, and counts in POISON_READ (R381). -/
def scrubRead (units : List (Nat × Nat)) (corr unc : List Nat) (d : Dev) : Dev :=
  (units.zipIdx).foldl (fun d x =>
    let ((fam, u), i) := x
    let v := max (if unc.contains i then 2 else if corr.contains i then 1 else 0) (kget d.ram.faulty (unitKey fam u) 0)
    (readUnit fam u 5 0x04 v d).2) d

/-- The page poison bit of a page clears once a sweep has found no poisoned codeword in it (R380). -/
def judgePage (p : Nat) (d : Dev) : Dev :=
  if d.ram.pagePoison.contains p && !(List.range 256).any (fun i => d.poisoned 8 (256 * p + i)) then
    { d with ram := { d.ram with pagePoison := d.ram.pagePoison.filter (· != p) } }
  else d

/-- SCRUB_STEP of scrubber m: 0 SRAM, 1 SDRAM, 2 MRAM (R388). -/
def scrubStep (m : Nat) (corr unc : List Nat) (d : Dev) : Dev :=
  let runs := d.mode != .boot && d.mode != .test
  let extra := b2n (!corr.isEmpty)
  let pos := d.ram.scrubPos.getD m 0
  if !runs then d
  else if m == 0 then
    if !d.is F.MEM_SCRUB_CFG_SRAM_EN || d.ram.scrubTurn == some d.clk.bounds then d
    else withPips 0 0 1 (fun d =>
      let (ps, next) := scrubPlaces (d.geomAt d.clk.turn).1 64 pos
      let d := scrubRead (ps.map scrubUnit).eraseDups corr unc { d with ram := { d.ram with
        scrubPos := d.ram.scrubPos.set 0 next, scrubTurn := some d.clk.bounds } }
      if scrubBytes ≤ next then sweepDone 0 d else d) d
  else if m == 1 then
    if !d.is F.MEM_SCRUB_CFG_SDRAM_EN || d.sdramBytes == 0 then d
    else withPips 1 0 (1 + extra) (fun d =>
      let us := scrubCodewords 40 pos d.scrubPages
      let d := scrubRead (us.map (fun u => (8, u))) corr unc d
      let next := us.getLastD pos + 1
      let d := (us.filter (fun u => u % 256 == 255)).foldl (fun d u => judgePage (u / 256) d) d
      let d := { d with ram := { d.ram with scrubPos := d.ram.scrubPos.set 1 next } }
      if (scrubCodewords 1 next d.scrubPages).isEmpty then sweepDone 1 d else d) d
  else
    if !d.is F.MEM_SCRUB_CFG_MRAM_EN then d
    else withPips 2 0 (1 + extra) (fun d =>
      let d := scrubRead ((List.range 8).map (fun i => (9, pos / 8 + i))) corr unc d
      let d := { d with ram := { d.ram with scrubPos := d.ram.scrubPos.set 2 (pos + 64) } }
      if 0x1000000 ≤ pos + 64 then sweepDone 2 d else d) d

/-- SWEEP_LATE: the SRAM sweep has taken 390 625 turns (R389). -/
def sweepLate (d : Dev) : Dev :=
  let n := d.clk.bounds - d.ram.scrubStart.getD 0 0
  if n < 390625 || d.ram.late then d
  else raise E.MEM_SWEEP_LATE [] (count1 (R.MEM_COUNT 2) { d with ram := { d.ram with late := true } })

/-- BUCKET_LEAK of family f, in a turn that 2^LEAK_LOG2 divides (R387). -/
def bucketLeak (f : Nat) (d : Dev) : Dev :=
  let f := f % 10
  if d.clk.turn % 2 ^ d.get (F.MEM_BUCKET_CFG_LEAK_LOG2 f) == 0 then
    d.lput (F.MEM_BUCKET_LEVEL_LEVEL f) (d.lget (F.MEM_BUCKET_LEVEL_LEVEL f) - 1)
  else d

/-! ### Row copies, flushes, the free list (R382, R385, R391) -/

/-- ROW_COPY_DONE: the oldest row copy under way ends, once its pips of SELFTEST have been granted (R391). -/
def rowCopyDone (d : Dev) : Dev :=
  match d.ram.rows.find? (fun r => r.2 == .copying) with
  | none => d
  | some (r, _) =>
    withPips 1 3 ((4096 * (Config.rowPages r).length + 639) / 640) (fun d =>
      { d with ram := { d.ram with rows := d.ram.rows.map (fun x => if x.1 == r then (r, .copied) else x) } }) d

/-- Copied rows are redirected at the boundary (R391). -/
def rowBoundary (d : Dev) : Dev :=
  let n := (d.ram.rows.filter (fun r => r.2 == .copied)).length
  if n == 0 then d
  else
    let d := { d with ram := { d.ram with rows := d.ram.rows.map (fun r => if r.2 == .copied then (r.1, .redirected) else r) } }
    (List.range n).foldl (fun d _ => raise E.MEM_REMAPPED [] (count1 (R.MEM_FAM_COUNT 8 3) d)) d

/-- A change of FIFO_PROT has landed: every FIFO of a changed class is to be flushed (R382). `old` are the words before. -/
def memLanded (old : KMap Word) (d : Dev) : Dev :=
  let ch (f : FRef) : Bool := getIn old f != d.get f
  let f := (if ch F.MEM_FIFO_PROT_HIT then [0] else []) ++ (if ch F.MEM_FIFO_PROT_OUT then [1] else []) ++ (if ch F.MEM_FIFO_PROT_TXTS then [2] else [])
  { d with ram := { d.ram with flush := d.ram.flush ++ f.filter (fun c => !d.ram.flush.contains c) } }

/-- FIFO_FLUSH of a class of FIFO: the items in them are discarded and counted (R382). -/
def fifoFlush (cls : Nat) (d : Dev) : Dev :=
  if !d.ram.flush.contains cls then d
  else
    let mine (s : Nat) : Bool := if cls == 0 then s % 2 == 0 && s ≤ 128 else cls == 1 && s % 2 == 1 && s < 128
    let n := if cls == 2 then d.time.txts.foldl (fun a l => a + l.length) 0
      else (d.fifos.filter (fun p => mine p.1)).foldl (fun a p => a + p.2.length) 0
    let grp := match d.col.group with
      | some g => if mine g.1 then none else some g
      | none => none
    let d := { d with
      fifos := if cls == 2 then d.fifos else d.fifos.map (fun p => if mine p.1 then (p.1, []) else p)
      time := { d.time with txts := if cls == 2 then d.time.txts.map (fun _ => []) else d.time.txts }
      col := { d.col with group := grp }
      ram := { d.ram with flush := d.ram.flush.filter (· != cls) } }
    raise E.MEM_FLUSHED [] (count (R.MEM_COUNT 0) n d)

/-- FREE_LIST_REBUILD: Horef reads the 512 KiB of descriptors on the FW fabric budget, and the pages of lost descriptors
return (R385). -/
def freeListRebuild (d : Dev) : Dev := withPips 0 6 1024 (fun d => { d with ram := { d.ram with leaked := [] } }) d

/-- FLIP_ARM: a write of FLIP_CTRL with ARM; arming an armed mask has no effect (R393). -/
def flipCtrlWrite (v : Word) (d : Dev) : Dev :=
  let d := (d.put F.MEM_FLIP_CTRL_ADDR_MATCH (bits v 30 30)).put F.MEM_FLIP_CTRL_FAMILY (bits v 3 0)
  if bit v 31 then d.put F.MEM_FLIP_CTRL_ARM 1 else d

/-! ### Control-core windows (R377) -/

/-- The fabric address of a control-core address in a world; none where the core faults, or reaches its own local registers. -/
def Dev.coreAddr (secure : Bool) (a : Nat) (d : Dev) : Option Nat :=
  if a < 0x20000000 then some a
  else if a < 0x80000000 || 0xC0000000 ≤ a then none
  else
    let k := (a - 0x80000000) / 0x10000000
    let base := if secure then d.get (F.MEM_SWIN_BASE_BASE k) else d.get (F.MEM_WIN_BASE_BASE k)
    some (base * 0x10000000 + a % 0x10000000)

/-! ### Views -/

/-- SDRAM_PAGE_INFO as it reads. -/
def pageInfo (d : Dev) : Word :=
  let p := d.get F.MEM_SDRAM_PAGE_SEL_PAGE
  if d.sdramBytes ≤ 4096 * p then 0
  else pack32 [(31, 31, b2n (d.ram.written.contains p || (d.ram.handed.contains p && !d.reservoir))), (30, 30, b2n (d.ram.pagePoison.contains p)),
    (29, 29, b2n (d.ram.retired.contains p)), (28, 28, b2n (d.ram.rows.any (fun r => r.1 == Config.rowOf p)))]

/-- REMAP_DATA as it reads. -/
def remapData (d : Dev) : Word :=
  let f := d.get F.MEM_REMAP_SEL_FAMILY
  let e := d.get F.MEM_REMAP_SEL_ENTRY
  let a := if f == 8 then (d.ram.rows[e]?).map (·.1) else if f < 8 then (kget d.ram.remap f [])[e]? else none
  match a with
  | some x => pack32 [(31, 31, 1), (30, 0, x)]
  | none => 0

/-! ### Commands -/

/-- SCRUB_STEP (R388). -/
def execScrubStep (m : Nat) (corr unc : List Nat) (s : State) : Host.Outcome State Fault Refusal := onDev (scrubStep m corr unc) s
/-- BUCKET_LEAK (R387). -/
def execBucketLeak (f : Nat) (s : State) : Host.Outcome State Fault Refusal := onDev (bucketLeak f) s
/-- SWEEP_LATE (R389). -/
def execSweepLate (s : State) : Host.Outcome State Fault Refusal := onDev sweepLate s
/-- ROW_COPY_DONE (R391). -/
def execRowCopyDone (s : State) : Host.Outcome State Fault Refusal := onDev rowCopyDone s
/-- FLIP_ARM (R393). -/
def execFlipArm (val : Word) (s : State) : Host.Outcome State Fault Refusal := onDev (flipCtrlWrite val) s
/-- FIFO_FLUSH (R382). -/
def execFifoFlush (cls : Nat) (s : State) : Host.Outcome State Fault Refusal := onDev (fifoFlush cls) s
/-- FREE_LIST_REBUILD (R385). -/
def execFreeListRebuild (s : State) : Host.Outcome State Fault Refusal := onDev freeListRebuild s

/-- ST_PERSIST (R66, R396): ST is written to its wear-managed record, with one FW pip of the MRAM. -/
def execStPersist (s : State) : Host.Outcome State Fault Refusal :=
  onDev (withPips 2 6 1 (fun d => wearRecord { d with time := { d.time with stMram := d.time.st } })) s

end Sys2Proof.Machine
end

