-- ==== Sys2Proof/Machine/Dma.lean ====
section
/-! DEFINITION. The DMA engine: channels and rings (R353 to R355), descriptors (R356, R357), bursts, swaps and gathers (R358 to
R361), completion (R362), pacing (R363 to R366), errors and commands (R367 to R369). -/

namespace Sys2Proof.Machine

/-! ### Channels -/

def Dev.dmaCh (d : Dev) (c : Nat) : DmaChan := d.dma.ch.getD c {}
def Dev.setDmaCh (d : Dev) (c : Nat) (x : DmaChan) : Dev := { d with dma := { d.dma with ch := d.dma.ch.set c x } }

/-- CH_STATE.STATE: 0 IDLE, 1 RUN, 2 WAIT_REQ, 3 HALTED. -/
def Dev.dmaState (d : Dev) (c : Nat) : Nat := d.get (F.DMA_CH_STATE_STATE c)

/-- DMA_STATUS as it reads. -/
def dmaStatus (d : Dev) : Word :=
  let mask (p : Nat → Bool) : Nat := (List.range 16).foldl (fun a c => if p (d.dmaState c) then a + 2 ^ c else a) 0
  pack32 [(31, 16, mask (· == 3)), (15, 0, mask (fun s => s == 1 || s == 2))]

/-- RING_LOG2 as taken: 1 to 12, others 12. -/
def Dev.ringLog (d : Dev) (c : Nat) : Nat :=
  let l := d.get (F.DMA_CH_RING_HI_RING_LOG2 c)
  if 1 ≤ l && l ≤ 12 then l else 12

/-- Bytes of a burst: 2^BURST_LOG2, 3 to 9, others 9. -/
def Dev.burstLen (d : Dev) (c : Nat) : Nat :=
  let l := d.get (F.DMA_CH_CFG_BURST_LOG2 c)
  if 3 ≤ l && l ≤ 9 then 2 ^ l else 512

/-- Address of the descriptor at HEAD (R354). -/
def Dev.descAddr (d : Dev) (c : Nat) : Nat :=
  d.get (F.DMA_CH_RING_HI_BASE_HI c) * 2 ^ 32 + d.get (F.DMA_CH_RING_LO_BASE c) * 32 + 32 * d.get (F.DMA_CH_STATE_HEAD c)

/-- The channel is a secure master (R474). -/
def Dev.dmaSecure (d : Dev) (c : Nat) : Bool := d.worldBit (19 + c)

/-- The engine runs in every mode but BOOT and TEST (R353). -/
def Dev.dmaRuns (d : Dev) : Bool := d.mode != .boot && d.mode != .test

/-! ### Pacing (R363, R364) -/

/-- SDRAM ct of n bytes: 40 bytes a ct at 3 200 MT/s, scaled with the rate (R394). -/
def Dev.sdramCt (d : Dev) (n : Nat) : Nat :=
  let mt := [3200, 2933, 2666, 2400].getD (d.get F.MEM_SDRAM_INFO_RATE) 3200
  (n * 80 + mt - 1) / mt

/-- Occupancy in ct of a burst of n bytes on a resource: 0 fabric, 1 SDRAM, 2 MRAM (R42). -/
def Dev.burstCt (d : Dev) (r n : Nat) : Nat := if r == 0 then (n + 31) / 32 else if r == 1 then d.sdramCt n else (n + 3) / 4

/-- The resources that an access of n bytes at the given addresses occupies, each with the ct it occupies it for (R42, R358). -/
def Dev.burstNeeds (d : Dev) (as : List Nat) (n : Nat) : List (Nat × Nat) :=
  let rs := 0 :: (as.filterMap (fun a => (d.region a).bind Region.port)).eraseDups
  rs.map (fun r => (r, d.burstCt r n))

/-- Take the ct of several resources at once; where some are lacking they are requested, and nothing is taken (R42). -/
def takeAll (a : Nat) (needs : List (Nat × Nat)) (d : Dev) : Bool × Dev :=
  if needs.all (fun p => p.2 ≤ (d.budAct p.1 a).got) then
    (true, needs.foldl (fun d p => d.setBudAct p.1 a { d.budAct p.1 a with got := (d.budAct p.1 a).got - p.2 }) d)
  else
    (false, needs.foldl (fun d p =>
      let b := d.budAct p.1 a
      d.setBudAct p.1 a { b with want := max b.want (p.2 - b.got) }) d)

/-- The share of a channel's sluice; none on a variant without one (R364, R365). -/
def Dev.sluice (d : Dev) (c : Nat) : Option Nat :=
  if d.is F.PWR_FEATURES_SLUICE then some (let s := d.get (F.DMA_CH_CFG_SHARE c); if s == 0 then 256 else min s 256) else none

/-- Earliest start of the next burst on a resource after one that started at `p.1` and occupied `p.2` ct (R364). -/
def earliest (share : Nat) (p : Nat × Nat) : Nat := p.1 + (p.2 * 256 + share - 1) / share

/-- The channel after which no waiting channel comes before `c` in the round robin (R363). -/
def Dev.dmaTurn (d : Dev) (c : Nat) : Bool :=
  let order := (List.range 16).map (fun i => (d.dma.rr + 1 + i) % 16)
  order.find? (fun x => x == c || ((d.dmaCh x).waiting && (d.dmaState x == 1 || d.dmaState x == 2))) == some c

/-- A channel issues a burst of n bytes at some addresses once its sluice, its turn and its budget allow (R358, R363, R364);
answers whether it was issued. -/
def issue (c : Nat) (as : List Nat) (n : Nat) (d : Dev) : Bool × Dev :=
  let x := d.dmaCh c
  let needs := d.burstNeeds as n
  let now := d.nowCt
  let share := d.sluice c
  let prev := needs.filterMap (fun p => kfind x.last p.1)
  let from_ := match share with
    | some s => prev.foldl (fun m p => max m (earliest s p)) 0
    | none => 0
  if now < from_ then (false, d)
  else if !d.dmaTurn c then (false, d.setDmaCh c { x with waiting := true })
  else
    let (ok, d) := takeAll 4 needs d
    if !ok then (false, d.setDmaCh c { x with waiting := true })
    else
      let ready := prev.foldl (fun m p => max m (p.1 + p.2)) 0
      let d := if !x.waiting && ready < from_ then count (R.DMA_CH_COUNT c 3) (from_ - ready) d else d
      let last := needs.foldl (fun l p => kset l p.1 (now, d.burstCt p.1 n)) x.last
      (true, { d.setDmaCh c { x with waiting := false, last := last } with dma := { (d.setDmaCh c { x with waiting := false, last := last }).dma with rr := c } })

/-! ### Checks (R357, R361) -/

/-- The active DMA_BG budget of a resource that a burst occupies is 0 (R361). -/
def noBudget (needs : List (Nat × Nat)) (d : Dev) : Bool := needs.any (fun p => d.get (F.TRN_BUDGET_PIPS p.1 4) == 0)

/-- Why an access of a channel is not allowed: ERR 4 DECODE, 3 WORLD; none when it is (R361). A write to the vendor area
outside TEST is rejected by its destination: 7 WRITE_ERR (R376). -/
def accessErr (c a : Nat) (write : Bool) (d : Dev) : Option Nat :=
  match d.region a with
  | none => some 4
  | some rg =>
    if rg == .regs || rg == .fifo || (write && !rg.writable) then some 4
    else if !d.dmaSecure c && d.secureAt a write then some 3
    else if write && rg == .mram && a < 0x40100000 then some 7
    else none

/-- The descriptor ends with an ERR at an address (R368); DECODE and WORLD are reported as such too (R372, R477). -/
def endWith (c err addr access : Nat) (d : Dev) : Dev :=
  let d := if err == 4 then report (0x150 + c) 0x05 access (0x10 + c) addr none d
    else if err == 3 then worldViolation access (0x10 + c) addr d else d
  d.setDmaCh c { d.dmaCh c with err := some (err, addr, access), waiting := false }

/-- Word w of a descriptor. -/
def dw (l : List Word) (w : Nat) : Word := l.getD w 0

def descGather (l : List Word) : Bool := bit (dw l 0) 26
def descSwap (l : List Word) : Nat := bits (dw l 0) 30 28
def descSrc (l : List Word) : Nat := bits (dw l 3) 31 24 * 2 ^ 32 + (dw l 1).toNat
def descDst (l : List Word) : Nat := bits (dw l 3) 23 16 * 2 ^ 32 + (dw l 2).toNat
def descIdx (l : List Word) : Nat := bits (dw l 3) 15 8 * 2 ^ 32 + (dw l 5).toNat
def descElem (l : List Word) : Nat := bits (dw l 6) 15 0
def descCount (l : List Word) : Nat := bits (dw l 6) 31 16
/-- Data bytes of a descriptor. -/
def descTotal (l : List Word) : Nat := if descGather l then descCount l * descElem l else bits (dw l 4) 25 0

/-- Swap unit in bytes (R359). -/
def swapBytes (s : Nat) : Nat := if s == 0 then 1 else if s == 1 then 2 else if s == 4 then 8 else 4

/-- Place within its unit at which byte i of a unit arrives (R359). -/
def swapPlace (s i : Nat) : Nat := if s == 1 then i ^^^ 1 else if s == 2 then i ^^^ 3 else if s == 3 then i ^^^ 2 else if s == 4 then i ^^^ 7 else i

/-- The checks of R357, R366 and R456 on a fetched descriptor. -/
def descBad (c : Nat) (l : List Word) (d : Dev) : Bool :=
  let s := descSwap l
  let len := if descGather l then descElem l else bits (dw l 4) 25 0
  let top := 2 ^ 40
  let req := d.get (F.DMA_CH_CFG_REQ_SEL c)
  5 ≤ s || bits (dw l 0) 15 0 != 0 || bits (dw l 3) 7 0 != 0 || bits (dw l 4) 31 26 != 0 ||
    (if descGather l then descCount l == 0 || descElem l == 0 || 67108863 < descCount l * descElem l
      || top < descIdx l + 4 * descCount l
     else len == 0 || top < descSrc l + len) ||
    len % swapBytes s != 0 || top < descDst l + descTotal l || req == 3 || (req == 1 && d.get (F.DMA_CH_CFG_BURST_LOG2 c) < 4 && 3 ≤ d.get (F.DMA_CH_CFG_BURST_LOG2 c))

/-- Little-endian word from bytes. -/
def leWord (bs : List Byte) : Word := toWord (bytesNat (bs.take 4).reverse)

/-- Little-endian 32-bit words from bytes. -/
def leWords : Nat → List Byte → List Word
  | 0, _ => []
  | n + 1, bs => leWord bs :: leWords n (bs.drop 4)

/-- Bytes of a 32-bit word, little-endian. -/
def word32Bytes (w : Word) : List Byte := (List.range 4).map (fun i => BitVec.ofNat 8 (w.toNat / 2 ^ (8 * i)))

/-! ### Fetch (R354, R357) -/

/-- DESCRIPTOR_FETCH: a running channel without a descriptor reads the one at HEAD. A ring on a resource without a budget ends it with
NO_BUDGET (DEDUCED, log entry 88). -/
def descriptorFetch (c : Nat) (corr unc : List Nat) (s : State) : State :=
  let c := c % 16
  let d := s.dev
  let x := d.dmaCh c
  if !d.dmaRuns || d.dmaState c != 1 || x.desc.isSome then s
  else
    let a := d.descAddr c
    let start (l : List Word) (err : Option (Nat × Nat × Nat)) (d : Dev) : Dev :=
      d.setDmaCh c { d.dmaCh c with desc := some l, moved := 0, idx := [], idxFrom := 0, poisonSeen := false, notWritten := false,
                                     err := err, touched := [], abort := false, waiting := false }
    match accessErr c a false d with
    | some e => { s with dev := endWith c e a 1 (start (List.replicate 8 0) none d) }
    | none =>
      if noBudget (d.burstNeeds [a] 32) d then { s with dev := endWith c 5 a 1 (start (List.replicate 8 0) none d) }
      else
      let (ok, d) := issue c [a] 32 d
      if !ok then { s with dev := d }
      else
        let (bad, d) := readCheck a 32 1 (0x10 + c) corr unc d
        let (bs, d) := fabBytes s.mem 32 a d
        let l := leWords 8 bs
        let d := if !bad.isEmpty then endWith c 2 a 1 (start l none d)
          else if !bit (dw l 0) 31 then (d.put (F.DMA_CH_STATE_STATE c) 0).setDmaCh c { d.dmaCh c with abort := false, waiting := false }
          else if descBad c l d then endWith c 1 a 1 (start l none d)
          else if x.abort then endWith c 6 a 0 (start l none d)
          else start l none d
        { s with dev := d }

/-! ### Bursts (R358 to R361, R366, R367) -/

/-- Is the peripheral request of a channel asserted (R366, R456)? What the monitor's queue holds is not given. -/
def requested (c : Nat) (d : Dev) : Bool × Dev :=
  let r := d.get (F.DMA_CH_CFG_REQ_SEL c)
  if !d.is F.PWR_FEATURES_SLUICE || r == 0 then (true, d)
  else if r == 1 then (d.burstLen c / 16 ≤ d.flt.q.length, d)
  else
    let (x, d) := drawFree 1 d
    (x == 1, d)

/-- Bytes up to the next 4 KiB boundary. -/
def toPage (a : Nat) : Nat := 4096 - a % 4096

/-- A resource whose active DMA_BG budget is 0 and that the descriptor has not touched yet (R361). -/
def unbudgeted (c : Nat) (needs : List (Nat × Nat)) (d : Dev) : Bool :=
  needs.any (fun p => !(d.dmaCh c).touched.contains p.1 && d.get (F.TRN_BUDGET_PIPS p.1 4) == 0)

/-- A descriptor touches the resources of a burst (R361). -/
def touch (c : Nat) (needs : List (Nat × Nat)) (d : Dev) : Dev :=
  d.setDmaCh c { d.dmaCh c with touched := (d.dmaCh c).touched ++ needs.map (·.1) }

/-- The index-table burst of a gather: up to 64 offsets (R360). -/
def indexBurst (c e : Nat) (l : List Word) (corr unc : List Nat) (s : State) : State :=
  let d := s.dev
  let a := descIdx l + 4 * e
  let n := min (min (4 * (min 64 (descCount l - e))) (toPage a)) (d.burstLen c)
  match accessErr c a false d with
  | some err => { s with dev := endWith c err a 1 d }
  | none =>
    let needs := d.burstNeeds [a] n
    if unbudgeted c needs d then { s with dev := endWith c 5 a 0 d }
    else
      let (ok, d) := issue c [a] n d
      if !ok then { s with dev := d }
      else
        let d := touch c needs d
        let (bad, d) := readCheck a n 1 (0x10 + c) corr unc d
        let (bs, d) := fabBytes s.mem n a d
        if !bad.isEmpty then { s with dev := endWith c 2 a 1 d }
        else { s with dev := d.setDmaCh c { d.dmaCh c with idx := (leWords (n / 4) bs).map (·.toNat), idxFrom := e } }

/-- Entries at the head of the collector queue as bytes, 16 to an entry, little-endian (R456). -/
def queueBytes (n : Nat) (d : Dev) : List Byte × Dev :=
  let k := (n + 15) / 16
  let es := d.flt.q.take k
  ((es.flatMap (fun e => (List.range 8).map (leByte e.1) ++ word32Bytes e.2 ++ List.replicate 4 0)).take n,
    { d with flt := { d.flt with q := d.flt.q.drop k } })

/-- Destination address of the byte at stream position p (R359): units count from the start of the transfer, or of the
element. -/
def destOf (l : List Word) (p : Nat) : Nat :=
  let base := if descGather l then p / descElem l * descElem l else 0
  let u := swapBytes (descSwap l)
  let q := p - base
  descDst l + base + q / u * u + swapPlace (descSwap l) (q % u)

/-- The bytes of a burst reach their destinations; `bad` marks those that come from unreliable units (R359, R367). A burst
that cuts no swap unit is one write, another one write a byte. -/
def landBurst (c m : Nat) (l : List Word) (bs : List Byte) (bad : List Bool) (s : State) : State :=
  let u := swapBytes (descSwap l)
  let es := bs.zip bad |>.zipIdx |>.map (fun x => (destOf l (m + x.2), x.1.1, x.1.2))
  let q := if descGather l then m % descElem l else m
  if q % u == 0 && bs.length % u == 0 then
    let base := descDst l + m
    let sorted := (List.range bs.length).map (fun i => bs.getD (i / u * u + swapPlace (descSwap l) (i % u)) 0)
    fabWrite base sorted ((es.filter (·.2.2)).map (·.1)) 2 (0x10 + c) s
  else es.foldl (fun s e => fabWrite e.1 [e.2.1] (if e.2.2 then [e.1] else []) 2 (0x10 + c) s) s

/-- The data burst of n bytes from src to dst (R358, R361, R367). -/
def dataBurst (c src dst n : Nat) (l : List Word) (corr unc : List Nat) (s : State) : State :=
  let d := s.dev
  let x := d.dmaCh c
  let fromQueue := d.is F.PWR_FEATURES_SLUICE && d.get (F.DMA_CH_CFG_REQ_SEL c) == 1
  let srcs := if fromQueue then [] else [src]
  match (if fromQueue then none else accessErr c src false d), accessErr c dst true d with
  | some e, _ => { s with dev := endWith c e src 1 d }
  | none, some e => { s with dev := endWith c e dst 2 d }
  | none, none =>
    let needs := d.burstNeeds (srcs ++ [dst]) n
    if unbudgeted c needs d then { s with dev := endWith c 5 (if (d.burstNeeds [dst] n).length == needs.length then dst else src) 0 d }
    else
      let (ok, d) := issue c (srcs ++ [dst]) n d
      if !ok then { s with dev := d }
      else
        let d := touch c needs d
        let (bad, d) := if fromQueue then ([], d) else readCheck src n 1 (0x10 + c) corr unc d
        let nw := !fromQueue && d.neverWritten src
        let (bs, d) := if fromQueue then queueBytes n d else fabBytes s.mem n src d
        if !bad.isEmpty && !bit (dw l 0) 24 then
          let at_ := ((List.range n).map (· + src)).find? (fun a => d.inUnits a bad)
          { s with dev := endWith c 2 (at_.getD src) 1 d }
        else
          let d := d.setDmaCh c { d.dmaCh c with moved := x.moved + n, poisonSeen := x.poisonSeen || !bad.isEmpty, notWritten := x.notWritten || nw }
          let s := landBurst c x.moved l bs ((List.range n).map (fun j => d.inUnits (src + j) bad)) { s with dev := d }
          let d := s.dev
          let (again, d) := requested c d
          { s with dev := if again || descTotal l ≤ x.moved + n then d
              else (count1 (R.DMA_CH_COUNT c 4) d).put (F.DMA_CH_STATE_STATE c) 2 }

/-- DMA_BURST: the next burst of a channel's descriptor. -/
def dmaBurst (c : Nat) (corr unc : List Nat) (s : State) : State :=
  let c := c % 16
  let d := s.dev
  let x := d.dmaCh c
  match x.desc with
  | none => s
  | some l =>
    if !d.dmaRuns || !(d.dmaState c == 1 || d.dmaState c == 2) || x.err.isSome || descTotal l ≤ x.moved then s
    else
      let (req, d) := requested c d
      if !req then { s with dev := d.put (F.DMA_CH_STATE_STATE c) 2 }
      else
        let s := { s with dev := d.put (F.DMA_CH_STATE_STATE c) 1 }
        let dst := descDst l + x.moved
        let left := descTotal l - x.moved
        let cut (src left : Nat) : Nat :=
          let n := min (min left (d.burstLen c)) (min (toPage src) (toPage dst))
          let u := swapBytes (descSwap l)
          if u ≤ n then n - n % u else n
        if !descGather l then
          let src := descSrc l + x.moved
          dataBurst c src dst (cut (if d.get (F.DMA_CH_CFG_REQ_SEL c) == 1 then 0 else src) left) l corr unc s
        else
          let e := x.moved / descElem l
          let w := x.moved % descElem l
          if e < x.idxFrom || x.idxFrom + x.idx.length ≤ e then indexBurst c e l corr unc s
          else
            let o := descSrc l + x.idx.getD (e - x.idxFrom) 0
            if 2 ^ 40 < o + descElem l then { s with dev := endWith c 4 (o % 2 ^ 40) 1 s.dev }
            else dataBurst c (o + w) dst (cut (o + w) (descElem l - w)) l corr unc s

/-! ### Completion (R362, R368) -/

/-- DESCRIPTOR_COMPLETE: the status words are written, DONE is set with IRQ, and HEAD advances, or the channel halts. An error leaves no
status where the ring cannot be written: no access, or no budget (DEDUCED, log entry 88). -/
def descriptorComplete (c : Nat) (s : State) : State :=
  let c := c % 16
  let d := s.dev
  let x := d.dmaCh c
  match x.desc with
  | none => s
  | some l =>
    if !d.dmaRuns || (x.err.isNone && x.moved < descTotal l) then s
    else
      let a := d.descAddr c
      let open_ := (accessErr c a true d).isNone && !(x.err.isSome && noBudget (d.burstNeeds [a] 8) d)
      let (ok, d) := if open_ then issue c [a] 8 d else (true, d)
      if !ok then { s with dev := d }
      else
        let err := (x.err.map (·.1)).getD 0
        let st := pack32 [(31, 28, err), (27, 27, b2n x.poisonSeen), (26, 26, b2n x.notWritten), (25, 0, x.moved)]
        let s := { s with dev := d }
        let s := if open_ then fabWrite a (word32Bytes (setBits (dw l 0) 31 31 0)) [] 2 (0x10 + c)
            (fabWrite (a + 28) (word32Bytes st) [] 2 (0x10 + c) s) else s
        let d := s.dev
        let d := if bit (dw l 0) 25 then d.setReg R.DMA_DONE (setBits (d.reg R.DMA_DONE) c c 1) else d
        let d := (count1 (R.DMA_CH_COUNT c 0) d).put (F.DMA_CH_STATE_LAST_ERR c) err
        let d := d.setDmaCh c { d.dmaCh c with desc := none, err := none, waiting := false, abort := false }
        let d := match x.err with
          | none => (d.put (F.DMA_CH_STATE_HEAD c) ((d.get (F.DMA_CH_STATE_HEAD c) + 1) % 2 ^ d.ringLog c)).put (F.DMA_CH_STATE_STATE c) 1
          | some (_, addr, access) =>
            report (0x150 + c) 0x0C access (0x10 + c) addr none (raise E.DMA_HALT [] (count1 (R.DMA_CH_COUNT c 1) (d.put (F.DMA_CH_STATE_STATE c) 3)))
        { s with dev := d }

/-! ### Channel commands (R355, R369) -/

/-- The status of a CH_CMD. -/
def dmaResult (c st : Nat) (d : Dev) : Dev := d.put (F.DMA_CH_STATE_CMD_RESULT c) st

/-- KICK: an IDLE channel fetches at HEAD; in RUN or WAIT_REQ nothing happens; HALTED answers DENIED. -/
def dmaKick (c : Nat) (d : Dev) : Dev :=
  let st := d.dmaState c
  if st == 0 then dmaResult c 0 ((d.put (F.DMA_CH_STATE_STATE c) 1).setDmaCh c { d.dmaCh c with desc := none, err := none, abort := false })
  else if st == 3 then dmaResult c 3 d
  else dmaResult c 0 d

/-- RESUME: a HALTED channel fetches at HEAD again; DENIED in any other state. -/
def dmaResume (c : Nat) (d : Dev) : Dev :=
  if d.dmaState c == 3 then dmaResult c 0 ((d.put (F.DMA_CH_STATE_STATE c) 1).setDmaCh c { d.dmaCh c with desc := none, err := none, abort := false })
  else dmaResult c 3 d

/-- ABORT: the descriptor in progress ends with ABORTED; no effect in IDLE or HALTED. -/
def dmaAbort (c : Nat) (d : Dev) : Dev :=
  let d := dmaResult c 0 d
  if d.dmaState c == 0 || d.dmaState c == 3 then d
  else
    let x := d.dmaCh c
    match x.desc with
    | none => d.setDmaCh c { x with abort := true }
    | some l => if x.err.isSome || descTotal l ≤ x.moved then d else endWith c 6 (d.descAddr c) 0 d

/-- RESET: an IDLE or HALTED channel becomes IDLE with HEAD 0; BUSY in any other state. -/
def dmaReset (c : Nat) (d : Dev) : Dev :=
  if d.dmaState c == 0 || d.dmaState c == 3 then
    dmaResult c 0 (((d.put (F.DMA_CH_STATE_STATE c) 0).put (F.DMA_CH_STATE_HEAD c) 0).setDmaCh c { d.dmaCh c with desc := none, err := none })
  else dmaResult c 1 d

/-- At a boundary a channel that had a burst ready and no allowance left in the turn counts a STALL (R363). -/
def dmaBoundary (d : Dev) : Dev :=
  (List.range 16).foldl (fun d c =>
    if (d.dmaCh c).waiting && (List.range 3).any (fun r => (d.budAct r 4).stalled) then count1 (R.DMA_CH_COUNT c 2) d else d) d

/-- Every channel becomes IDLE with HEAD 0 and its descriptor is abandoned (R353). -/
def dmaClear (d : Dev) : Dev := { d with dma := {} }

/-! ### Commands -/

/-- DMA_KICK (R355). -/
def execDmaKick (c : Nat) (s : State) : Host.Outcome State Fault Refusal := onDev (dmaKick (c % 16)) s
/-- DMA_RESUME (R369). -/
def execDmaResume (c : Nat) (s : State) : Host.Outcome State Fault Refusal := onDev (dmaResume (c % 16)) s
/-- DMA_ABORT (R369). -/
def execDmaAbort (c : Nat) (s : State) : Host.Outcome State Fault Refusal := onDev (dmaAbort (c % 16)) s
/-- DMA_RESET (R369). -/
def execDmaReset (c : Nat) (s : State) : Host.Outcome State Fault Refusal := onDev (dmaReset (c % 16)) s
/-- DESCRIPTOR_FETCH (R354). -/
def execDescriptorFetch (c : Nat) (corr unc : List Nat) (s : State) : Host.Outcome State Fault Refusal := .next (descriptorFetch c corr unc s)
/-- DMA_BURST (R358). -/
def execDmaBurst (c : Nat) (corr unc : List Nat) (s : State) : Host.Outcome State Fault Refusal := .next (dmaBurst c corr unc s)
/-- DESCRIPTOR_COMPLETE (R362). -/
def execDescriptorComplete (c : Nat) (s : State) : Host.Outcome State Fault Refusal := .next (descriptorComplete c s)

end Sys2Proof.Machine
end

