-- ==== Sys2Proof/Machine/Jobs.lean ====
section
/-! DEFINITION. Decompressor jobs: commands, the reading of a block, its checks and its output (R263 to R266). -/

namespace Sys2Proof.Machine

/-- An address of a LO and HI register pair of the CMP block. -/
def Dev.jobAddr (d : Dev) (lo hi : Nat) : Nat := bits (d.reg hi) 7 0 * 2 ^ 32 + (d.reg lo).toNat / 8 * 8
def Dev.jobIn (d : Dev) : Nat := d.jobAddr R.CMP_JOB_IN_LO R.CMP_JOB_IN_HI
def Dev.jobOut (d : Dev) : Nat := d.jobAddr R.CMP_JOB_OUT_LO R.CMP_JOB_OUT_HI
/-- Input bytes, a multiple of 8. -/
def Dev.jobLen (d : Dev) : Nat := (d.reg R.CMP_JOB_IN_LEN).toNat / 8 * 8
def Dev.jobSpace (d : Dev) : Nat := (d.reg R.CMP_JOB_OUT_SPACE).toNat / 8 * 8
def Dev.jobInDone (d : Dev) : Nat := (d.reg R.CMP_JOB_IN_DONE).toNat
def Dev.jobOutDone (d : Dev) : Nat := (d.reg R.CMP_JOB_OUT_DONE).toNat
/-- JOB_STATUS.STATE: 0 IDLE, 1 RUNNING, 2 STOPPED. -/
def Dev.jobState (d : Dev) : Nat := d.get F.CMP_JOB_STATUS_STATE

/-- Why the decompressor may not make an access: 7 BUS_ERROR; a violation of the world map is reported (R265, R477). -/
def jobAccess (a : Nat) (write : Bool) (d : Dev) : Bool × Dev :=
  match d.region a with
  | none => (false, report 0x160 0x05 (if write then 2 else 1) 0x0B a none d)
  | some rg =>
    if rg == .regs || (write && !rg.writable) then (false, report 0x160 0x05 (if write then 2 else 1) 0x0B a none d)
    else if !d.worldBit 35 && d.secureAt a write then (false, worldViolation (if write then 2 else 1) 0x0B a d)
    else (true, d)

/-- What reading the next block of a job's input gives. -/
inductive BlockRead where
  /-- only IDLE words are left, and the address after them -/
  | end_ (next : Nat)
  /-- the items of a block and the address after it -/
  | block (items : List (List Word64)) (next : Nat)
  /-- a result that stops the job, and the address after the words read -/
  | stop (result next : Nat)
  deriving DecidableEq, Repr

/-- One word of a job's input: a result that stops the job, or the word (R265, Input). -/
def jobWord (mem : List Host.Cell) (a : Nat) (corr unc : List Nat) (d : Dev) : (Option Nat × Word64) × Dev :=
  match jobAccess a false d with
  | (false, d) => ((some 7, 0), d)
  | (true, d) =>
    let (bad, d) := readCheck a 8 1 0x0B corr unc d
    let (bs, d) := fabBytes mem 8 a d
    ((if bad.isEmpty then none else some 5, BitVec.ofNat 64 (bytesNat bs.reverse)), d)

/-- n words of a job's input. -/
def jobWords (mem : List Host.Cell) (corr unc : List Nat) : Nat → Nat → Dev → (Option Nat × List Word64) × Dev
  | 0, _, d => ((none, []), d)
  | n + 1, a, d =>
    match jobWord mem a corr unc d with
    | ((some r, _), d) => ((some r, []), d)
    | ((none, w), d) =>
      let ((r, ws), d) := jobWords mem corr unc n (a + 8) d
      ((r, w :: ws), d)

/-- Read the items of the next block from `a` to its LAST item (R264, R265); `acc` are those already read, latest first. -/
def readBlock (mem : List Host.Cell) (corr unc : List Nat) (stop : Nat) : Nat → Nat → List (List Word64) → Dev → BlockRead × Dev
  | 0, a, _, d => (.stop 4 a, d)
  | f + 1, a, acc, d =>
    if stop ≤ a then (if acc.isEmpty then .end_ a else .stop 4 a, d)
    else
      match jobWord mem a corr unc d with
      | ((some r, _), d) => (.stop r (a + 8), d)
      | ((none, w), d) =>
        let ty := wbits w 63 60
        if ty == 0xF then readBlock mem corr unc stop f (a + 8) acc d
        else if wbits w 59 59 == 1 then (.stop 5 (a + 8), d)
        else if ty != 0xB then (.stop 4 (a + 8), d)
        else
          let n := wbits w 57 54
          if stop < a + 8 + 8 * n then (.stop 4 (a + 8), d)
          else
            match jobWords mem corr unc n (a + 8) d with
            | ((some r, _), d) => (.stop r (a + 8 + 8 * n), d)
            | ((none, ws), d) =>
              if (wbits w 47 47 == 1) != acc.isEmpty then (.stop 4 (a + 8 + 8 * n), d)
              else if wbits w 46 46 == 1 then (.block ((w :: ws) :: acc).reverse (a + 8 + 8 * n), d)
              else readBlock mem corr unc stop f (a + 8 + 8 * n) ((w :: ws) :: acc) d

/-- A job stops with a result, or ends DONE (R266). -/
def jobStop (r : Nat) (d : Dev) : Dev :=
  raise E.CMP_JOB_DONE [] ((d.put F.CMP_JOB_STATUS_RESULT r).put F.CMP_JOB_STATUS_STATE (if r == 0 then 0 else 2))

/-- Bytes of items as the decompressor stores them, each word little-endian (R180, R263). -/
def storedBytes (items : List (List Word64)) : List Byte := items.flatMap (fun w => w.flatMap (fun x => (wordBytes x).reverse))

/-- Write bytes page by page. -/
def writePages : Nat → Nat → List Byte → State → State
  | 0, _, _, s => s
  | f + 1, a, bs, s =>
    if bs.isEmpty then s
    else
      let n := toPage a
      writePages f (a + (bs.take n).length) (bs.drop n) (fabWrite a (bs.take n) [] 2 0x0B s)

/-- ct of the resources that reading and writing a block draws (R264). -/
def jobNeeds (src nin dst nout : Nat) (d : Dev) : List (Nat × Nat) :=
  let get (l : List (Nat × Nat)) (r : Nat) : Nat := ((l.filter (·.1 == r)).map (·.2)).sum
  let l := (if nin == 0 then [] else d.burstNeeds [src] nin) ++ (if nout == 0 then [] else d.burstNeeds [dst] nout)
  ((List.range 3).map (fun r => (r, get l r))).filter (fun p => p.2 != 0)

/-- A result that stops the job once the words up to `next` have been read, when the budget grants the reading (R264). -/
def jobEnds (x src next : Nat) (d0 d : Dev) : Dev :=
  match takeAll 4 (jobNeeds src (next - src) 0 0 d0) d0 with
  | (false, d0) => d0
  | (true, d1) => jobStop x { d with bud := d1.bud }

/-- Address after the failing block: past its LAST item, or at the next FIRST item (R266). -/
def passBlock (mem : List Host.Cell) (stop : Nat) : Nat → Nat → Bool → Dev → Nat
  | 0, a, _, _ => a
  | f + 1, a, begun, d =>
    if stop ≤ a then stop
    else
      let w := BitVec.ofNat 64 (bytesNat (fabBytes mem 8 a d).1.reverse)
      let ty := wbits w 63 60
      if ty == 0xF then passBlock mem stop f (a + 8) begun d
      else if ty == 0xB && begun && wbits w 47 47 == 1 then a
      else
        let next := a + 8 * max 1 (itemLen w)
        if ty == 0xB && wbits w 46 46 == 1 then min stop next else passBlock mem stop f next true d

/-- The failing block is passed over, once the budget grants the reading of it (R264, R266). -/
def jobSkip (s : State) : State :=
  let d := s.dev
  let src := d.jobIn + d.jobInDone
  let a := passBlock s.mem (d.jobIn + d.jobLen) (d.jobLen / 8 + 1) src false d
  match takeAll 4 (jobNeeds src (a - src) 0 0 d) d with
  | (false, d) => { s with dev := d }
  | (true, d) => { s with dev := count1 (R.CMP_COUNT 7) ({ d with tq := { d.tq with skip := false } }.setReg R.CMP_JOB_IN_DONE (toWord (a - d.jobIn))) }

/-- The running job reads, checks and decodes one block (R265, R266). -/
def jobBlock (corr unc : List Nat) (s : State) : State :=
    let d0 := s.dev
    let src := d0.jobIn + d0.jobInDone
    let stop := d0.jobIn + d0.jobLen
    let (r, d) := readBlock s.mem corr unc stop (d0.jobLen / 8 + 1) src [] d0
    match r with
    | .end_ next => { s with dev := jobEnds 0 src next d0 d }
    | .stop x next => { s with dev := jobEnds x src next d0 d }
    | .block items next =>
      let space := d.jobSpace - d.jobOutDone
      let (out, raw, full, fail) := decodeBlock d.jobCap space (blockBytes items)
      let dst := d.jobOut + d.jobOutDone
      let writes := fail == none || fail == some .crcFail
      let bytes := if full || !writes then [] else storedBytes out
      match takeAll 4 (jobNeeds src (next - src) dst bytes.length d0) d0 with
      | (false, d0) => { s with dev := d0 }
      | (true, d1) =>
        let d := { d with bud := d1.bud }
        let bad := !blockFraming items
        if bad || fail == some .format then { s with dev := jobStop 4 d }
        else if fail == some .expansion then { s with dev := jobStop 2 d }
        else if full then { s with dev := jobStop 1 d }
        else
          let pages := (List.range ((dst + bytes.length - 1) / 4096 - dst / 4096 + 1)).map (fun i => max dst ((dst / 4096 + i) * 4096))
          let (ok, d) := pages.foldl (fun (acc : Bool × Dev) a => if acc.1 then jobAccess a true acc.2 else acc) (true, d)
          if !ok then { s with dev := jobStop 7 d }
          else
            let s := writePages (bytes.length + 1) dst bytes { s with dev := d }
            let d := s.dev
            if fail == some .crcFail then { s with dev := jobStop 3 d }
            else
              let d := ((d.setReg R.CMP_JOB_IN_DONE (toWord (next - d.jobIn))).setReg R.CMP_JOB_OUT_DONE (toWord (d.jobOutDone + raw))).setReg
                R.CMP_JOB_BLOCKS (d.reg R.CMP_JOB_BLOCKS + 1)
              { s with dev := if stop ≤ next then jobStop 0 d else d }

/-- JOB_BLOCK_DONE: what a RESUME with SKIP left to pass over is passed over first (R266). -/
def jobBlockDone (corr unc : List Nat) (s : State) : State :=
  if s.dev.jobState != 1 then s
  else
    let s := if s.dev.tq.skip then jobSkip s else s
    if s.dev.tq.skip then s else jobBlock corr unc s

/-! ### Commands (R264, R266) -/

/-- START: its status (R264). -/
def jobStart (d : Dev) : Dev × Nat :=
  if d.jobState != 0 then (d.put F.CMP_JOB_STATUS_CMD_RESULT 1, 1)
  else
    let d := (({ d with tq := { d.tq with skip := false } }.setReg R.CMP_JOB_IN_DONE 0).setReg R.CMP_JOB_OUT_DONE 0).setReg R.CMP_JOB_BLOCKS 0
    (((d.put F.CMP_JOB_STATUS_CMD_RESULT 0).put F.CMP_JOB_STATUS_STATE 1).put F.CMP_JOB_STATUS_RESULT 0, 0)

/-- RESUME: its status (R266). The failing block is passed over by the job as it runs on. -/
def jobResume (skip : Bool) (d : Dev) : Dev × Nat :=
  if d.jobState == 1 then (d.put F.CMP_JOB_STATUS_CMD_RESULT 1, 1)
  else if d.jobState == 0 then (d.put F.CMP_JOB_STATUS_CMD_RESULT 0, 0)
  else
    let d := { d with tq := { d.tq with skip := skip } }
    (((d.setReg R.CMP_JOB_OUT_DONE 0).put F.CMP_JOB_STATUS_CMD_RESULT 0).put F.CMP_JOB_STATUS_STATE 1, 0)

/-- ABORT: a running job stops ABORTED; a stopped one returns to IDLE (R264, JOB_STATUS). -/
def jobAbort (d : Dev) : Dev × Nat :=
  let d := d.put F.CMP_JOB_STATUS_CMD_RESULT 0
  if d.jobState == 1 then (jobStop 6 d, 0)
  else if d.jobState == 2 then ((d.put F.CMP_JOB_STATUS_RESULT 6).put F.CMP_JOB_STATUS_STATE 0, 0)
  else (d, 0)

/-- JOB_CMD: SKIP and OP. -/
def jobCmd (op : Nat) (skip : Bool) (d : Dev) : Dev × Nat :=
  if op == 1 then jobStart d
  else if op == 2 then jobResume skip d
  else if op == 3 then jobAbort d
  else (d, 0)

/-- Does a range touch a secure address (R473)? -/
def Dev.rangeSecure (d : Dev) (a n : Nat) (write : Bool) : Bool :=
  n != 0 && (List.range ((a + n - 1) / 4096 - a / 4096 + 1)).any (fun i => d.secureAt ((a / 4096 + i) * 4096) write)

/-- Does a range touch the SDRAM's place in the address map while no SDRAM works (R7, R371)? -/
def Dev.sdramMissing (d : Dev) (a n : Nat) : Bool :=
  d.sdramBytes == 0 && n != 0 && decide (sdramBase < a + n) && decide (a < sdramBase + 32 * 2 ^ 30)

/-- DECOMPRESS (0x0606): the job registers from w0 to w6, and OP and SKIP of w7; a secure address answers DENIED, and one in
the SDRAM that does not work UNSUPPORTED (R7). Registers are
not touched by a START or RESUME that has no effect. -/
def mDecompress (w : List Word) (d : Dev) : Dev × Nat :=
  let op := bits (wordAt w 7) 1 0
  let acts := (op == 1 && d.jobState == 0) || (op == 2 && d.jobState == 2)
  let src := bits (wordAt w 0) 7 0 * 2 ^ 32 + (wordAt w 1).toNat / 8 * 8
  let dst := bits (wordAt w 3) 7 0 * 2 ^ 32 + (wordAt w 4).toNat / 8 * 8
  if d.rangeSecure src (wordAt w 2).toNat false || d.rangeSecure dst (wordAt w 5).toNat true then (d, 3)
  else if d.sdramMissing src (wordAt w 2).toNat || d.sdramMissing dst (wordAt w 5).toNat then (d, 4)
  else
    let set (k : Nat) (m : Nat) (v : Word) (d : Dev) : Dev := d.setReg k (toWord (v.toNat &&& m))
    let d := if acts then
        set R.CMP_JOB_CAP 0x1FFF (wordAt w 6) (set R.CMP_JOB_OUT_SPACE 0xFFFFFFF8 (wordAt w 5) (set R.CMP_JOB_OUT_LO 0xFFFFFFF8 (wordAt w 4)
          (set R.CMP_JOB_OUT_HI 0xFF (wordAt w 3) (set R.CMP_JOB_IN_LEN 0xFFFFFFF8 (wordAt w 2) (set R.CMP_JOB_IN_LO 0xFFFFFFF8 (wordAt w 1)
            (set R.CMP_JOB_IN_HI 0xFF (wordAt w 0) d))))))
      else d
    jobCmd op (bit (wordAt w 7) 2) d

/-- JOB_BLOCK_DONE (R265). -/
def execJobBlockDone (corr unc : List Nat) (s : State) : Host.Outcome State Fault Refusal := .next (jobBlockDone corr unc s)

end Sys2Proof.Machine
end

