-- ==== Sys2Proof/Machine/Guard.lean ====
section
/-! DEFINITION. The bias guard: states and outputs, safety functions, trips, voting, output tests, the Guard Parameter Block,
the guard log and the guard messages (R422 to R449). -/

namespace Sys2Proof.Machine

def Dev.setGrd (d : Dev) (g : Guard) : Dev := { d with grd := g }

/-! ### The Guard Parameter Block (R438, R439) -/

/-- A field of a GPB. -/
def gpbField (g : List Word) (w hi lo : Nat) : Nat := bits (wordAt g w) hi lo
/-- I_LIM of group k in 125 nA. -/
def gpbILim (g : List Word) (k : Nat) : Nat := gpbField g (2 + k) 18 0
def gpbSlcEn (g : List Word) (k : Nat) : Bool := bit (wordAt g (2 + k)) 31
def gpbTLim (g : List Word) : Nat := gpbField g 10 31 16
def gpbRampMax (g : List Word) : Nat := gpbField g 10 15 0
def gpbBtrimMin (g : List Word) : Nat := gpbField g 11 27 16
def gpbBtrimMax (g : List Word) : Nat := gpbField g 11 11 0
def gpbSafeLevel (g : List Word) : Nat := gpbField g 12 11 0
def gpbHvMax (g : List Word) (i : Nat) : Int := (wordAt g (13 + 2 * i)).toInt
def gpbHvMin (g : List Word) (i : Nat) : Int := (wordAt g (14 + 2 * i)).toInt
def gpbHvEn (g : List Word) (i : Nat) : Bool := bit (wordAt g 19) i
def gpbInEn (g : List Word) : Bool := bit (wordAt g 19) 2
def gpbChainEn (g : List Word) : Bool := bit (wordAt g 19) 3
def gpbChainTrip (g : List Word) : Bool := bit (wordAt g 19) 4
def gpbReconfirm (g : List Word) : Bool := bit (wordAt g 19) 5

/-- Every range and reserved bit of R438. -/
def gpbOk (g : List Word) : Bool :=
  g.length == 32 && gpbField g 0 31 16 == 1 &&
  (List.range 8).all (fun k => gpbField g (2 + k) 30 19 == 0 && 1 ≤ gpbILim g k) &&
  1 ≤ gpbTLim g && 1 ≤ gpbRampMax g && gpbRampMax g ≤ 40000 &&
  gpbField g 11 31 28 == 0 && gpbField g 11 15 12 == 0 && gpbBtrimMin g ≤ gpbBtrimMax g &&
  gpbField g 12 31 12 == 0 && gpbBtrimMin g ≤ gpbSafeLevel g && gpbSafeLevel g ≤ gpbBtrimMax g &&
  gpbHvMin g 0 < gpbHvMax g 0 && gpbHvMin g 1 < gpbHvMax g 1 &&
  1 ≤ gpbField g 17 31 16 && 10 ≤ gpbField g 17 15 0 &&
  (gpbField g 18 31 16 == 0 || (10 ≤ gpbField g 18 31 16 && gpbField g 18 31 16 ≤ 1000)) &&
  (gpbField g 18 15 0 == 0 || (40 ≤ gpbField g 18 15 0 && gpbField g 18 15 0 ≤ 300)) &&
  gpbField g 19 31 6 == 0 && (g.drop 20).all (fun w => w == 0)

/-- The check value: CRC-32C over the 128 bytes, each word most significant byte first (R439). -/
def gpbCheck (g : List Word) : Word :=
  toWord (crc32c (g.flatMap (fun w => [BitVec.ofNat 8 (bits w 31 24), BitVec.ofNat 8 (bits w 23 16), BitVec.ofNat 8 (bits w 15 8), BitVec.ofNat 8 (bits w 7 0)])))

/-- The check value of a block that may be absent; 0 when there is none. -/
def gpbCheckOf (g : Option (List Word)) : Word :=
  match g with
  | some g => gpbCheck g
  | none => 0

/-- I of R76: turns between steps of OUT under RAMP_MAX. -/
def rampTurns (rampMax : Nat) : Nat := max 1 ((78125 + 2 * rampMax - 1) / (2 * rampMax))

/-! ### States, outputs and the log (R423, R424, R445) -/

/-- Lanes that vote (R433). -/
def Dev.guardVotes (d : Dev) : Nat := ones 3 (d.get F.GRD_STATUS_VOTING)

/-- Modes that permit bias enables (R334). -/
def biasPermitted (m : Mode) : Bool := !(m == .boot || m == .safe || m == .test)

/-- No row of R423 above ENABLED applies, apart from the entry at a boundary. -/
def Dev.guardClear (d : Dev) : Bool :=
  2 ≤ d.guardVotes && d.reg R.GRD_TRIP_LATCHED == 0 && d.grd.gpb.isSome && d.grd.pending.isNone && biasPermitted d.mode &&
    d.reg R.GRD_TRIP_ACTIVE == 0

/-- GRD_STATUS.STATE (R423). -/
def Dev.guardState (d : Dev) : Nat :=
  if d.guardVotes < 2 then 4
  else if d.reg R.GRD_TRIP_LATCHED != 0 then 3
  else if d.grd.gpb.isNone || d.grd.pending.isSome then 0
  else if d.guardClear && d.grd.entered then 2 else 1

/-- Is GUARD_OUT_A, or with `b` GUARD_OUT_B, driven high (R424, R434)? -/
def Dev.guardOut (d : Dev) (b : Bool) : Bool :=
  d.guardState == 2 && (match d.grd.test with
    | some t => !(t.b == b && !t.returned)
    | none => true)

/-- The feedback pins as read. -/
def Dev.guardFb (d : Dev) (b : Bool) : Bool := if b then d.is F.GRD_STATUS_FB_B else d.is F.GRD_STATUS_FB_A

/-- The wave on GUARD_CHAIN_OUT is being sent (R430). -/
def Dev.chainOut (d : Dev) : Bool := d.guardState ≤ 2 && d.mode != .boot && d.mode != .test

/-- GRD_STATUS as it reads. -/
def grdStatus (d : Dev) : Word :=
  let test (b : Bool) : Bool := match d.grd.test with
    | some t => t.b == b
    | none => false
  pack32 [(31, 29, d.guardState), (28, 26, d.get F.GRD_STATUS_VOTING), (25, 25, b2n (d.guardOut false)), (24, 24, b2n (d.guardOut true)),
    (23, 23, b2n (d.guardFb false)), (22, 22, b2n (d.guardFb true)), (21, 21, d.get F.GRD_STATUS_IN_A), (20, 20, d.get F.GRD_STATUS_IN_B),
    (19, 19, d.get F.GRD_STATUS_CHAIN_IN_OK), (18, 18, b2n d.chainOut), (17, 17, b2n d.grd.pending.isSome),
    (16, 16, b2n d.grd.gpb.isSome), (15, 15, b2n (test false)), (14, 14, b2n (test true))]

/-- LANE_STATUS[l] as it reads: a voting lane permits in ENABLED (R424). -/
def laneStatus (l : Nat) (d : Dev) : Word :=
  let v := d.is (F.GRD_LANE_STATUS_VOTING l)
  pack32 [(31, 31, b2n v), (30, 30, b2n (v && d.guardState == 2)), (29, 28, d.get (F.GRD_LANE_STATUS_MISMATCH l))]

/-- Is a log entry of this code persisted (R445)? -/
def logPersists (code : Nat) : Bool := [2, 8, 4, 5, 6].contains code

/-- An entry is added to the guard log (R445). -/
def guardLog (code detail : Nat) (check : Word) (d : Dev) : Dev :=
  let e := [pack32 [(31, 24, code), (23, 0, detail)], toWord d.time.st,
    pack32 [(31, 31, d.get F.TIME_STATUS_ST_VALID), (15, 0, d.time.st / 2 ^ 32)], check]
  let d := d.setGrd { d.grd with log := (e :: d.grd.log).take 64 }
  if logPersists code then wearRecord d else d

/-- A test ends voided (R435). -/
def testVoided (d : Dev) : Dev := raise E.GRD_TEST_VOID [] (count1 (R.GRD_COUNT 2) (d.setGrd { d.grd with test := none }))

/-- What leaving ENABLED does, and what the feedback shows once the outputs have changed (R423, R435, R436). -/
def guardSettle (d : Dev) : Dev :=
  let d :=
    if !d.grd.entered || d.guardClear then d
    else
      let d := d.setGrd { d.grd with entered := false, settled := false }
      match d.grd.test with
      | some t => if t.returned then testVoided d else d.setGrd { d.grd with test := some { t with void := true } }
      | none => d
  if d.is F.GRD_TRIP_ACTIVE_FEEDBACK && d.guardFb false == d.guardOut false && d.guardFb true == d.guardOut true then
    d.put F.GRD_TRIP_ACTIVE_FEEDBACK 0
  else d

/-- A bit of TRIP_ACTIVE. -/
def setActive (b : Nat) (v : Bool) (d : Dev) : Dev := d.setReg R.GRD_TRIP_ACTIVE (setBits (d.reg R.GRD_TRIP_ACTIVE) b b (b2n v))

/-- A trip cause arises: bit b of TRIP_LATCHED (R432). A cause that is latched already is no new trip. -/
def guardLatch (b : Nat) (d : Dev) : Dev :=
  if bit (d.reg R.GRD_TRIP_LATCHED) b then d
  else
    let d := d.setReg R.GRD_TRIP_LATCHED (setBits (d.reg R.GRD_TRIP_LATCHED) b b 1)
    let d := raise E.GRD_TRIP [] (count1 (R.GRD_COUNT 0) d)
    let d := guardLog 4 (bits (d.reg R.GRD_TRIP_LATCHED) 31 12 * 16) (gpbCheckOf d.grd.gpb) d
    requestSafe 2 d

/-- A condition holds or does not; where it holds it trips (R432). -/
def guardCond (b : Nat) (holds : Bool) (d : Dev) : Dev :=
  let d := setActive b holds d
  guardSettle (if holds then guardLatch b d else d)

/-! ### Safety functions (R425 to R430) -/

/-- The parameters in force, if any. -/
def withGpb (f : List Word → Dev → Dev) (d : Dev) : Dev :=
  match d.grd.gpb with
  | some g => f g d
  | none => d

/-- One snapshot for SLC of group k (R425). -/
def slcStep (g : List Word) (k : Nat) (d : Dev) : Dev :=
  let above := gpbSlcEn g k && gpbILim g k < (d.reg (R.AFE_GROUP_IMON k)).toNat
  let n := if above then min (d.grd.slc.getD k 0 + 1) 65535 else 0
  let d := d.setGrd { d.grd with slc := d.grd.slc.set k n }
  guardCond (24 + k) (above && gpbTLim g ≤ n) d

/-- Two bias-raising moves n snapshots apart follow each other in less than 0.9 × 1 000 / RAMP_MAX ms (R427). -/
def raiseTooSoon (rampMax n : Nat) : Bool := n * rampMax * 256 < 9000000

/-- SLR of channel n in a snapshot with OUT = out: is it violated, and the new account of moves (R427). -/
def slrStep (rampMax : Option Nat) (out n : Nat) (d : Dev) : Bool × Dev :=
  let g := d.grd
  let p := g.prevOut.getD n 0xFFF
  let since := (kfind g.sinceRaise n).map (· + 1)
  if out < p then
    let soon := match rampMax, since with
      | some r, some t => raiseTooSoon r t
      | _, _ => false
    (1 < p - out || soon, d.setGrd { g with prevOut := g.prevOut.set n out, sinceRaise := kset g.sinceRaise n 0 })
  else
    (false, d.setGrd { g with
      prevOut := g.prevOut.set n out
      sinceRaise := match since with
        | some t => kset g.sinceRaise n t
        | none => g.sinceRaise })

/-- The snapshot at ct 0 of every turn (R422, R425 to R428). -/
def guardSnapshot (d : Dev) : Dev :=
  let d := setActive 12 false d
  let d := withGpb (fun g d => (List.range 8).foldl (fun d k => slcStep g k d) d) d
  let outs := (List.range 64).map (fun n => d.get (F.AFE_BTRIM_OUT_OUT n))
  let d := withGpb (fun g d => guardCond 23 (outs.any (fun o => o < gpbBtrimMin g)) d) d
  let rm := d.grd.gpb.map gpbRampMax
  let (bad, d) := (List.range 64).foldl (fun (a : Bool × Dev) n =>
    let (b, d) := slrStep rm (outs.getD n 0xFFF) n a.2
    (a.1 || b, d)) (false, d)
  guardSettle (guardCond 20 bad d)

/-- A result of MON_IN_i reaches the lanes (R401, R426, R428). -/
def guardHv (i : Nat) (value : Int) (usable : Bool) (d : Dev) : Dev :=
  if !usable then d
  else
    let g := d.grd
    let d := d.setGrd { g with hvStale := g.hvStale.set i false }
    let d := if d.grd.hvStale.any id then d else setActive 19 false d
    withGpb (fun p d => guardCond (22 - i)
      (gpbHvEn p i && (decide (gpbHvMax p i < value) || (d.grd.settled && d.guardState == 2 && decide (value < gpbHvMin p i)))) d) d

/-- No usable result of MON_IN_i for HV_AGE (R428). -/
def guardHvStale (i : Nat) (d : Dev) : Dev :=
  withGpb (fun p d => if i < 2 && gpbHvEn p i then guardCond 19 true (d.setGrd { d.grd with hvStale := d.grd.hvStale.set i true }) else d) d

/-- A voting lane receives no snapshot for 1 ms (R428). -/
def guardDataLoss (l : Nat) (d : Dev) : Dev := if l < 3 && d.is (F.GRD_LANE_STATUS_VOTING l) then guardCond 12 true d else d

/-- The demand inputs are judged (R429). -/
def guardDemand (d : Dev) : Dev :=
  withGpb (fun g d =>
    let a := d.is F.GRD_STATUS_IN_A
    let b := d.is F.GRD_STATUS_IN_B
    if !gpbInEn g then guardSettle (setActive 17 false (setActive 18 false d))
    else
      let d := if d.is F.GRD_TRIP_ACTIVE_EQUIV then
          (if !a && !b then d.setGrd { d.grd with equivLow := true }
          else if a && b && d.grd.equivLow then setActive 17 false d else d)
        else d
      guardCond 18 (!a || !b) d) d

/-- GUARD_IN_A or GUARD_IN_B changes level (R429). -/
def guardInChange (a b : Bool) (d : Dev) : Dev := guardDemand ((d.put F.GRD_STATUS_IN_A (b2n a)).put F.GRD_STATUS_IN_B (b2n b))

/-- The inputs have differed for 20 ms (R429). -/
def guardEquiv (d : Dev) : Dev :=
  withGpb (fun g d =>
    if gpbInEn g && d.is F.GRD_STATUS_IN_A != d.is F.GRD_STATUS_IN_B && !d.is F.GRD_TRIP_ACTIVE_EQUIV then
      guardCond 17 true (count1 (R.GRD_COUNT 5) (d.setGrd { d.grd with equivLow := false }))
    else d) d

/-- Chain loss (R430). -/
def chainLoss (d : Dev) : Dev :=
  withGpb (fun g d =>
    if !gpbChainEn g then d
    else
      let d := d.put F.GRD_STATUS_CHAIN_IN_OK 0
      let d := if d.grd.chainLost then d
        else raise E.GRD_CHAIN_LOSS [] (count1 (R.GRD_COUNT 4) (d.setGrd { d.grd with chainLost := true }))
      if gpbChainTrip g then guardCond 16 true d else d) d

/-- An edge on GUARD_CHAIN_IN, `ns` nanoseconds after the edge before it (R430). -/
def chainEdge (ns : Nat) (d : Dev) : Dev :=
  withGpb (fun g d =>
    if !gpbChainEn g then d
    else if 30000 ≤ ns && ns ≤ 120000 then
      guardSettle (setActive 16 false ((d.setGrd { d.grd with chainLost := false }).put F.GRD_STATUS_CHAIN_IN_OK 1))
    else chainLoss d) d

/-! ### Voting (R433) -/

/-- Lane l excludes itself (R433). -/
def excludeLane (l : Nat) (d : Dev) : Dev :=
  let d := d.setReg R.GRD_STATUS (setBits (d.reg R.GRD_STATUS) (26 + l) (26 + l) 0)
  let d := raise E.GRD_LANE_EXCLUDED [] (d.put (F.GRD_LANE_STATUS_VOTING l) 0)
  guardLog 6 l (gpbCheckOf d.grd.gpb) (report (0x190 + l) 0x13 0 0 0 none d)

/-- One lane's comparison with the vote, three lanes voting. -/
def compareLane (voted : Word) (words : List Word) (l : Nat) (d : Dev) : Dev :=
  if wordAt words l == voted then d.put (F.GRD_LANE_STATUS_MISMATCH l) 0
  else
    let n := min (d.get (F.GRD_LANE_STATUS_MISMATCH l) + 1) 2
    let d := count1 (R.GRD_COUNT 7) (d.put (F.GRD_LANE_STATUS_MISMATCH l) n)
    if n == 2 then excludeLane l d else d

/-- Every 1 ms the lanes compare their state words, given in lane order, with the vote (R433). -/
def guardVote (words : List Word) (d : Dev) : Dev :=
  let w := wordAt words
  let d :=
    if d.guardVotes == 3 then
      let voted := (w 0 &&& w 1) ||| (w 0 &&& w 2) ||| (w 1 &&& w 2)
      let d := (List.range 3).foldl (fun d l => compareLane voted words l d) d
      if d.guardVotes < 2 then requestSafe 1 d else d
    else if d.guardVotes == 2 then
      let vs := ((List.range 3).filter (fun l => d.is (F.GRD_LANE_STATUS_VOTING l))).map w
      if vs.all (fun v => v == vs.headD 0) then d else count1 (R.GRD_COUNT 7) d
    else d
  guardSettle d

/-! ### Output tests and feedback (R434 to R436) -/

/-- A test of an output starts (R434). -/
def testStart (b : Bool) (d : Dev) : Dev :=
  if d.guardState == 2 && d.grd.test.isNone then d.setGrd { d.grd with test := some { b := b } } else d

/-- A test fails (R434). -/
def testFail (b : Bool) (d : Dev) : Dev :=
  let d := raise E.GRD_TEST_FAIL [] (count1 (R.GRD_COUNT 3) (d.setGrd { d.grd with test := none }))
  let k := if b then 14 else 15
  let d := guardLog 7 0 (gpbCheckOf d.grd.gpb) d
  setActive k false (guardCond k true d)

/-- The feedback check of a test: low after the output went low, high after its return (R434). -/
def testCheck (d : Dev) : Dev :=
  match d.grd.test with
  | none => d
  | some t =>
    if t.void then d
    else if !t.returned then
      (if d.guardFb t.b then testFail t.b d else d.setGrd { d.grd with test := some { t with lowOk := true } })
    else if d.guardFb t.b then count1 (R.GRD_COUNT 1) (d.setGrd { d.grd with test := none })
    else testFail t.b d

/-- T_OFF ends (R434, R435). -/
def testEnd (d : Dev) : Dev :=
  match d.grd.test with
  | none => d
  | some t =>
    if t.void then testVoided d
    else if t.lowOk then d.setGrd { d.grd with test := some { t with returned := true } } else d

/-- GUARD_FB_A or GUARD_FB_B changes level (R436). -/
def feedbackChange (a b : Bool) (d : Dev) : Dev :=
  guardSettle ((d.put F.GRD_STATUS_FB_A (b2n a)).put F.GRD_STATUS_FB_B (b2n b))

/-- A mismatch of a feedback outside tests has lasted more than 50 µs (R436). -/
def feedbackMismatch (b : Bool) (d : Dev) : Dev :=
  let inTest := match d.grd.test with
    | some t => t.b == b
    | none => false
  if inTest || d.guardFb b == d.guardOut b then d else guardCond 13 true d

/-! ### Guard messages and adoption (R441 to R448) -/

/-- A load of a GPB (R441, R446). -/
def guardLoad (g : List Word) (d : Dev) : Dev × Nat × List Word :=
  let target := gpbField g 0 15 0
  if !gpbOk g || (target != 0xFFFF && target != d.chipId) then (d, 5, [])
  else if d.grd.gpb == some g then (d, 0, [gpbCheck g, 1])
  else
    let d := d.setGrd { d.grd with pending := some g, adopt := false }
    (guardSettle (guardLog 1 0 (gpbCheck g) d), 0, [gpbCheck g, 0])

/-- A confirmation (R442, R447). -/
def guardConfirm (check serial : Word) (d : Dev) : Dev × Nat × List Word :=
  match d.grd.pending with
  | none => (d, 5, [])
  | some g =>
    if serial != wordAt g 1 then (d, 5, [])
    else if check != gpbCheck g then
      (guardLog 3 0 (gpbCheck g) (raise E.GRD_CONFIRM_FAIL [] (count1 (R.GRD_COUNT 6) d)), 9, [])
    else
      let t := d.nextOpens
      (d.setGrd { d.grd with adopt := true }, 0, [toWord (t / 2 ^ 32), toWord t])

/-- Clearing of the latched causes (R432, R448). -/
def guardClearMsg (d : Dev) : Dev × Nat × List Word :=
  if d.reg R.GRD_TRIP_ACTIVE != 0 || d.guardVotes < 2 then (d, 3, [])
  else
    match d.grd.gpb with
    | none => (d, 7, [])
    | some g =>
      let d := guardLog 5 0 (gpbCheck g) (d.setReg R.GRD_TRIP_LATCHED 0)
      (d, 0, [grdStatus d])

/-- A write of GCMD with OP = op (GCMD, GCMD_STATUS). -/
def guardCmd (op : Nat) (d : Dev) : Dev :=
  let (d, st) :=
    if op == 1 then (let (d, s, _) := guardLoad ((List.range 32).map (fun i => d.reg (R.GRD_GPB_PEND i))) d; (d, s))
    else if op == 2 then (let (d, s, _) := guardConfirm (d.reg R.GRD_GCMD_ARG) (d.reg R.GRD_GCMD_SERIAL) d; (d, s))
    else if op == 3 then (let (d, s, _) := guardClearMsg d; (d, s))
    else (d, d.get F.GRD_GCMD_STATUS_RESULT)
  d.put F.GRD_GCMD_STATUS_RESULT st

/-- A GPB becomes the adopted one, with its entry in the guard log (R442, R443, R445). -/
def adoptGpb (code : Nat) (g : List Word) (d : Dev) : Dev :=
  let d := d.setGrd { d.grd with gpb := some g, restore := false, slc := List.replicate 8 0, chainLost := false, hvStale := [false, false] }
  guardLog code 0 (gpbCheck g) (setActive 19 false (setActive 16 false d))

/-- At a boundary the confirmed GPB is adopted, and written to MRAM once the FW budget is granted (R442). -/
def guardAdopt (d : Dev) : Dev :=
  let d := if d.grd.storeDue then
      withPips 2 6 8 (fun d => d.setGrd { d.grd with stored := d.grd.gpb, storeDue := false }) d
    else d
  match d.grd.pending with
  | none => d
  | some g =>
    if !d.grd.adopt then d
    else guardDemand (raise E.GRD_ADOPTED [] (adoptGpb 2 g (d.setGrd { d.grd with pending := none, adopt := false, storeDue := true })))

/-- At the first boundary of STANDBY after a reset Horef adopts the stored GPB (R443); ADOPTED shows it, as it shows every adoption
(DEDUCED, log entry 148). -/
def guardReadopt (d : Dev) : Dev :=
  if d.grd.restore && d.mode == .standby then
    (match d.grd.stored with
     | some g => guardDemand (raise E.GRD_ADOPTED [] (adoptGpb 8 g d))
     | none => d)
  else d

/-- After the snapshot, the guard enters ENABLED where nothing stands against it (R423). -/
def guardEnter (d : Dev) : Dev :=
  if d.grd.entered || !d.guardClear then d
  else raise E.GRD_OUTPUTS_ON [] (d.setGrd { d.grd with entered := true, settled := false })

/-- After a reset: with RECONFIRM the stored block waits for a new confirmation, without it for the first boundary of STANDBY
(R443). -/
def guardRestore (d : Dev) : Dev :=
  match d.grd.stored with
  | none => d
  | some g => d.setGrd (if gpbReconfirm g then { d.grd with pending := some g } else { d.grd with restore := true })

/-! ### Commands -/

/-- GUARD_DATA_LOSS (R428). -/
def execGuardDataLoss (l : Nat) (s : State) : Host.Outcome State Fault Refusal := onDev (guardDataLoss l) s
/-- GUARD_HV_STALE (R428). -/
def execGuardHvStale (i : Nat) (s : State) : Host.Outcome State Fault Refusal := onDev (guardHvStale i) s
/-- HV_SETTLE_END (R426). -/
def execHvSettleEnd (s : State) : Host.Outcome State Fault Refusal :=
  onDev (fun d => d.setGrd { d.grd with settled := d.guardState == 2 }) s
/-- GUARD_IN_CHANGE (R429). -/
def execGuardInChange (a b : Bool) (s : State) : Host.Outcome State Fault Refusal := onDev (guardInChange a b) s
/-- GUARD_EQUIV_TIMEOUT (R429). -/
def execGuardEquivTimeout (s : State) : Host.Outcome State Fault Refusal := onDev guardEquiv s
/-- CHAIN_EDGE (R430). -/
def execChainEdge (interval : Nat) (s : State) : Host.Outcome State Fault Refusal := onDev (chainEdge interval) s
/-- CHAIN_LOSS (R430). -/
def execChainLoss (s : State) : Host.Outcome State Fault Refusal := onDev chainLoss s
/-- GUARD_VOTE (R433). -/
def execGuardVote (words : List Word) (s : State) : Host.Outcome State Fault Refusal := onDev (guardVote words) s
/-- OUTPUT_TEST_START (R434). -/
def execOutputTestStart (b : Bool) (s : State) : Host.Outcome State Fault Refusal := onDev (testStart b) s
/-- TEST_FEEDBACK_CHECK (R434). -/
def execTestFeedbackCheck (s : State) : Host.Outcome State Fault Refusal := onDev testCheck s
/-- OUTPUT_TEST_END (R434, R435). -/
def execOutputTestEnd (s : State) : Host.Outcome State Fault Refusal := onDev testEnd s
/-- FEEDBACK_CHANGE (R436). -/
def execFeedbackChange (a b : Bool) (s : State) : Host.Outcome State Fault Refusal := onDev (feedbackChange a b) s
/-- FEEDBACK_MISMATCH (R436). -/
def execFeedbackMismatch (b : Bool) (s : State) : Host.Outcome State Fault Refusal := onDev (feedbackMismatch b) s

end Sys2Proof.Machine
end

