-- ==== Sys2Proof/Machine/Monitor.lean ====
section
/-! DEFINITION. The monitor converter: sequencer, injections, resistance thermometers, system calibration, and the bias
stabilisation loop (R398 to R421). -/

namespace Sys2Proof.Machine

def Dev.setMon (d : Dev) (m : Monitor) : Dev := { d with mon := m }

/-! ### Results (R398, R400, R401, R407, R408, R412) -/

/-- The largest code (R398). -/
def monMax : Int := 2 ^ 23 - 1

/-- I_EXC in nA (R407, R420). -/
def excNanoAmp : Nat := 247500 + Config.excCurrent % 5001

/-- A 32-bit VALUE as a word. -/
def valueWord (v : Int) : Word := toWord (ofSigned 32 v)

/-- Largest and smallest 32-bit signed values. -/
def maxI32 : Int := 2 ^ 31 - 1
def minI32 : Int := -(2 ^ 31)

/-- Numerator of the corrected µV of a code (or a difference of codes, with offset 0) at gain code g; the denominator is
2^(45 + g) (R412). -/
def microVoltNum (code : Int) (gain : Nat) : Int := code * gain * 2500000

/-- The rational value of a finite binary32 word as an integer in units of 2^-149; none for an infinity or a NaN. -/
def f32Int (w : Word) : Option Int :=
  let e := bits w 30 23
  let m := bits w 22 0
  let v : Nat := if e == 0 then m else (2 ^ 23 + m) * 2 ^ (e - 1)
  if e == 255 then none else some (if bit w 31 then -(v : Int) else v)

/-- Callendar–Van Dusen times q · 2^64, for the coefficients a/q, b/q, c/q at a temperature of t/2^16 °C (R408). -/
def cvdScaled (q a b c t : Int) : Int :=
  q * 2 ^ 64 + a * t * 2 ^ 48 + b * t * t * 2 ^ 32 + (if t < 0 then c * (t - 100 * 2 ^ 16) * t * t * t else 0)

/-- The largest t from lo to hi, below lo + 2^n, whose Callendar–Van Dusen value is at most x = xn/xd, found bit by bit. -/
def cvdSolve (q a b c xn xd hi : Int) : Nat → Int → Int
  | 0, lo => lo
  | n + 1, lo => cvdSolve q a b c xn xd hi n
    (if lo + 2 ^ n ≤ hi && cvdScaled q a b c (lo + 2 ^ n) * xd ≤ xn * q * 2 ^ 64 then lo + 2 ^ n else lo)

/-- A temperature that lies within 0.001 °C of t/2^16 °C (R408), saturating. -/
def nearTemp (t : Int) (d : Dev) : Int × Dev :=
  let (x, d) := freeBetween (t - 65) (t + 66) d
  (clampInt minI32 maxI32 x, d)

/-- A 32-bit value that the spec does not give. -/
def freeValue32 (d : Dev) : Int × Dev :=
  let (x, d) := drawFree (2 ^ 32 - 1) d
  (signedOf 32 x, d)

/-- The equation of CVD_USER rises from −200 °C to 850 °C, so that it has at most one solution there. -/
def cvdRises (a b c : Int) : Bool :=
  let neg := if 0 < c then c * 44000000 else 0
  0 < a && 0 < a + 1700 * b && neg < a && neg < a - 400 * b

/-- T of x = xn/xd by LIN for sensor port s, in 2^-16 °C (R408). -/
def rtdTemp (s : Nat) (xn xd : Int) (d : Dev) : Int × Dev :=
  let lin := d.get (F.MON_SP_CFG_LIN s)
  let q : Int := 10 ^ 15
  let user (k : Nat) : Option Int := f32Int (d.reg (R.MON_SP_COEF s k))
  if lin == 0 then
    (if cvdScaled q 3908300000000 (-577500000) (-4183) (3383 * 2 ^ 16) * xd ≤ xn * q * 2 ^ 64 then freeValue32 d
    else nearTemp (cvdSolve q 3908300000000 (-577500000) (-4183) xn xd (3383 * 2 ^ 16) 32 minI32) d)
  else if lin == 1 then
    match user 0, user 1, user 2 with
    | some a, some b, some c =>
      let q : Int := 2 ^ 149
      let lo : Int := -200 * 2 ^ 16
      let hi : Int := 850 * 2 ^ 16
      if cvdRises a b c && cvdScaled q a b c lo * xd ≤ xn * q * 2 ^ 64 && xn * q * 2 ^ 64 < cvdScaled q a b c hi * xd then
        nearTemp (cvdSolve q a b c xn xd hi 27 lo) d
      else freeValue32 d
    | _, _, _ => freeValue32 d
  else
    let ps := (List.range 6).map user
    if ps.any (·.isNone) then freeValue32 d
    else
      let terms := (List.range 6).map (fun k => (ps.getD k none).getD 0 * xn ^ k * xd ^ (5 - k))
      let t := terms.foldl (· + ·) 0
      let abs : Nat := terms.foldl (fun a x => a + x.natAbs) 0
      let den : Nat := 2 ^ 149 * (xd ^ 5).natAbs
      let e : Int := (abs * 65536 / 2 ^ 16 / den : Nat) + 1
      let exact := (terms.drop 1).all (· == 0)
      let v := roundDiv (t * 65536) den
      if exact then (clampInt minI32 maxI32 v, d)
      else
        let (x, d) := freeBetween (v - e) (v + e) d
        (clampInt minI32 maxI32 x, d)

/-- A VALUE of n/den: rounding is not stated, and a value outside 32 bits is not given. -/
def valueOf (n : Int) (den : Nat) (d : Dev) : Int × Dev :=
  let (v, d) := roundFree n den d
  if minI32 ≤ v && v ≤ maxI32 then (v, d) else freeValue32 d

/-- VALUE of a result: input, excitation, gain code, code, and the lead conversion's code in 3-wire (R400). -/
def monValue (input : Nat) (exc : Bool) (g : Nat) (raw : Int) (lead : Option Int) (d : Dev) : Int × Dev :=
  let off := (d.reg (R.MON_CAL_OFFSET g)).toInt
  let gain := (d.reg (R.MON_CAL_GAIN g)).toNat
  let den : Nat := 2 ^ (45 + g)
  let uv := microVoltNum (raw - off) gain
  if input < 8 && exc then
    let wires := d.get (F.MON_SP_CFG_WIRES input)
    let num := match wires, lead with
      | 1, some l => microVoltNum (raw - l) gain
      | _, _ => uv
    let r0 : Nat := if d.is (F.MON_SP_CFG_R0 input) then 1000 else 100
    let leadR : Nat := if wires == 0 then d.get (F.MON_SP_CFG_LEAD_R input) else 0
    -- R in mΩ is num/den µV over I_EXC in nA, times 10^6
    rtdTemp input (num * 1000000 - (leadR * den * excNanoAmp : Nat)) (den * excNanoAmp * r0 * 1000 : Nat) d
  else if input < 8 || input == 0x30 then valueOf uv den d
  else if 0x10 ≤ input && input < 0x18 then valueOf (uv * (d.reg (R.MON_IN_SCALE (input - 0x10))).toNat) (den * 2 ^ 20) d
  else if input == 0x20 then valueOf (2 * uv) den d
  else freeValue32 d

/-- A result is held, emitted, and passed to the guard and to the bias loop (R401, R402, R409, R414, R416). -/
def monResult (e input : Nat) (exc report calib opn : Bool) (raw value : Int) (d : Dev) : Dev :=
  let now := d.now
  let ref := !opn && !d.is F.MON_STATUS_REF_READY
  let i := min e 63
  let d := d.setReg (R.MON_LAST_RESULT i 0) (pack32 [(31, 31, 1), (30, 30, b2n ref), (29, 29, b2n opn), (28, 28, b2n calib),
    (27, 22, input), (15, 0, now.turn / 2 ^ 32)])
  let d := d.setReg (R.MON_LAST_RESULT i 1) (toWord now.turn)
  let d := d.setReg (R.MON_LAST_RESULT i 2) (toWord (ofSigned 24 raw * 256))
  let d := d.setReg (R.MON_LAST_RESULT i 3) (valueWord value)
  let d := if !report then d
    else emitTo 131 { t := now, src := 131, words := [
      pack64 [(63, 60, 8), (57, 52, i), (51, 46, input), (45, 45, b2n calib), (44, 44, b2n ref), (43, 43, b2n opn), (39, 0, now.t40)],
      pack64 [(63, 40, ofSigned 24 raw), (39, 8, ofSigned 32 value)]] } d
  let d := if input < 8 && !opn then d.setReg R.MON_STATUS (setBits (d.reg R.MON_STATUS) (16 + input) (16 + input) 0) else d
  let temp := (input < 8 && exc) || (0x28 ≤ input && input < 0x2C)
  let tsrc := if input < 8 then input else input - 0x20
  let d := if temp && !opn && !ref then
      d.setMon { d.mon with
        src := kset d.mon.src tsrc (0, value)
        good := if input < 8 then kset d.mon.good input value else d.mon.good
        news := if input < 8 then kset d.mon.news input false else d.mon.news }
    else if opn then d.setMon { d.mon with news := kset d.mon.news input true }
    else d
  if input == 0x10 || input == 0x11 then guardHv (input - 0x10) value (!ref && !calib) d else d

/-! ### The sequencer (R402 to R406, R409) -/

/-- The converter runs in every mode except BOOT and TEST (R398). -/
def Dev.monOn (d : Dev) : Bool := d.mode != .boot && d.mode != .test

/-- The entry after entry e (R402, R404). -/
def nextEntry (e : Nat) (d : Dev) : Nat := if d.get F.MON_CFG_LAST < e + 1 then 0 else e + 1

/-- The first enabled entry from e on, within one turn of the loop (R402). -/
def enabledFrom (fuel e : Nat) (d : Dev) : Option Nat :=
  match fuel with
  | 0 => none
  | f + 1 => if d.is (F.MON_SEQ_ENTRY0_EN e) then some e else enabledFrom f (nextEntry e d) d

/-- An excitation of port s at this moment would break the duty rule (R406). -/
def dutyBroken (s : Nat) (d : Dev) : Bool :=
  match kfind d.mon.exc s with
  | some (began, tau) => decide (d.nowCt < began + 100 * tau)
  | none => false

/-- An entry begins: the multiplexer and the excitation are switched, or it is passed over (R403, R406). -/
def beginEntry (e : Nat) (w0 w1 : Word) (d : Dev) : Dev :=
  if bit w0 17 && dutyBroken (bits w0 29 24) d then
    raise E.MON_DUTY_SKIP [] (count1 (R.MON_COUNT 2) (d.setMon { d.mon with next := if e < 63 then nextEntry e d else d.mon.next }))
  else
    (d.put F.MON_STATUS_CUR_ENTRY e).setMon { d.mon with
      run := some { e := e, w0 := w0, w1 := w1, began := d.nowCt }
      slot := if e == 63 then (w0, w1) else d.mon.slot }

/-- At an entry boundary the next injection, calibration step or sequencer entry starts (R402, R404, R405, R411). -/
def monStart (d : Dev) : Dev :=
  if !d.monOn || d.mon.run.isSome then d
  else
    let m := d.mon
    let inject (cal : Option CalStep) : Dev := match m.inj with
      | [] => d
      | (a, b) :: r => beginEntry 63 a b (d.setMon { m with inj := r, cal := cal })
    match m.cal with
    | some c =>
      if c.running then d
      else if c.wait == 0 then (d.put F.MON_STATUS_CUR_ENTRY 63).setMon { m with cal := some { c with running := true } }
      else inject (some { c with wait := c.wait - 1 })
    | none =>
      if !m.inj.isEmpty then inject none
      else if !d.is F.MON_CFG_SEQ_EN then d
      else
        let from_ := if d.get F.MON_CFG_LAST < m.next then 0 else m.next
        match enabledFrom 63 from_ d with
        | some e => beginEntry e (d.reg (R.MON_SEQ_ENTRY0 e)) (d.reg (R.MON_SEQ_ENTRY1 e)) d
        | none => d

/-- The settling time ends (R403). -/
def monSettled (d : Dev) : Dev :=
  match d.mon.run with
  | some r => if r.stage == .settle then d.setMon { d.mon with run := some { r with stage := .convert } } else d
  | none => d

/-- The excitation of a run, if it has one, is switched off (R403, R406). -/
def excOff (r : MonRun) (d : Dev) : Dev :=
  if bit r.w0 17 then d.setMon { d.mon with exc := kset d.mon.exc (bits r.w0 29 24) (r.began, d.nowCt - r.began) } else d

/-- A conversion is counted and held to the range (R398). -/
def monCount (raw : Int) (d : Dev) : Int × Dev :=
  let d := count1 (R.MON_COUNT 0) d
  if raw ≤ -monMax || monMax ≤ raw then (clampInt (-monMax) monMax raw, count1 (R.MON_COUNT 3) d) else (raw, d)

/-- A conversion of the running ZERO or FULL step ends: an item of its own, and one of the 16 codes (R410). -/
def calConversion (raw : Int) (d : Dev) : Dev :=
  match d.mon.cal with
  | none => d
  | some c =>
    if !c.running || 2 ≤ c.step || 16 ≤ c.codes.length then d
    else
      let (raw, d) := monCount raw d
      let (v, d) := monValue c.input false c.gain raw none d
      let d := monResult 63 c.input false true true false raw v d
      d.setMon { d.mon with cal := some { c with codes := c.codes ++ [raw] } }

/-- A conversion of the run in progress, or else of the running calibration step, ends (R398, R403, R407, R410). -/
def monConversion (raw : Int) (d : Dev) : Dev :=
  match d.mon.run with
  | none => if d.monOn then calConversion raw d else d
  | some r =>
    if r.stage != .convert || !d.monOn then d
    else
      let (raw, d) := monCount raw d
      let input := bits r.w0 29 24
      let exc := bit r.w0 17
      if exc && d.get (F.MON_SP_CFG_WIRES input) == 1 && r.lead.isNone then d.setMon { d.mon with run := some { r with lead := some raw } }
      else
        let (v, d) := monValue input exc (bits r.w0 23 21) raw r.lead d
        let d := monResult r.e input exc (bit r.w0 30 || r.e == 63) false false raw v d
        let n := bits r.w1 31 24
        let last := (if n == 0 then 256 else n) ≤ r.made + 1
        let d := if last then excOff r d else d
        d.setMon { d.mon with run := some { r with made := r.made + 1, lead := none, stage := if last then .delay else .convert } }

/-- The delay of an entry ends: an entry boundary (R403). -/
def monEntryEnd (d : Dev) : Dev :=
  match d.mon.run with
  | some r =>
    if r.stage == .delay then d.setMon { d.mon with run := none, next := if r.e < 63 then nextEntry r.e d else d.mon.next } else d
  | none => d

/-- The compliance comparator trips (R409). -/
def excitationTrip (d : Dev) : Dev :=
  match d.mon.run with
  | none => d
  | some r =>
    let s := bits r.w0 29 24
    if !bit r.w0 17 || r.stage == .delay then d
    else
      let d := excOff r d
      let d := monResult r.e s true (bit r.w0 30 || r.e == 63) false true 0 (kget d.mon.good s 0) d
      let was := bit (d.reg R.MON_STATUS) (16 + s)
      let d := count1 (R.MON_COUNT 1) (d.setReg R.MON_STATUS (setBits (d.reg R.MON_STATUS) (16 + s) (16 + s) 1))
      let d := if was then d else report 0x1A0 0x09 0 0 s none (raise E.MON_OPEN_SENSOR [] d)
      d.setMon { d.mon with run := some { r with stage := .delay, lead := none } }

/-- A push to the injection queue (R405, R417): status, and injections queued after it. -/
def monInject (w0 w1 : Word) (d : Dev) : Dev × Nat :=
  if !monEntryOk w0 then (d, 5)
  else if 4 ≤ d.mon.inj.length then (d, 1)
  else (d.setMon { d.mon with inj := d.mon.inj ++ [(w0, w1)] }, 0)

/-- A write of INJ_CMD.PUSH (R405). -/
def injPush (d : Dev) : Dev :=
  let (d, st) := monInject (d.reg R.MON_INJ_ENTRY0) (d.reg R.MON_INJ_ENTRY1) d
  d.put F.MON_INJ_STATUS_RESULT st

/-- REF_READY rises once REF_EN has held for 196 turns (R399). -/
def refReady (d : Dev) : Dev :=
  match d.mon.refSince with
  | some n => if d.is F.MON_CFG_REF_EN && 196 ≤ n && !d.is F.MON_STATUS_REF_READY then raise E.MON_REF_READY [] (d.put F.MON_STATUS_REF_READY 1) else d
  | none => d

/-- REF_EN lands (R399). `old` is the machine before the landing. -/
def monLanded (old d : Dev) : Dev :=
  match old.is F.MON_CFG_REF_EN, d.is F.MON_CFG_REF_EN with
  | true, false => (d.put F.MON_STATUS_REF_READY 0).setMon { d.mon with refSince := none }
  | false, true => d.setMon { d.mon with refSince := some 0 }
  | _, _ => d

/-- MON_STATUS as it reads. -/
def monStatus (d : Dev) : Word :=
  let entry : Bool := match d.mon.run with
    | some r => decide (r.e < 63)
    | none => false
  let running : Bool := match d.mon.cal with
    | some c => c.running
    | none => false
  let hold := d.mon.hold.foldl (fun a p => a + 2 ^ (8 + p.1)) 0
  pack32 [(31, 31, b2n (d.is F.MON_CFG_SEQ_EN || entry)), (30, 30, d.get F.MON_STATUS_REF_READY), (29, 29, b2n running),
    (28, 26, d.mon.inj.length), (23, 16, d.get F.MON_STATUS_OPEN), (15, 8, hold / 256), (5, 0, d.get F.MON_STATUS_CUR_ENTRY)]

/-! ### System calibration (R410, R411) -/

/-- The status that ends a step or answers a request is shown in CAL_STATUS. -/
def calResult (st : Nat) (d : Dev) : Dev := d.put F.MON_CAL_STATUS_RESULT st

/-- A request of a step, in the layout of CAL_CTRL, with FS_UV (R410, R411). -/
def calRequest (step : Nat) (w fs : Word) (d : Dev) : Dev × Nat :=
  let g := bits w 23 21
  let d := (d.put F.MON_CAL_STATUS_STEP step).put F.MON_CAL_STATUS_GAIN g
  let span := fs.toInt * 2 ^ g
  let input := bits w 29 24
  if step == 3 then
    (raise E.MON_CAL_DONE [] (calResult 0 (d.setMon { d.mon with cal := none, pendOff := [] })), 0)
  else
    let st :=
      if !(d.mode == .standby || d.mode == .calibrate || d.mode == .test) then 3
      else if d.mon.cal.isSome then 1
      else if step == 1 && !(1250000 ≤ span && span ≤ 2500000) then 5
      else if step < 2 && !monEntryOk (pack32 [(29, 24, input)]) then 5
      else 0
    let d := calResult st d
    (if st == 0 then d.setMon { d.mon with cal := some { step := step, input := input, gain := g, fs := fs.toInt, wait := d.mon.inj.length } } else d, st)

/-- A step that runs has ended with a status (R411). -/
def calEnd (st : Nat) (d : Dev) : Dev := raise E.MON_CAL_DONE [] (calResult st (d.setMon { d.mon with cal := none }))

/-- GAIN' of R410 from the sum of 16 codes, the offset o and FS_UV. -/
def calGain (fs : Int) (g : Nat) (sum o : Int) : Option Nat :=
  let expected := roundDiv (fs * 2 ^ g * 2 ^ 23) 2500000
  let den := sum - 16 * o
  if den ≤ 0 then none
  else
    let v := roundDiv (2 ^ 22 * expected * 16) den.toNat
    if 3 * 2 ^ 20 ≤ v && v ≤ 5 * 2 ^ 20 then some v.toNat else none

/-- A ZERO or FULL step with 15 conversions made ends with the end of its 16th, of code `raw` (R410). -/
def calLast (raw : Int) (d : Dev) : Dev :=
  if d.monOn && d.mon.cal.any (fun c => c.codes.length == 15) then calConversion raw d else d

/-- The running step ends, ZERO and FULL with their 16 conversions made (R410, R411). -/
def calStepDone (raw : Int) (d : Dev) : Dev :=
  let d := calLast raw d
  match d.mon.cal with
  | none => d
  | some c =>
    if !c.running then d
    else if c.step == 2 then
      withPips 2 6 1 (fun d => calEnd 0 (d.setMon { d.mon with
        stored := kset d.mon.stored c.gain ((d.reg (R.MON_CAL_OFFSET c.gain)).toInt, (d.reg (R.MON_CAL_GAIN c.gain)).toNat) })) d
    else if c.codes.length < 16 then d
    else
      let sum := c.codes.foldl (· + ·) 0
      if c.step == 0 then
        let (m, d) := roundFree sum 16 d
        calEnd 0 (d.setMon { d.mon with pendOff := kset d.mon.pendOff c.gain m })
      else
        let o := kget d.mon.pendOff c.gain (d.reg (R.MON_CAL_OFFSET c.gain)).toInt
        let d := d.setMon { d.mon with pendOff := [] }
        match calGain c.fs c.gain sum o with
        | some v => calEnd 0 (d.setMon { d.mon with calLand := some (c.gain, o, v) })
        | none => calEnd 9 (count1 (R.MON_COUNT 5) d)

/-! ### The bias loop (R413 to R416) -/

/-- A group is in open-sensor hold, and whether that hold has expired (R416). -/
def Dev.held (d : Dev) (k : Nat) : Bool := (kfind d.mon.hold k).isSome
def Dev.holdExpired (d : Dev) (k : Nat) : Bool :=
  match kfind d.mon.hold k with
  | some (n, x) => x || decide (d.get F.MON_BIAS_LIMITS_OPEN_HOLD ≤ n)
  | none => false

/-- Groups enter or leave open-sensor hold at a boundary (R416). -/
def holdBoundary (d : Dev) : Dev :=
  let d := d.setMon { d.mon with hold := d.mon.hold.map (fun p => (p.1, (p.2.1 + 1, p.2.2))) }
  let d := (List.range 8).foldl (fun d k =>
    match kfind d.mon.news (d.get (F.MON_BIAS_GRP_TSRC k)) with
    | some true => if d.held k then d else raise E.MON_BIAS_HOLD [] (d.setMon { d.mon with hold := kset d.mon.hold k (0, false) })
    | some false => (d.setMon { d.mon with hold := kdel d.mon.hold k }).setReg R.MON_BIAS_STATUS (setBits (d.reg R.MON_BIAS_STATUS) (24 + k) (24 + k) 0)
    | none => d) d
  d.setMon { d.mon with news := [] }

/-- The hold of group k expires (R416). -/
def holdExpire (k : Nat) (d : Dev) : Dev :=
  match kfind d.mon.hold k with
  | some (n, false) =>
    if d.get F.MON_BIAS_LIMITS_OPEN_HOLD ≤ n then
      raise E.MON_HOLD_EXPIRED [] ((d.setMon { d.mon with hold := kset d.mon.hold k (n, true) }).setReg R.MON_BIAS_STATUS
        (setBits (d.reg R.MON_BIAS_STATUS) (24 + k) (24 + k) 1))
    else d
  | _ => d

/-- A run of the loop starts: T_k of each served group is taken (R413, R414). -/
def biasRun (d : Dev) : Dev :=
  let d := (d.put F.MON_BIAS_STATUS_STALE 0).put F.MON_BIAS_STATUS_POSTED 0
  let (ts, d) := (List.range 8).foldl (fun (a : List (Nat × Int) × Dev) k =>
    let d := a.2
    if !d.is (F.MON_BIAS_GRP_EN k) then a
    else
      let stale := d.setReg R.MON_BIAS_STATUS (setBits (d.reg R.MON_BIAS_STATUS) (16 + k) (16 + k) 1)
      let t := match kfind d.mon.src (d.get (F.MON_BIAS_GRP_TSRC k)) with
        | some (age, v) => if age ≤ d.get F.MON_BIAS_LIMITS_MAX_AGE then some v else none
        | none => none
      match t with
      | none => (a.1, raiseOnce E.MON_STALE [] (count1 (R.MON_COUNT 4) stale))
      | some v => if d.held k then (a.1, stale) else (a.1 ++ [(k, v)], d.setReg (R.MON_GROUP_TEMP k) (valueWord v))) ([], d)
  d.setMon { d.mon with bias := some ts }

/-- The monitor at the boundary that opens the present turn. -/
def monBoundary (d : Dev) : Dev :=
  let d := d.setMon { d.mon with
    refSince := d.mon.refSince.map (· + 1)
    src := d.mon.src.map (fun p => (p.1, (p.2.1 + 1, p.2.2))) }
  let d := match d.mon.calLand with
    | some (g, o, v) => ((d.setMon { d.mon with calLand := none }).setReg (R.MON_CAL_OFFSET g) (valueWord o)).setReg (R.MON_CAL_GAIN g) (toWord v)
    | none => d
  let d := holdBoundary d
  let p := d.get F.MON_BIAS_CFG_BIAS_PERIOD
  if d.is F.MON_BIAS_CFG_EN && d.monOn && d.clk.turn % p == 0 then
    (if d.mon.bias.isSome then count1 (R.MON_COUNT 6) d else biasRun d)
  else d

/-- The lowest power of two in a number, up to 2^400. -/
def lowBit (n : Nat) : Nat := Nat.gcd n (2 ^ 400)
/-- Has a number scaled by a power of two at most 24 significant bits? -/
def f32Exact (n : Int) : Bool := n == 0 || decide (n.natAbs / lowBit n.natAbs < 2 ^ 24)

/-- code of R415 for coefficients in 2^-149, T in 2^-16 °C and G in 1/256: where every product and every sum is exact in
binary32 the rule gives it; else the order of the operations is not stated, and it lies within their rounding. -/
def biasCode (coef : List Int) (t g : Int) (d : Dev) : Nat × Dev :=
  let idx := (List.range 12).filter (fun m => coef.getD m 0 != 0)
  -- every term in units of 2^-213
  let terms := idx.map (fun m => coef.getD m 0 * t ^ (m / 3) * 2 ^ (16 * (3 - m / 3)) * g ^ (m % 3) * 2 ^ (8 * (2 - m % 3)))
  let v := terms.foldl (· + ·) 0
  let abs : Nat := terms.foldl (fun a x => a + x.natAbs) 0
  let unit := terms.foldl (fun a x => Nat.gcd a (lowBit x.natAbs)) (2 ^ 400)
  let exact := abs < 2 ^ 24 * unit && idx.all (fun m =>
    let ti := t ^ (m / 3)
    let gj := g ^ (m % 3)
    let c := coef.getD m 0
    f32Exact ti && f32Exact gj && f32Exact (ti * gj) && f32Exact (c * ti) && f32Exact (c * gj) && f32Exact (c * ti * gj))
  let code (x : Int) : Int := clampInt 0 4095 (roundDiv x (2 ^ 213))
  if exact then ((code v).toNat, d)
  else if 2 ^ 340 ≤ abs then drawFree 4095 d
  else
    let e : Int := (abs / 2 ^ 18 + 1 : Nat)
    let (x, d) := freeBetween (code (v - e)) (code (v + e)) d
    (x.toNat, d)

/-- BTRIM of channel n as a scan sets it (R340). -/
def Dev.scanTrim (d : Dev) (n : Nat) : Option Nat := d.scanOf 2 n

/-- The run posts its codes, once its 4 CAL fabric pips have been granted (R413, R415). -/
def biasPost (d : Dev) : Dev :=
  match d.mon.bias with
  | none => d
  | some ts => withPips 0 1 4 (fun d =>
      let d := ts.foldl (fun d p =>
        let k := p.1
        let coef := (List.range 12).map (fun m => f32Int (d.reg (R.MON_BIAS_COEF k m)))
        let d := d.setReg R.MON_BIAS_STATUS (setBits (d.reg R.MON_BIAS_STATUS) (8 + k) (8 + k) 1)
        (List.range 8).foldl (fun d i =>
          let n := 8 * k + i
          let (c, d) := if coef.any (·.isNone) then drawFree 4095 d
            else biasCode (coef.map (·.getD 0)) p.2 (d.get (F.MON_G_SP_SP n)) d
          if (d.scanTrim n).isSome then d else d.setAfeCh n { d.afeCh n with posted := some c }) d) d
      d.setMon { d.mon with bias := none }) d

/-! ### Commands -/

/-- MON_ENTRY_START (R403). -/
def execMonEntryStart (s : State) : Host.Outcome State Fault Refusal := onDev monStart s
/-- MON_SETTLE_DONE (R403). -/
def execMonSettleDone (s : State) : Host.Outcome State Fault Refusal := onDev monSettled s
/-- MON_CONVERSION_DONE (R398). -/
def execMonConversionDone (raw : Int) (s : State) : Host.Outcome State Fault Refusal := onDev (monConversion raw) s
/-- MON_ENTRY_END (R403). -/
def execMonEntryEnd (s : State) : Host.Outcome State Fault Refusal := onDev monEntryEnd s
/-- EXCITATION_TRIP (R409). -/
def execExcitationTrip (s : State) : Host.Outcome State Fault Refusal := onDev excitationTrip s
/-- REF_READY (R399). -/
def execRefReady (s : State) : Host.Outcome State Fault Refusal := onDev refReady s
/-- CAL_STEP_DONE (R411). -/
def execCalStepDone (raw : Int) (s : State) : Host.Outcome State Fault Refusal := onDev (calStepDone raw) s
/-- BIAS_LOOP_POST (R415). -/
def execBiasLoopPost (s : State) : Host.Outcome State Fault Refusal := onDev biasPost s
/-- OPEN_HOLD_EXPIRE (R416). -/
def execOpenHoldExpire (k : Nat) (s : State) : Host.Outcome State Fault Refusal := onDev (holdExpire k) s

end Sys2Proof.Machine
end

