-- ==== Sys2Proof/Machine/Bias.lean ====
section
/-! DEFINITION. The bias target of every channel and its ramp (R74 to R76). -/

namespace Sys2Proof.Machine

/-- Priority 1 of R74: no GPB is confirmed, or a loaded one is not yet confirmed. -/
def Dev.biasUnconfirmed (d : Dev) : Bool := d.grd.gpb.isNone || d.grd.pending.isSome

/-- Priorities 1 to 3 of R74 hold channel n (R340). -/
def Dev.biasHeld (d : Dev) (n : Nat) : Bool := d.biasUnconfirmed || d.mode == .safe || d.held (n / 8)

/-- The target of channel n by priorities 2 to 5, before the clamp (R74, R340). -/
def biasWanted (g : List Word) (n : Nat) (d : Dev) : Nat :=
  if d.mode == .safe || d.holdExpired (n / 8) then gpbSafeLevel g
  else if d.held (n / 8) then d.get (F.AFE_BTRIM_OUT_TARGET n)
  else
    match d.scanTrim n, d.is (F.AFE_BTRIM_SRC n), (d.afeCh n).posted with
    | some v, _, _ => v
    | none, true, some v => v
    | none, _, _ => d.get (F.AFE_BTRIM_CODE n)

/-- One code towards the target, at least I turns after the step before (R76). -/
def rampStep (i out target : Nat) (since : Option Nat) : Nat × Option Nat :=
  let ready : Bool := match since with
    | some t => decide (i ≤ t)
    | none => true
  if out == target || !ready then (out, since) else (if out < target then out + 1 else out - 1, some 0)

/-- V_node of channel n in mV: the BTRIM output voltage (R71). In BOOT and TEST it is 4.095 V (R73): OUT is 0xFFF there. -/
def Dev.nodeMv (d : Dev) (n : Nat) : Nat := if d.mode == .boot then 4095 else d.get (F.AFE_BTRIM_OUT_OUT n)

/-- The target and OUT of one channel at a boundary (R73, R74, R76): the machine, and whether the clamp changed the target. The window
of the confirmed GPB clamps the target of every row of R74, that of row 1 too while a change to it waits; OUT then goes to 0xFFF all
the same, and it does in TEST, where the node is held at 4.095 V. -/
def biasChannel (n : Nat) (d : Dev) : Dev × Bool :=
  let c := d.afeCh n
  let since := c.sinceStep.map (· + 1)
  let show_ (out target : Nat) (clamped : Bool) (d : Dev) : Dev :=
    (((d.put (F.AFE_BTRIM_OUT_OUT n) out).put (F.AFE_BTRIM_OUT_TARGET n) target).put (F.AFE_BTRIM_OUT_CLAMPED n) (b2n clamped)).put
      (F.AFE_BTRIM_OUT_SLEWING n) (b2n (out != target))
  match d.grd.gpb with
  | some g =>
    let want := if d.biasUnconfirmed then 0xFFF else biasWanted g n d
    let target := max (gpbBtrimMin g) (min (gpbBtrimMax g) want)
    if d.biasUnconfirmed || d.mode == .test then
      (show_ 0xFFF target (target != want) (d.setAfeCh n { c with sinceStep := since }), target != want)
    else
      let (out, since) := rampStep (rampTurns (gpbRampMax g)) (d.get (F.AFE_BTRIM_OUT_OUT n)) target since
      (show_ out target (target != want) (d.setAfeCh n { c with sinceStep := since }), target != want)
  | none => (show_ 0xFFF 0xFFF false (d.setAfeCh n { c with sinceStep := since }), false)

/-- Enabled channels whose OUT differs from the target. -/
def Dev.slewing (d : Dev) : Bool := (List.range 64).any (fun n => d.is (F.AFE_CH_CFG_EN n) && d.is (F.AFE_BTRIM_OUT_SLEWING n))

/-- Every channel's target and OUT at a turn boundary (R73 to R76). -/
def biasBoundary (d : Dev) : Dev :=
  let d := d.put F.AFE_STATUS_GPB_HOLD (b2n d.biasUnconfirmed)
  let outs := (List.range 64).map (fun n => d.get (F.AFE_BTRIM_OUT_OUT n))
  let was := d.slewing
  let (d, clamped) := (List.range 64).foldl (fun (a : Dev × Bool) n =>
    let (d, c) := biasChannel n a.1
    (d, a.2 || c)) (d, false)
  let d := if clamped then raiseOnce E.AFE_BTRIM_CLAMP [] (count1 (R.AFE_COUNT 2) d) else d
  let moved := (List.range 64).any (fun n => d.is (F.AFE_CH_CFG_EN n) && d.get (F.AFE_BTRIM_OUT_OUT n) != outs.getD n 0)
  if (was || moved) && !d.slewing then raise E.AFE_SLEW_DONE [] d else d

end Sys2Proof.Machine
end

