-- ==== Sys2Proof/Machine/Faults.lean ====
section
/-! DEFINITION. The fault collector's queue and captures, targeted self-tests, safety holds, the watchdog's kick and the budget
metering (R41, R42, R450 to R471). What a report does is in Ops.lean. -/

namespace Sys2Proof.Machine

/-- What a message returns: the machine, its status and its payload (R306, R311). -/
abbrev MsgRes := Dev × Nat × List Word

def Dev.setFlt (d : Dev) (f : Faults) : Dev := { d with flt := f }

/-! ### The queue (R455, R457) -/

/-- FLT_STATUS as it reads. -/
def fltStatus (d : Dev) : Word :=
  pack32 [(31, 31, d.get F.FLT_STATUS_ALERT), (30, 30, d.get F.FLT_STATUS_OVF), (29, 29, d.get F.FLT_STATUS_QERR),
    (28, 28, b2n !d.flt.holds.isEmpty), (27, 27, b2n d.flt.running.isSome), (26, 22, d.flt.tests.length), (8, 0, d.flt.q.length)]

/-- ISO_SE as it reads: isolated slice engines (R465). -/
def isoSe (d : Dev) : Word := toWord (((List.range 8).filter (fun k => d.isolated (.engine k))).foldl (fun a k => a + 2 ^ k) 0)

/-- ALERT_N is driven low (R459). -/
def Dev.alertLow (d : Dev) : Bool := d.is F.FLT_STATUS_ALERT || d.flt.bootAlert

/-- A read of FLT_POP_HI: the head entry moves to the latch; an uncorrectable head is discarded first (R455). -/
def fltPop (bad : Bool) (d : Dev) : Word × Dev :=
  let d := if bad && !d.flt.q.isEmpty then
      (count1 (R.FLT_COUNT 2) (d.put F.FLT_STATUS_QERR 1)).setFlt { d.flt with q := d.flt.q.tail }
    else d
  match d.flt.q with
  | [] => (0, d.setFlt { d.flt with latch := (0, 0) })
  | e :: r => (toWord (e.1.toNat / 2 ^ 32), d.setFlt { d.flt with q := r, latch := e })

/-- FLT_CMD FLUSH: the queue is emptied, and its entries are counted in DROPPED. -/
def fltFlush (d : Dev) : Dev := count (R.FLT_COUNT 1) d.flt.q.length (d.setFlt { d.flt with q := [] })

/-- FLT_CMD ACCEPT ends every safety hold, but not that of a control core classed LASTING (R460). -/
def fltAccept (d : Dev) : Dev :=
  d.setFlt { d.flt with holds := d.flt.holds.filter (fun h => h == .core && d.isolated .core) }

/-- A first-error class is cleared (R457). -/
def feClear (c : Nat) (d : Dev) : Dev := (List.range 7).foldl (fun d w => d.setReg (R.FLT_FE c w) 0) d

/-- A write of FE_CLEAR. -/
def feClearMask (m : Word) (d : Dev) : Dev := (List.range 8).foldl (fun d c => if bit m c then feClear c d else d) d

/-- GET_FAULTS (R468). -/
def mGetFaults (w : List Word) (d : Dev) : MsgRes :=
  let n := bits (wordAt w 0) 5 0
  if n == 0 || 40 < n then (d, 5, [])
  else
    let es := d.flt.q.take n
    let left := d.flt.q.drop n
    (d.setFlt { d.flt with q := left }, 0,
      [pack32 [(31, 31, d.get F.FLT_STATUS_OVF), (30, 30, d.get F.FLT_STATUS_QERR), (23, 16, es.length), (8, 0, left.length)],
        d.reg (R.FLT_COUNT 1)] ++ es.flatMap (fun e => [toWord (e.1.toNat / 2 ^ 32), toWord e.1.toNat, e.2]))

/-- GET_FIRST_ERROR (R469). -/
def mGetFirstError (w : List Word) (d : Dev) : MsgRes :=
  let c := bits (wordAt w 0) 2 0
  let p := (List.range 7).map (fun i => d.reg (R.FLT_FE c i))
  (if bit (wordAt w 0) 31 then feClear c d else d, 0, p)

/-- The severity windows: at the boundary that opens a turn t with t mod 2^WIN_LOG2 = 0 every source counter is cleared (R458). -/
def severityBoundary (d : Dev) : Dev :=
  if d.clk.turn % 2 ^ d.get F.FLT_CTRL_WIN_LOG2 == 0 then
    { d with regs := d.regs.filter (fun p => !(0x101000 ≤ p.1 && p.1 < 0x102000)) }
  else d

/-! ### Targeted self-tests (R462 to R466) -/

/-- The resource (0 fabric, 1 SDRAM, 2 MRAM) and the SELFTEST pips of an element's test (R463). -/
def testPips (el : Elem) : Nat × Nat :=
  match el with
  | .row r => (1, 32 * (Config.rowPages r).length)
  | .mram _ => (2, 1)
  | .engine _ => (0, 4)
  | .lane _ => (0, 0)
  | .core => (0, 0)
  | _ => (0, 1)

/-- Can an element be taken for its test (R463)? -/
def testReady (el : Elem) (d : Dev) : Bool :=
  match el with
  | .lane l => d.stage l != 5 && !d.is (F.LNK_LANE_STATUS_PRBS_BUSY l)
  | .engine k => (d.engine k).run.isNone
  | _ => true

/-- One run of a test begins. -/
def testBegin (el : Elem) (d : Dev) : Dev :=
  match el with
  | .lane l => (d.put (F.LNK_LANE_STATUS_PRBS_BUSY l) 1).setLane l { d.lane l with prbsLen := 4 }
  | _ => d

/-- The next queued self-test starts (R462). -/
def selftestStart (d : Dev) : Dev :=
  match d.flt.running, d.flt.tests with
  | none, t :: r =>
    if testReady t.elem d then
      let d := d.setFlt { d.flt with tests := r, running := some (t, false) }
      let d := count1 (R.FLT_COUNT 3) (((d.put F.FLT_TEST_STATUS_STATE 1).put F.FLT_TEST_STATUS_SOURCE t.source).put F.FLT_TEST_STATUS_KIND t.kind)
      testBegin t.elem d
    else d
  | _, _ => d

/-- The lane under test leaves its loopback (R296). -/
def testRelease (el : Elem) (pass : Bool) (d : Dev) : Dev :=
  match el with
  | .lane l =>
    let (e, d) := if pass then (0, d) else drawFree (2 ^ 24 - 1) d
    prbsEnd l (if pass then 1 else 2) (if pass then 0 else e + 1) (2 ^ 8) d
  | _ => d

/-- An element is classed TRANSIENT or LASTING (R464, R465). -/
def classify (t : TestReq) (lasting : Bool) (d : Dev) : Dev :=
  let d := (d.setFlt { d.flt with running := none }).put F.FLT_TEST_STATUS_STATE 0
  let d := d.put F.FLT_TEST_STATUS_LAST (if lasting then 2 else 1)
  let d := count1 (R.FLT_COUNT (if lasting then 5 else 4)) d
  let d := report t.source (if lasting then 0x21 else 0x20) 6 8 t.addr none d
  if lasting then
    let d := isolateElem t.elem (raise E.FLT_LASTING [] d)
    if t.elem == .core then
      let began := d.flt.holds.isEmpty
      let d := d.setFlt { d.flt with holds := if d.flt.holds.contains .core then d.flt.holds else d.flt.holds ++ [.core] }
      if began then raise E.FLT_SAFE_HOLD [] d else d
    else d
  else d.setFlt { d.flt with holds := d.flt.holds.filter (fun h => !(h == t.elem)) }

/-- A run of the self-test ends, once its budget has been granted (R462 to R465). -/
def selftestDone (pass : Bool) (d : Dev) : Dev :=
  match d.flt.running with
  | none => d
  | some (t, again) =>
    let (r, n) := testPips t.elem
    withPips r 3 n (fun d =>
      let d := testRelease t.elem pass d
      if pass || again then
        let d := classify t (!pass) d
        -- an engine that is idle chooses (R153)
        match t.elem with
        | .engine k => engineChoose k d
        | _ => d
      else
        let d := (d.setFlt { d.flt with running := some (t, true) }).put F.FLT_TEST_STATUS_STATE 2
        testBegin t.elem (count1 (R.FLT_COUNT 3) d)) d

/-! ### The watchdog (R467) -/

/-- PERIOD of WDOG_CFG; values below 256 are taken as 256. -/
def Dev.wdogPeriod (d : Dev) : Nat := max 256 (d.get F.FLT_WDOG_CFG_PERIOD)

/-- A write of WDOG_KICK. -/
def wdogKick (w : Word) (d : Dev) : Dev := if bit w 0 then d.setFlt { d.flt with sinceKick := 0 } else d

/-- The watchdog runs in every mode except BOOT and TEST. -/
def Dev.wdogRuns (d : Dev) : Bool := d.is F.FLT_WDOG_CFG_EN && d.mode != .boot && d.mode != .test

/-- A turn passes without a kick. -/
def wdogBoundary (d : Dev) : Dev := if d.wdogRuns then d.setFlt { d.flt with sinceKick := d.flt.sinceKick + 1 } else d

/-! ### Commands -/

/-- FLT_POP (R455). -/
def execFltPop (bad : Bool) (s : State) : Host.Outcome State Fault Refusal := onRead (fltPop bad) s
/-- SELFTEST_START (R462). -/
def execSelftestStart (s : State) : Host.Outcome State Fault Refusal := onDev selftestStart s
/-- SELFTEST_DONE (R464). -/
def execSelftestDone (pass : Bool) (s : State) : Host.Outcome State Fault Refusal := onDev (selftestDone pass) s
/-- FAULT_ACCEPT (R460). -/
def execFaultAccept (s : State) : Host.Outcome State Fault Refusal := onDev fltAccept s
/-- FAULT_FLUSH (R455). -/
def execFaultFlush (s : State) : Host.Outcome State Fault Refusal := onDev fltFlush s
/-- FE_CLEAR (R457). -/
def execFeClear (mask : Word) (s : State) : Host.Outcome State Fault Refusal := onDev (feClearMask mask) s
/-- WDOG_KICK (R467). -/
def execWdogKick (val : Word) (s : State) : Host.Outcome State Fault Refusal := onDev (wdogKick val) s
/-- PARITY_ALERT (R394): the port retries the command; nothing that the model holds changes. -/
def execParityAlert (s : State) : Host.Outcome State Fault Refusal := onDev (fun d => d) s

end Sys2Proof.Machine
end

