-- ==== Sys2Proof/Machine/Security.lean ====
section
/-! DEFINITION. The world map's registers, fuses and keys, images and their verification, ownership, updates and secure debug
(R472 to R493). The worlds of targets are in Memory.lean. -/

namespace Sys2Proof.Machine

def Dev.setSec (d : Dev) (x : Security) : Dev := { d with sec := x }

/-- Bytes of words, each most significant byte first. -/
def msBytes (ws : List Word) : List Byte :=
  ws.flatMap (fun w => [BitVec.ofNat 8 (bits w 31 24), BitVec.ofNat 8 (bits w 23 16), BitVec.ofNat 8 (bits w 15 8), BitVec.ofNat 8 (bits w 7 0)])

/-- A word of bytes, most significant byte first. -/
def msWord (bs : List Byte) : Word := toWord (bytesNat (bs.take 4))

/-- Words of n × 4 bytes, most significant byte first. -/
def msWords : Nat → List Byte → List Word
  | 0, _ => []
  | n + 1, bs => msWord bs :: msWords n (bs.drop 4)

/-! ### The world map's registers (R474, R475) -/

/-- A write of a register of the secure page of SEC by secure firmware. A descriptor with LOCK = 1 ignores it. -/
def worldWrite (off : Nat) (w : Word) (d : Dev) : Dev :=
  if off == 0x8000 then d.setReg R.SEC_WORLD_LO w
  else if off == 0x8004 then d.setReg R.SEC_WORLD_HI (w &&& 0x0000000F)
  else if 0x8100 ≤ off && off < 0x8500 && off % 4 == 0 then
    let r := (off - 0x8100) / 16
    if off % 16 == 12 then d
    else if d.is (F.SEC_REGION_ATTR_LOCK r) then raise E.SEC_LOCKED_WRITE [] d
    else if off % 16 == 0 then d.setReg (R.SEC_REGION_BASE r) (w &&& 0x0FFFFFFF)
    else if off % 16 == 4 then d.setReg (R.SEC_REGION_LIMIT r) (w &&& 0x0FFFFFFF)
    else d.setReg (R.SEC_REGION_ATTR r) (w &&& 0xF0000000)
  else d

/-! ### Keys (R478 to R480) -/

/-- The Burjor is CLAIMED (R480). -/
def Dev.claimed (d : Dev) : Bool := d.sec.bankUsed != 0

/-- The bank in force: that of highest index in OWNER_BANK_USED (R479). -/
def Dev.ownerBank (d : Dev) : Nat := flog2 d.sec.bankUsed

/-- A key by its number, 1 owner or 2 vendor, if its stored record matches its fuses (R479). -/
def Dev.keyOf (d : Dev) (key : Nat) : Option (List Word) :=
  if key == 2 then (if Config.sha384 (msBytes Config.vendorKey) == Config.vendorKeyHash then some Config.vendorKey else none)
  else if key == 1 && d.claimed then
    match kfind d.sec.ownerKeys d.ownerBank, kfind d.sec.ownerHash d.ownerBank with
    | some k, some h => if Config.sha384 (msBytes k) == h then some k else none
    | _, _ => none
  else none

/-- The owner's key where the Burjor is claimed, else the vendor's (R480). -/
def Dev.ownerOrVendor (d : Dev) : Nat := if d.claimed then 1 else 2

/-- The key that the image of a KIND must carry (R480). -/
def Dev.imageKey (d : Dev) (kind : Nat) : Nat := if kind == 1 then 2 else d.ownerOrVendor

/-- May a signed message carry a KEY (R480)? -/
def Dev.msgKeyOk (d : Dev) (id : Nat) (w : List Word) (key : Nat) : Bool :=
  if id / 256 == 9 || id == 0x0B02 || id == 0x0B03 then key == d.ownerOrVendor
  else if id == 0x0B04 || id == 0x0B06 then key == d.imageKey (bits (wordAt w 0) 1 0)
  else if id == 0x0B07 then key == 2 || (d.claimed && key == 1)
  else key == 1 || key == 2

/-! ### Images (R481, R482) -/

/-- Base, from the start of the MRAM, and size of a slot of a KIND: 0 A, 1 B (R376). -/
def slotBase (kind slot : Nat) : Nat :=
  if kind == 1 then 0x100000 + 0x100000 * slot else if kind == 2 then 0x300000 + 0x200000 * slot else 0x700000 + 0x200000 * slot
def slotSize (kind : Nat) : Nat := if kind == 1 then 0x100000 else 0x200000

/-- n bytes of a slot from an offset. -/
def slotBytes (mem : List Host.Cell) (kind slot off n : Nat) : List Byte :=
  (List.range n).map (fun i => memGet mem (0x40000000 + slotBase kind slot + off + i))

/-- A word of a slot's header, most significant byte first. -/
def hdrWord (h : List Byte) (off : Nat) : Nat := bytesNat ((h.drop off).take 4)
def hdrByte (h : List Byte) (off : Nat) : Nat := (h.getD off 0).toNat

/-- A range lies in instruction or data SRAM (R371, R481). -/
def inSram (a n : Nat) : Bool :=
  (0x01000000 ≤ a && a + n ≤ 0x01040000) || (0x02000000 ≤ a && a + n ≤ 0x02040000)

/-- Header fields that R481 and R482 fix, apart from the signature, the hash and the version. -/
def headerOk (kind : Nat) (h : List Byte) : Bool :=
  let zero (a n : Nat) : Bool := ((h.drop a).take n).all (· == 0)
  let len := hdrWord h 0x0C
  let load := hdrWord h 0x10
  let entry := hdrWord h 0x14
  hdrWord h 0 == 0x48524631 && hdrByte h 4 == kind && hdrByte h 6 ≤ 64 && zero 7 1 && zero 0x18 8 && zero 0x50 48 && zero 0xE0 32 &&
    len % 4 == 0 && len ≤ slotSize kind - 256 && inSram load len && load ≤ entry && entry < load + len

/-- Hash and signature of a slot (R481, R482). -/
def imageSigned (mem : List Host.Cell) (kind slot : Nat) (d : Dev) : Bool :=
  let h := slotBytes mem kind slot 0 256
  let body := slotBytes mem kind slot 256 (min (hdrWord h 0x0C) (slotSize kind - 256))
  Config.sha384 body == msWords 12 (h.drop 0x20) && hdrByte h 5 == d.imageKey kind &&
    (match d.keyOf (d.imageKey kind) with
    | some k => Config.ecdsaVerify k (Config.sha384 (h.take 0x80)) (msWords 24 (h.drop 0x80))
    | none => false)

/-- SEC_VERSION of a slot's header. -/
def imageVersion (mem : List Host.Cell) (kind slot : Nat) : Nat := hdrByte (slotBytes mem kind slot 0 8) 6

/-- A slot verifies (R482). -/
def slotVerifies (mem : List Host.Cell) (kind slot : Nat) (d : Dev) : Bool :=
  headerOk kind (slotBytes mem kind slot 0 256) && imageSigned mem kind slot d && d.sec.rollback.getD (kind - 1) 0 ≤ imageVersion mem kind slot

/-- The header of the running image of a KIND, 128 bytes; none where no image runs. -/
def Dev.runHeader (d : Dev) (kind : Nat) : Option (List Byte) :=
  match d.sec.run.getD (kind - 1) none with
  | none => none
  | some slot => some (match kfind d.sec.header kind with
    | some h => h
    | none => (List.range 128).map (fun i => Config.mramByte (slotBase kind slot + i)))

/-- The measurement of the running image of a KIND, zero for none (R481, R489). -/
def Dev.measurement (d : Dev) (kind : Nat) : List Word :=
  match d.runHeader kind with
  | some h => Config.sha384 h
  | none => List.replicate 12 0

/-- Bytes are written to the MRAM by the monitor (R396, R485). -/
def mramWrite (off : Nat) (bs : List Byte) (s : State) : State := fabWrite (0x40000000 + off) bs [] 2 0x02 s

/-- FW pips of the MRAM that n bytes draw: 512 bytes for the 32 pips of a turn (R16, R485). -/
def fwPips (n : Nat) : Nat := (n + 15) / 16

/-- MAGIC of slot A of a KIND is zeroed (R485, R487). -/
def invalidateA (kind : Nat) (s : State) : State := mramWrite (slotBase kind 0) [0, 0, 0, 0] s

/-- Bytes of the image in a slot: its header and its body (R481). -/
def imageBytes (mem : List Host.Cell) (kind slot : Nat) : Nat :=
  min (slotSize kind) (256 + hdrWord (slotBytes mem kind slot 0 256) 0x0C)

/-- The image in one slot is copied over the other slot (R485, R487). -/
def copySlot (kind src dst : Nat) (s : State) : State :=
  mramWrite (slotBase kind dst) (slotBytes s.mem kind src 0 (imageBytes s.mem kind src)) s

/-- Waiting chunks are written, oldest first, as far as their FW pips have been granted (R42, R485). -/
def chunkDrain : Nat → State → State
  | 0, s => s
  | n + 1, s =>
    match s.dev.sec.chunks with
    | [] => s
    | (off, bs) :: r =>
      let s' := withPipsS 2 6 (fwPips bs.length) (fun s => mramWrite off bs { s with dev := s.dev.setSec { s.dev.sec with chunks := r } }) s
      if s'.dev.sec.chunks.length < n + 1 then chunkDrain n s' else s'

/-- What Horef and the monitor do when FW pips of the MRAM have been granted (R485). -/
def fwDrain (s : State) : State := chunkDrain s.dev.sec.chunks.length s

/-- The waiting chunks are in the MRAM: VERIFY looks at the slot once all of them are written. -/
def chunksWritten (s : State) : State :=
  s.dev.sec.chunks.foldl (fun s x => mramWrite x.1 x.2 s) { s with dev := s.dev.setSec { s.dev.sec with chunks := [] } }

/-! ### The boot chain (R483, R487) -/

/-- A BOOT that finds the attempt count of a TRIAL slot at 3 reverts it (R487). -/
def trialRevert (kind : Nat) (s : State) : State :=
  match kfind s.dev.sec.trial kind with
  | some n =>
    if 3 ≤ n then
      let s := invalidateA kind s
      { s with dev := raise E.SEC_TRIAL_REVERT [] (count1 (R.SEC_COUNT 3) (wearRecord (s.dev.setSec { s.dev.sec with trial := kdel s.dev.sec.trial kind }))) }
    else s
  | none => s

/-- A stage of BOOT verifies the slots of a KIND: the slot that runs, and the failures to report (R483). -/
def verifyStage (kind : Nat) (s : State) : State :=
  let s := trialRevert kind s
  let d := s.dev
  let a := slotVerifies s.mem kind 0 d
  let b := slotVerifies s.mem kind 1 d
  let fails := (if a then [] else [0x40000000 + slotBase kind 0]) ++ (if a || b then [] else [0x40000000 + slotBase kind 1])
  let slot : Option Nat := if a then some 0 else if b then some 1 else none
  { s with dev := d.setSec { d.sec with
      run := d.sec.run.set (kind - 1) slot
      header := (match slot with
        | some x => kset d.sec.header kind (slotBytes s.mem kind x 0 128)
        | none => kdel d.sec.header kind)
      bootFails := d.sec.bootFails ++ fails } }

/-- A reset of R467 adds 1 to the attempt count of every TRIAL slot A that runs (R487). -/
def trialAttempt (d : Dev) : Dev :=
  [1, 2, 3].foldl (fun d k =>
    match kfind d.sec.trial k with
    | some n => if d.sec.run.getD (k - 1) none == some 0 then wearRecord (d.setSec { d.sec with trial := kset d.sec.trial k (n + 1) }) else d
    | none => d) d

/-! ### Ownership, time, update (R484 to R487, R492) -/

/-- What a message returns that may change memory: the machine with it, its status and its payload. -/
abbrev StRes := State × Nat × List Word

/-- SEC_STATUS as it reads. -/
def secStatus (d : Dev) : Word :=
  let tr (k : Nat) : Nat := b2n (kfind d.sec.trial k).isSome
  pack32 [(31, 31, b2n d.claimed), (30, 29, d.ownerBank), (28, 28, tr 2), (27, 27, tr 3), (26, 26, tr 1), (25, 25, b2n d.sec.session.isSome),
    (23, 16, d.get F.SEC_STATUS_SCOPE)]

/-- ROLLBACK as it reads. -/
def rollbackWord (d : Dev) : Word :=
  pack32 [(23, 16, d.sec.rollback.getD 0 0), (15, 8, d.sec.rollback.getD 1 0), (7, 0, d.sec.rollback.getD 2 0)]

/-- SET_TIME (R66, R492). -/
def mSetTime (w : List Word) (d : Dev) : MsgRes :=
  let v := bits (wordAt w 0) 15 0 * 2 ^ 32 + (wordAt w 1).toNat
  if v < d.time.st then (d, 9, [])
  else (wearRecord ({ d with time := { d.time with st := v, stMram := v } }.put F.TIME_STATUS_ST_VALID 1), 0, [])

/-- CLAIM_OWNERSHIP (R484): the next bank whose bit is 0 and whose hash fuses are blank. -/
def mClaimOwnership (w : List Word) (d : Dev) : MsgRes :=
  let key := w.take 24
  match (List.range 4).find? (fun k => nbits d.sec.bankUsed k k == 0 && (kfind d.sec.ownerHash k).isNone && d.sec.bankUsed < 2 ^ k) with
  | none => (d, 9, [])
  | some k =>
    let d := d.setSec { d.sec with
      ownerKeys := kset d.sec.ownerKeys k key
      ownerHash := kset d.sec.ownerHash k (Config.sha384 (msBytes key))
      bankUsed := d.sec.bankUsed + 2 ^ k }
    (raise E.SEC_OWNER_CHANGED [] d, 0, [toWord k])

/-- FW_BEGIN (R485). -/
def mFwBegin (w : List Word) (d : Dev) : MsgRes :=
  let kind := bits (wordAt w 0) 1 0
  let total := (wordAt w 1).toNat
  if d.mode != .standby then (d, 3, [])
  else if d.sec.session.isSome then (d, 1, [])
  else if kind == 0 || slotSize kind < total then (d, 5, [])
  else (d.setSec { d.sec with session := some { kind := kind, total := total, hash := (w.drop 2).take 12 } }, 0, [])

/-- The copy and the invalidation that FW_BEGIN started end (R485). -/
def fwPrepared (s : State) : State :=
  match s.dev.sec.session with
  | none => s
  | some x =>
    if x.ready then s
    else
      let copies := !slotVerifies s.mem x.kind 1 s.dev && s.dev.sec.run.getD (x.kind - 1) none == some 0
      withPipsS 2 6 (fwPips 4 + (if copies then fwPips (imageBytes s.mem x.kind 0) else 0)) (fun s =>
        let s := invalidateA x.kind (if copies then copySlot x.kind 0 1 s else s)
        { s with dev := raise E.SEC_FW_READY [] (s.dev.setSec { s.dev.sec with session := some { x with ready := true } }) }) s

/-- FW_CHUNK (R485, R492). -/
def mFwChunk (w : List Word) (s : State) : StRes :=
  let d := s.dev
  let off := (wordAt w 0).toNat
  let data := w.drop 1
  if d.mode != .standby then (s, 3, [])
  else
    match d.sec.session with
    | none => (s, 3, [])
    | some x =>
      if !x.ready then (s, 1, [])
      else if off % 4 != 0 || data.isEmpty || 125 < data.length || x.total < off + 4 * data.length then (s, 5, [])
      else (fwDrain { s with dev := d.setSec { d.sec with chunks := d.sec.chunks ++ [(slotBase x.kind 0 + off, msBytes data)] } }, 0, [])

/-- VERIFY fails with a status: FW_VERIFY_FAIL counts it, and the session stays open (R486). -/
def verifyFails (st : Nat) (s : State) : StRes := ({ s with dev := count1 (R.SEC_COUNT 2) s.dev }, st, [])

/-- FW_ACTIVATE with OP = VERIFY (R486). -/
def mFwVerify (w : List Word) (s : State) : StRes :=
  let d := s.dev
  let kind := bits (wordAt w 0) 1 0
  if d.mode != .standby then (s, 3, [])
  else
    match d.sec.session with
    | none => (s, 3, [])
    | some x =>
      let s := chunksWritten s
      let d := s.dev
      if kind != x.kind then (s, 5, [])
      else if Config.sha384 (slotBytes s.mem kind 0 0 x.total) != x.hash || !headerOk kind (slotBytes s.mem kind 0 0 256) ||
          !imageSigned s.mem kind 0 d then verifyFails 6 s
      else if imageVersion s.mem kind 0 < d.sec.rollback.getD (kind - 1) 0 then verifyFails 9 s
      else
        let d := wearRecord (d.setSec { d.sec with session := none, trial := kset d.sec.trial kind 0, applyDue := d.sec.applyDue || bit (wordAt w 0) 8 })
        ({ s with dev := d }, 0, [])

/-- FW_ACTIVATE with OP = COMMIT (R487). -/
def mFwCommit (w : List Word) (s : State) : StRes :=
  let d := s.dev
  let kind := bits (wordAt w 0) 1 0
  if d.mode != .standby then (s, 3, [])
  else if kind == 0 || (kfind d.sec.trial kind).isNone || d.sec.run.getD (kind - 1) none != some 0 then (s, 5, [])
  else
    let v := max (d.sec.rollback.getD (kind - 1) 0) (imageVersion s.mem kind 0)
    let d := wearRecord (d.setSec { d.sec with rollback := d.sec.rollback.set (kind - 1) v, trial := kdel d.sec.trial kind, copying := some kind })
    ({ s with dev := d }, 0, [])

/-- FW_ACTIVATE (R486, R487). -/
def mFwActivate (w : List Word) (s : State) : StRes := if bit (wordAt w 0) 4 then mFwCommit w s else mFwVerify w s

/-- The copy of slot A into slot B ends (R487). -/
def fwCopyDone (s : State) : State :=
  match s.dev.sec.copying with
  | none => s
  | some k =>
    withPipsS 2 6 (fwPips (imageBytes s.mem k 0)) (fun s =>
      let s := copySlot k 0 1 s
      { s with dev := raise E.SEC_FW_COMMITTED [] (s.dev.setSec { s.dev.sec with copying := none }) }) s

/-- A session ends when the mode leaves STANDBY (R485). -/
def secBoundary (d : Dev) : Dev := if d.mode == .standby then d else d.setSec { d.sec with session := none, chunks := [] }

/-! ### Attestation (R488, R489) -/

/-- Where a CUR_* mirror at a key shows an SH register: that register's key. -/
def curTarget (k : Nat) : Option Nat :=
  match regRow k with
  | some r => (match r.cur with
    | some o => (match regRow (k / 65536 * 65536 + o) with
      | some t =>
        let (i, j) := (r.hit (k % 65536)).getD (0, 0)
        some (k / 65536 * 65536 + t.off + i * t.s0 + j * t.s1)
      | none => none)
    | none => none)
  | none => none

/-- Is a register block present on this variant (R2, R6)? -/
def Dev.blockPresent (d : Dev) (b : Nat) : Bool := !d.absentKey (b * 65536)

/-- CFG_DIGEST: CRC-32C over every CUR_* register of the present blocks in ascending offset (R489). -/
def cfgDigest (d : Dev) : Word :=
  let words := (List.range 19).flatMap (fun b =>
    if !d.blockPresent b then [] else (List.range 8192).filterMap (fun i => (curTarget (b * 65536 + 4 * i)).map d.reg))
  toWord (crc32c (msBytes words))

/-- WORLD_DIGEST: CRC-32C over WORLD_LO, WORLD_HI and all descriptor registers in ascending offset (R489). -/
def worldDigest (d : Dev) : Word :=
  let hi := setBits (d.reg R.SEC_WORLD_HI) 4 4 (b2n (d.worldBit 36))
  toWord (crc32c (msBytes ([d.reg R.SEC_WORLD_LO, hi] ++
    (List.range 64).flatMap (fun r => [d.reg (R.SEC_REGION_BASE r), d.reg (R.SEC_REGION_LIMIT r), d.reg (R.SEC_REGION_ATTR r)]))))

/-- SEC_VERSION of the running image of a KIND, 0 for none. -/
def Dev.runVersion (d : Dev) (kind : Nat) : Nat :=
  match d.runHeader kind with
  | some h => hdrByte h 6
  | none => 0

/-- GET_ATTESTATION (R488, R489). -/
def mGetAttestation (w : List Word) (d : Dev) : MsgRes :=
  if !Config.identityOk then (d, 3, [])
  else if bit (wordAt w 8) 0 then
    (d, 0, [toWord (Config.dieId.toNat / 2 ^ 32), toWord Config.dieId.toNat] ++ (List.range 48).map (fun i => Config.certWord (i + 2)))
  else
    let head : List Word := [
      pack32 [(31, 16, 1), (15, 0, d.chipId)],
      pack32 [(31, 28, d.get F.PWR_FEATURES_VARIANT), (27, 27, d.get F.TIME_STATUS_ST_VALID), (26, 26, d.get F.PWR_STATUS_RECOVERY), (25, 25, b2n d.claimed),
        (24, 24, b2n !d.sec.trial.isEmpty), (23, 16, d.get F.SEC_STATUS_SCOPE), (7, 0, d.get F.TRN_STATUS_CFG_GEN)],
      toWord (d.time.st / 2 ^ 32), toWord d.time.st, toWord (d.clk.turn / 2 ^ 32), toWord d.clk.turn,
      pack32 [(23, 16, d.runVersion 1), (15, 8, d.runVersion 2), (7, 0, d.runVersion 3)], rollbackWord d]
    let body := head ++ d.measurement 1 ++ d.measurement 2 ++ d.measurement 3 ++
      [gpbCheckOf d.grd.gpb, gpbCheckOf d.grd.pending, cfgDigest d, worldDigest d] ++
      (if d.claimed then kget d.sec.ownerHash d.ownerBank [] else List.replicate 12 0) ++ w.take 8
    (d, 0, body ++ Config.ecdsaSign (Config.sha384 (msBytes body)))

/-! ### Secure debug (R490, R491) -/

/-- A new nonce is drawn (R490). -/
def drawNonce (d : Dev) : Dev :=
  (List.range 8).foldl (fun d i =>
    let (x, d) := drawFree (2 ^ 32 - 1) d
    d.setReg (R.SEC_DEBUG_NONCE i) (toWord x)) d

/-- A DEBUG_CHALLENGE under a key, 1 owner or 2 vendor (R490). -/
def mDebugChallenge (key : Nat) (w : List Word) (d : Dev) : MsgRes :=
  let scope := bits (wordAt w 0) 7 0
  let fail (st : Nat) : MsgRes := (report 0x1B0 0x16 0 0 0 none (count1 (R.SEC_COUNT 1) d), st, [])
  if 16 ≤ scope then (d, 5, [])
  else if wordAt w 9 != toWord (Config.dieId.toNat / 2 ^ 32) || wordAt w 10 != toWord Config.dieId.toNat then fail 5
  else if (List.range 8).any (fun i => wordAt w (1 + i) != d.reg (R.SEC_DEBUG_NONCE i)) then fail 9
  else if 8 ≤ scope && key != 2 then fail 3
  else
    let now := if scope == 0 then 0 else d.get F.SEC_STATUS_SCOPE ||| scope
    let d := raise E.SEC_DEBUG_UNLOCK [] (drawNonce (d.put F.SEC_STATUS_SCOPE now))
    (d, 0, [toWord now])

/-- A debug scope is unlocked: 0 EXTEST, 1 NS_DEBUG, 2 TEST_MODE, 3 S_DEBUG. -/
def Dev.scope (d : Dev) (i : Nat) : Bool := nbits (d.get F.SEC_STATUS_SCOPE) i i == 1

/-! ### Commands -/

/-- FW_SLOT_PREPARED (R485). -/
def execFwSlotPrepared (s : State) : Host.Outcome State Fault Refusal := .next (fwPrepared s)
/-- FW_COMMIT_COPY_DONE (R487). -/
def execFwCommitCopyDone (s : State) : Host.Outcome State Fault Refusal := .next (fwCopyDone s)
/-- WORLD_MAP_WRITE (R475). -/
def execWorldMapWrite (off : Nat) (val : Word) (s : State) : Host.Outcome State Fault Refusal := onDev (worldWrite off val) s

end Sys2Proof.Machine
end

