-- ==== Sys2Proof/Machine/Modes.lean ====
section
/-! DEFINITION. Operating modes: changes of mode, SAFE, the scan, resets and BOOT (R334 to R352, R467, R516). -/

namespace Sys2Proof.Machine

def Dev.setPwr (d : Dev) (p : Power) : Dev := { d with pwr := p }

/-- The code of a mode (R200). -/
def modeCode : Mode → Nat
  | .boot => 0 | .standby => 1 | .calibrate => 2 | .stream => 3 | .capture => 4 | .hybrid => 5 | .frequency => 6 | .scan => 7
  | .hold => 8 | .dormant => 9 | .safe => 10 | .test => 11

/-- Every guard condition of R350 holds (PWR_STATUS.GUARD_CLEAR). -/
def Dev.guardAllClear (d : Dev) : Bool :=
  d.grd.gpb.isSome && d.reg R.GRD_TRIP_LATCHED == 0 && !d.is F.GRD_TRIP_ACTIVE_DEMAND && 2 ≤ d.guardVotes

/-- PWR_STATUS as it reads. -/
def pwrStatus (d : Dev) : Word :=
  let slot (k : Nat) : Nat := (d.sec.run.getD k none).getD 0
  pack32 [(31, 28, d.get F.PWR_STATUS_MODE), (27, 24, d.get F.PWR_STATUS_HOLD_FROM), (23, 23, d.get F.PWR_STATUS_RECOVERY),
    (22, 22, slot 1), (21, 21, slot 0), (20, 20, b2n d.guardAllClear), (19, 16, d.get F.PWR_STATUS_SAFE_CAUSE), (15, 14, d.get F.PWR_STATUS_BOOT_ERR)]

/-! ### The scan (R340, R341) -/

/-- A masked channel of the scan (SCAN_MASK). -/
def Dev.scanMasked (d : Dev) (n : Nat) : Bool := bit (d.reg (if n < 32 then R.PWR_SCAN_MASK_LO else R.PWR_SCAN_MASK_HI)) (n % 32)

/-- Steps of a scan; 0 means 1 024. -/
def Dev.scanSteps (d : Dev) : Nat := if d.get F.PWR_SCAN_CFG_N_STEPS == 0 then 1024 else d.get F.PWR_SCAN_CFG_N_STEPS

/-- v of step k (R340). -/
def scanValueAt (param start : Nat) (step : Int) (k : Nat) : Nat :=
  (clampInt 0 (if param == 2 then 4095 else 1023) (start + step * k)).toNat

/-- The threshold cores of the masked channels swap to hold v, or without a scan the active value (R82, R340). -/
def scanCores (v : Option Nat) (d : Dev) : Dev :=
  let p := d.get F.PWR_SCAN_CFG_PARAM
  if 2 ≤ p then d
  else (List.range 64).foldl (fun d n =>
    if !d.scanMasked n then d
    else
      let w := d.reg (R.AFE_THR n)
      let w := match v with
        | some v => if p == 0 then setBits w 9 0 v else setBits w 25 16 v
        | none => w
      let c := d.afeCh n
      d.setAfeCh n { c with core := !c.core, cores := if c.core then (w, c.cores.2) else (c.cores.1, w) }) d

/-- A masked channel is held under priorities 1 to 3 of R74 (R340). -/
def Dev.scanHeld (d : Dev) : Bool := (List.range 64).any (fun n => d.scanMasked n && d.biasHeld n)

/-- Step k of the scan begins (R340). -/
def scanStep (k : Nat) (d : Dev) : Dev :=
  let p := d.get F.PWR_SCAN_CFG_PARAM
  let v := scanValueAt p (d.get F.PWR_SCAN_RANGE_START) (d.geti F.PWR_SCAN_RANGE_STEP) k
  let d := d.setPwr { d.pwr with scan := some { k := k, v := v, window := p != 2, held := p != 2 && d.scanHeld } }
  (scanCores (some v) d).put F.PWR_SCAN_STATUS_STEP k |>.put F.PWR_SCAN_STATUS_WAIT_SLEW (b2n (p == 2))

/-- The scan begins at the boundary that enters SCAN (R340). -/
def scanStart (d : Dev) : Dev := scanStep 0 ((d.put F.PWR_SCAN_STATUS_RUNNING 1).put F.PWR_SCAN_STATUS_DONE 0)

/-- The four items of a step (R341). -/
def scanEmit (aborted : Bool) (r : ScanRun) (d : Dev) : Dev :=
  let t : Stamp := { turn := d.clk.turn, ct := 0, fb := 0 }
  (List.range 4).foldl (fun d q =>
    let count (n : Nat) : Nat := if d.scanMasked n then kget r.counts n 0 else 0
    emitTo 132 { t := t, src := 132, words := [
      pack64 [(63, 60, 9), (57, 54, 9), (53, 40, 0x3FFF), (39, 0, t.t40)],
      pack64 [(63, 54, r.k), (53, 52, q), (51, 51, b2n aborted), (50, 50, b2n r.held), (43, 32, r.v), (31, 0, r.turns)]] ++
      (List.range 8).map (fun i => pack64 [(63, 32, count (16 * q + 2 * i)), (31, 0, count (16 * q + 2 * i + 1))]) } d) d

/-- The scan ends: the active values return (R340). -/
def scanEnd (d : Dev) : Dev :=
  ((scanCores none d).setPwr { d.pwr with scan := none } |>.put F.PWR_SCAN_STATUS_RUNNING 0).put F.PWR_SCAN_STATUS_WAIT_SLEW 0

/-- SCAN is left before DONE (R340). -/
def scanAbort (d : Dev) : Dev :=
  match d.pwr.scan with
  | none => d
  | some r => scanEnd (if r.window then scanEmit true r d else d)

/-- A leading edge of a discriminator is counted in an open window (R340). -/
def scanEdge (n : Nat) (high : Bool) (d : Dev) : Dev :=
  match d.pwr.scan with
  | some r =>
    if r.window && r.turns < d.get F.PWR_SCAN_CFG_STEP_TURNS && d.scanMasked n && d.is F.PWR_SCAN_CFG_UNIT == high then
      d.setPwr { d.pwr with scan := some { r with counts := kset r.counts n (min (kget r.counts n 0 + 1) 0xFFFFFFFF) } }
    else d
  | none => d

/-- A whole turn of an open window ends (R340, R341). -/
def scanBoundary (d : Dev) : Dev :=
  match d.pwr.scan with
  | some r =>
    if r.window && r.turns < d.get F.PWR_SCAN_CFG_STEP_TURNS then
      d.setPwr { d.pwr with scan := some { r with turns := r.turns + 1, held := r.held || d.scanHeld } }
    else d
  | none => d

/-- The count window of a step opens: for BTRIM once OUT equals the target on every masked channel that is not held (R340). -/
def scanOpen (d : Dev) : Dev :=
  match d.pwr.scan with
  | some r =>
    if !r.window && (List.range 64).all (fun n => !d.scanMasked n || d.biasHeld n || d.get (F.AFE_BTRIM_OUT_OUT n) == d.get (F.AFE_BTRIM_OUT_TARGET n)) then
      (d.setPwr { d.pwr with scan := some { r with window := true, held := d.scanHeld } }).put F.PWR_SCAN_STATUS_WAIT_SLEW 0
    else d
  | none => d

/-- The count window of a step ends after STEP_TURNS whole turns (R340). -/
def scanStepEnd (d : Dev) : Dev :=
  match d.pwr.scan with
  | some r =>
    if r.window && d.get F.PWR_SCAN_CFG_STEP_TURNS ≤ r.turns then
      let d := scanEmit false r d
      if r.k + 1 < d.scanSteps then scanStep (r.k + 1) d
      else raise E.PWR_SCAN_DONE [] ((scanEnd d).put F.PWR_SCAN_STATUS_DONE 1)
    else d
  | none => d

/-! ### Changes of mode (R335, R336, R349, R350, R516) -/

/-- The Burjor changes the mode itself: the active MODE_CTRL follows (R516). -/
def setMode (m : Mode) (d : Dev) : Dev :=
  (d.put F.PWR_STATUS_MODE (modeCode m)).setReg R.PWR_MODE_CTRL (toWord (modeCode m))

/-- What follows from a change of the mode in force at a boundary. -/
def modeChanged (old : Mode) (d : Dev) : Dev :=
  let new := d.mode
  if new == old then d
  else
    let d := if new == .hold then d.put F.PWR_STATUS_HOLD_FROM (modeCode old) else d.put F.PWR_STATUS_HOLD_FROM 0xF
    let d := tdcModeChange old new d
    let d := if old == .scan then scanAbort d else d
    let d := if new == .scan then scanStart d else d
    let d := secBoundary d
    let d := raise E.PWR_MODE_CHANGED [] (count1 (R.PWR_COUNT 0) d)
    if new == .safe then raise E.PWR_SAFE_ENTERED [] (count1 (R.PWR_COUNT 1) d) else d

/-- The automatic entry to SAFE and the exit from SAFE, before every slot due at the boundary (R349, R350). -/
def autoMode (d : Dev) : Dev :=
  let req := d.safeReq
  if d.mode == .boot then d
  else
    let d := { d with safeReq := 0 }
    if d.mode == .test then d
    else if req != 0 then
      let d := (d.setPwr { d.pwr with exitOk := false }).put F.PWR_STATUS_SAFE_CAUSE (d.get F.PWR_STATUS_SAFE_CAUSE ||| req)
      if d.mode == .safe then d else setMode .safe d
    else if d.pwr.exitOk && d.mode == .safe then
      raise E.PWR_SAFE_EXIT [] (setMode .standby (d.setPwr { d.pwr with exitOk := false }))
    else d

/-- A set that changed the mode to SAFE has landed (R349, HOST). `auto` is the mode before the slots. -/
def hostSafe (auto : Mode) (d : Dev) : Dev :=
  if d.mode == .safe && auto != .safe then d.put F.PWR_STATUS_SAFE_CAUSE (d.get F.PWR_STATUS_SAFE_CAUSE ||| 8) else d

/-- SAFE_ACK (R350). -/
def mSafeAck (d : Dev) : MsgRes :=
  if d.mode != .safe || !d.flt.holds.isEmpty || d.reg R.GRD_TRIP_LATCHED != 0 || d.is F.GRD_TRIP_ACTIVE_DEMAND || d.guardVotes < 2 then
    (count1 (R.PWR_COUNT 2) d, 3, [])
  else if d.grd.gpb.isNone then (d, 7, [])
  else ((d.setPwr { d.pwr with exitOk := true }).put F.PWR_STATUS_SAFE_CAUSE 0, 0, [])

/-! ### Resets (R343, R344, R467, R486) -/

/-- Isolations and remaps that a reset keeps: remaps last until power-on reset (R465). -/
def keepsIsolation (por : Bool) (el : Elem) : Bool :=
  match el with
  | .sram _ _ => !por
  | .row _ => !por
  | _ => false

/-- Safety holds whose element has a test queued or running: a reset that abandons the test leaves them in force (R466). -/
def heldTests (d : Dev) : List Elem :=
  d.flt.holds.filter (fun h => d.flt.tests.any (fun t => t.elem == h) || (match d.flt.running with
    | some r => r.1.elem == h
    | none => false))

/-- The Burjor is reset: everything takes its reset value but the always-on domain and what MRAM and fuses hold (R343, R344).
`cause` is the bit of RESET_CAUSE. -/
def resetDev (por : Bool) (cause : Nat) (d : Dev) : Dev :=
  let z : Dev := {}
  let aon : KMap Word := [R.FLT_RESET_FAULT_KIND, R.FLT_RESET_FAULT_LT, R.FLT_RESET_FAULT_PC].foldl (fun m k => kset m k (if por then 0 else d.reg k)) []
  let d' : Dev := { z with
    regs := aon
    clk := { z.clk with refCycles := if por then 0 else d.clk.cycles }
    time := { z.time with
      st := if por then d.time.stMram else d.time.st
      stMram := d.time.stMram
      stCycles := if por then 0 else d.time.stCycles + d.clk.ct / 4 }
    grd := { z.grd with stored := d.grd.stored, log := d.grd.log.filter (fun e => logPersists (bits (wordAt e 0) 31 24)) }
    mon := { z.mon with stored := d.mon.stored }
    sec := { z.sec with
      ownerKeys := d.sec.ownerKeys
      ownerHash := d.sec.ownerHash
      bankUsed := d.sec.bankUsed
      rollback := d.sec.rollback
      counter := d.sec.counter
      trial := d.sec.trial
      run := [none, none, none] }
    ram := { z.ram with
      wear := d.ram.wearKept
      wearKept := d.ram.wearKept
      remap := if por then [] else d.ram.remap
      rows := if por then [] else d.ram.rows
      retired := if por then [] else d.ram.retired }
    flt := { z.flt with isolated := d.flt.isolated.filter (keepsIsolation por), holds := if por then [] else heldTests d, resetFault := if por then false else d.flt.resetFault }
    pwr := { z.pwr with boot := .inReset, porHeld := por || d.pwr.porHeld }
    safeReq := if por || (heldTests d).isEmpty then 0 else 4
    free := d.free }
  let d' := d'.put F.PWR_STATUS_MODE 0
  let d' := d'.setReg R.PWR_RESET_CAUSE (if por then 1 else setBits (d.reg R.PWR_RESET_CAUSE) cause cause 1)
  let d' := if por then d' else d'.put F.TIME_STATUS_ST_VALID (d.get F.TIME_STATUS_ST_VALID)
  drawNonce ((wearShow d.ram.wearKept d').put F.PWR_FEATURES_SDRAM_GIB 0 |>.put F.MEM_STATUS_SDRAM_OK 0)

/-- A reset of R467: the always-on domain records the kind, LT and the program counter first. -/
def supervisionReset (kind cause : Nat) (pc : Word) (d : Dev) : Dev :=
  let d := trialAttempt d
  let d := ((d.setReg R.FLT_RESET_FAULT_KIND (toWord kind)).setReg R.FLT_RESET_FAULT_LT d.lt).setReg R.FLT_RESET_FAULT_PC pc
  resetDev false cause (d.setFlt { d.flt with resetFault := true })

/-! ### BOOT (R345, R346, R383, R395, R483) -/

/-- BOOT goes to its next step. -/
def bootTo (p : BootPhase) (d : Dev) : Dev := d.setPwr { d.pwr with boot := p }

/-- Reset releases: the boot ROM starts at local turn 0 (R345). -/
def bootStart (d : Dev) : Dev :=
  if d.pwr.boot == .inReset && !d.pwr.porHeld then
    { bootTo .pll d with clk := d.clk.moveTo 0 0 }
  else d

/-- A cell lies in an SRAM. -/
def cellInSram (a : Nat) : Bool := a < 0x40000000
/-- A cell lies in the SDRAM. -/
def cellInSdram (a : Nat) : Bool := sdramBase ≤ a

/-- A verification step of BOOT for a KIND. -/
def bootVerify (kind : Nat) (s : State) : State :=
  let s := verifyStage kind s
  let d := s.dev
  let ok := (d.sec.run.getD (kind - 1) none).isSome
  let d :=
    if kind == 1 then
      (if ok then bootTo .horef d else (bootTo .stuck d).put F.PWR_STATUS_BOOT_ERR 2 |> fun d => d.setFlt { d.flt with bootAlert := true })
    else if kind == 2 then
      (if ok then bootTo .user d else ((bootTo .user d).put F.PWR_STATUS_BOOT_ERR 3).put F.PWR_STATUS_RECOVERY 1)
    else bootTo (if d.is F.PWR_FEATURES_SDRAM then .sdram else .finish) d
  { s with dev := d }

/-- The SDRAM has been trained and tested: SDRAM_GIB and the queue store follow (R7, R224, R394, R395). -/
def sdramTrained (gib : Nat) (info : Word) (s : State) : State :=
  let g := min gib 32
  let d := bootTo .finish s.dev
  let d := (d.put F.PWR_FEATURES_SDRAM_GIB g).put F.MEM_STATUS_SDRAM_OK (b2n (g != 0))
  let d := (d.setReg R.MEM_SDRAM_INFO (if g == 0 then 0 else info)).put F.TQ_STATUS_STORE (b2n (g == 0))
  let pages := toWord (if g == 0 then 1024 else areaPages g)
  let d := (d.setReg R.TQ_AREA_PAGES pages).setShadow R.TQ_AREA_PAGES pages
  { s with dev := d, mem := s.mem.filter (fun c => !cellInSdram c.1) }

/-- Horef loads the stored calibration sets, and the factory's where none is stored (R410). -/
def loadCalibration (d : Dev) : Dev :=
  (List.range 8).foldl (fun d g =>
    let (o, v) := kget d.mon.stored g (Config.factoryCal g)
    (d.setReg (R.MON_CAL_OFFSET g) (valueWord o)).setReg (R.MON_CAL_GAIN g) (toWord (v % 2 ^ 24))) d

/-- Horef loads TX_DELAY and RX_DELAY of the timing ports from the factory values (R345, PORT_CAL). -/
def loadPortCal (d : Dev) : Dev :=
  [(0, 0), (0, 1), (1, 0), (1, 1)].foldl (fun d x =>
    let w := toWord (Config.factoryPortCal x.1 x.2 % 65536)
    (d.setReg (R.TIME_PORT_CAL x.1 x.2) w).setShadow (R.TIME_PORT_CAL x.1 x.2) w) d

/-! ### Commands -/

/-- A command of BOOT that takes effect in one step of it alone. -/
def inBoot (p : BootPhase) (f : State → State) (s : State) : Host.Outcome State Fault Refusal :=
  .next (if s.dev.pwr.boot == p then f s else s)

/-- SCAN_WINDOW_OPEN (R340). -/
def execScanWindowOpen (s : State) : Host.Outcome State Fault Refusal := onDev scanOpen s
/-- SCAN_STEP_END (R340). -/
def execScanStepEnd (s : State) : Host.Outcome State Fault Refusal := onDev scanStepEnd s
/-- POWER_ON_RESET (R343). -/
def execPowerOnReset (s : State) : Host.Outcome State Fault Refusal := onDev (resetDev true 0) s
/-- POR_RELEASE (R343). -/
def execPorRelease (s : State) : Host.Outcome State Fault Refusal := onDev (fun d => d.setPwr { d.pwr with porHeld := false }) s
/-- RESET_N_ASSERT (R344). -/
def execResetNAssert (s : State) : Host.Outcome State Fault Refusal := onDev (resetDev false 1) s
/-- RESET_RELEASE (R345). -/
def execResetRelease (s : State) : Host.Outcome State Fault Refusal := onDev bootStart s
/-- NO_REFCLK_TIMEOUT (R345). -/
def execNoRefclkTimeout (s : State) : Host.Outcome State Fault Refusal :=
  inBoot .pll (fun s => { s with dev := (bootTo .stuck s.dev).put F.PWR_STATUS_BOOT_ERR 1 }) s
/-- BOOT_PLL_LOCK (R345): the fuses are read, and FEATURES is fixed but for SDRAM_GIB. -/
def execBootPllLock (s : State) : Host.Outcome State Fault Refusal :=
  inBoot .pll (fun s => { s with dev := ((bootTo .sram s.dev).setReg R.PWR_FEATURES Config.features).put F.PWR_FEATURES_SDRAM_GIB 0 }) s
/-- BOOT_SRAM_INIT_DONE (R383). -/
def execBootSramInitDone (s : State) : Host.Outcome State Fault Refusal :=
  inBoot .sram (fun s => { s with dev := bootTo .monitor s.dev, mem := s.mem.filter (fun c => !cellInSram c.1) }) s
/-- BOOT_MONITOR_VERIFY (R346, R483). -/
def execBootMonitorVerify (s : State) : Host.Outcome State Fault Refusal := inBoot .monitor (bootVerify 1) s
/-- BOOT_HOREF_VERIFY (R346, R483, R487). -/
def execBootHorefVerify (s : State) : Host.Outcome State Fault Refusal := inBoot .horef (bootVerify 2) s
/-- BOOT_USER_VERIFY (R483). -/
def execBootUserVerify (s : State) : Host.Outcome State Fault Refusal := inBoot .user (bootVerify 3) s
/-- BOOT_SDRAM_TRAIN_DONE (R395). -/
def execBootSdramTrainDone (gib : Nat) (info : Word) (s : State) : Host.Outcome State Fault Refusal := inBoot .sdram (sdramTrained gib info) s
/-- WATCHDOG_EXPIRE (R467). -/
def execWatchdogExpire (pc : Word) (s : State) : Host.Outcome State Fault Refusal :=
  onDev (fun d => if d.wdogRuns && d.wdogPeriod ≤ d.flt.sinceKick then supervisionReset 0x12 2 pc d else d) s
/-- LOCKSTEP_MISMATCH (R467). -/
def execLockstepMismatch (pc : Word) (s : State) : Host.Outcome State Fault Refusal := onDev (supervisionReset 0x11 3 pc) s
/-- ACTIVATE_RESET (R486). -/
def execActivateReset (s : State) : Host.Outcome State Fault Refusal :=
  onDev (fun d => if d.sec.applyDue then resetDev false 1 d else d) s

end Sys2Proof.Machine
end

