-- ==== Sys2Proof/Machine/Turns.lean ====
section
/-! DEFINITION. The turn machine: what happens at a boundary, at the guard window, at the freeze and at a pip boundary (R17 to
R35), the budgets (R41 to R43) and the edges of the channel comparators (R80). -/

namespace Sys2Proof.Machine

/-! ### Budgets (R41 to R43) -/

/-- The three budgeted resources and the seven activities (R16). -/
def budgetCells : List (Nat × Nat) := (List.range 3).flatMap (fun r => (List.range 7).map (fun a => (r, a)))

/-- Pips per turn in force for an activity on a resource; SDRAM that is not fitted grants nothing (R43). -/
def Dev.budgetPips (d : Dev) (r a : Nat) : Nat :=
  if r == 1 && d.reservoir then 0 else d.get (F.TRN_BUDGET_PIPS r a)

/-- An activity with a request pending and no allowance left is stalled: counted once in a turn (R42). -/
def stallMark (r a : Nat) (d : Dev) : Dev :=
  let b := d.budAct r a
  if b.want != 0 && b.allow == 0 && !b.stalled then
    raise E.TRN_BUDGET_STALL [] (count1 (R.TRN_BUDGET_STALL r a) (d.setBudAct r a { b with stalled := true }))
  else d

/-- The activities of a resource in round-robin order after the last one granted (R42). -/
def robinOrder (last : Nat) : List Nat := (List.range 7).map (fun i => (last + 1 + i) % 7)

/-- An idle resource grants one burst of at most 16 ct to the next activity that has allowance left (R42). -/
def budgetGrant (r : Nat) (d : Dev) : Dev :=
  let r := r % 3
  let d := (List.range 7).foldl (fun d a => stallMark r a d) d
  if (d.bud.burst.getD r none).isSome then d
  else
    match (robinOrder (d.bud.last.getD r 6)).find? (fun a =>
        (d.budAct r a).want != 0 && (d.budAct r a).allow != 0 && d.budgetPips r a != 0) with
    | none => d
    | some a => { d with bud := { d.bud with burst := d.bud.burst.set r (some { act := a, ct := d.clk.ct }), last := d.bud.last.set r a } }

/-- ct of an activity's allowance are used up; the excess is debt (R42). -/
def budgetUse (held : Nat) (b : BudAct) : BudAct :=
  { b with used := b.used + held, allow := b.allow - held, debt := b.debt + (held - b.allow) }

/-- A turn ended with debt (R42). -/
def budgetOverrun (r a : Nat) (d : Dev) : Dev := raise E.TRN_BUDGET_OVERRUN [] (count1 (R.TRN_BUDGET_OVERRUN r a) d)

/-- A burst has held its resource for `held` ct in all. It is charged to the turn of its grant; what runs past the end of that
turn's allowance is debt, which a burst that outlasts its turn takes from the turn that follows (R42; DEDUCED, log entry 18). -/
def burstCharge (r held : Nat) (x : Burst) (d : Dev) : Dev :=
  let b := d.budAct r x.act
  match x.left with
  | none => d.setBudAct r x.act (budgetUse held b)
  | some l =>
    let rest := held - x.charged
    let past := rest - l
    let d := d.setBudAct r x.act { b with used := b.used + rest, allow := b.allow - past, debt := b.debt + (past - b.allow) }
    if past != 0 && !x.overCounted then budgetOverrun r x.act d else d

/-- The burst of a resource ends after `held` ct; the ct that it held are granted to its activity's work (R42). -/
def burstEnd (r held : Nat) (x : Burst) (d : Dev) : Dev :=
  let d := burstCharge r held x { d with bud := { d.bud with burst := d.bud.burst.set r none } }
  let b := d.budAct r x.act
  d.setBudAct r x.act { b with got := b.got + held, want := b.want - held }

/-- A burst is aborted 32 ct after its grant, and reported; its work is not done (R42, R461). -/
def budgetBurst (r : Nat) (d : Dev) : Dev :=
  let r := r % 3
  match d.bud.burst.getD r none with
  | none => d
  | some x => report 0x1C0 0x0D 7 0 (r * 16 + x.act) none (burstCharge r 32 x { d with bud := { d.bud with burst := d.bud.burst.set r none } })

/-- A granted burst ends after it has held its resource for `held` ct (R42). -/
def burstComplete (r held : Nat) (d : Dev) : Dev :=
  let r := r % 3
  if 32 ≤ held then budgetBurst r d
  else
    match d.bud.burst.getD r none with
    | none => d
    | some x => burstEnd r held x d

/-- The end of a turn: a burst that goes on is charged with the ct it has held, the rest of the turn's allowance staying with it, and
every activity that ends the turn with debt is counted (R42). -/
def budgetEnds (d : Dev) : Dev :=
  let d := (List.range 3).foldl (fun d r => match d.bud.burst.getD r none with
    | some x =>
      let e := d.clk.lastCt + 1 - x.ct
      let d := burstCharge r e x d
      let b := d.budAct r x.act
      { d with bud := { d.bud with burst := d.bud.burst.set r (some { x with charged := e, left := some b.allow, overCounted := b.debt != 0 }) } }
    | none => d) d
  budgetCells.foldl (fun d x => if (d.budAct x.1 x.2).debt == 0 then d else budgetOverrun x.1 x.2 d) d

/-- BUDGET_USED latches the debt and the ct used of the turn that ended (R39, R42). -/
def budgetLatch (d : Dev) : Dev :=
  budgetCells.foldl (fun d x => let b := d.budAct x.1 x.2
    d.setReg (R.TRN_BUDGET_USED x.1 x.2) (pack32 [(20, 16, b.debt), (13, 0, b.used)])) d

/-- One activity's allowance is refilled, less its debt (R42). -/
def budgetRefill (r a : Nat) (d : Dev) : Dev :=
  let b := d.budAct r a
  let full := 16 * d.budgetPips r a
  d.setBudAct r a { b with allow := full - b.debt, debt := b.debt - full, used := 0, stalled := false }

/-- Every budget is refilled (R22, R42). -/
def budgetBoundary (d : Dev) : Dev := budgetCells.foldl (fun d x => budgetRefill x.1 x.2 d) d

/-! ### Landings (R22 to R32) -/

/-- What the landing of a group of slots in the present turn brings about beside the new words (R83, R88, R131, R157, R159,
R224, R382, R399). `old` is the machine before the landing, `keys` the words that landed. -/
def landedHooks (old : Dev) (keys : List Nat) (d : Dev) : Dev :=
  let moved (f : FRef) : Bool := old.get f != d.get f
  let d := afeLanded old keys d
  let d := seLanded old keys d
  let d := tpLanded keys d.clk.turn d
  let d := if moved F.CAP_GEOM_S_LOG2 || moved F.CAP_GEOM_W_K then recutLanded d else d
  let d := if moved F.TIME_CTRL_ACTIVE_SEL then selLanded d else d
  let d := if moved F.TQ_AREA_BASE_BASE || moved F.TQ_AREA_PAGES_PAGES then areaLanded d else d
  monLanded old (memLanded old.regs d)

/-- The active copy before a landing is kept until the data of its generation has drained, at most 2 turns (R23). -/
def keepCopy (old : Dev) (d : Dev) : Dev :=
  { d with commit := { d.commit with prev := d.commit.prev ++ [(d.clk.turn, old.regs)] } }

/-- The words that the slots `is` of `old` wrote, but for those dropped. -/
def landedKeys (old : Dev) (is : List Nat) (dropped : List Word) : List Nat :=
  (is.filter (fun i => !dropped.any (fun w => bits w 26 24 == i))).flatMap (fun i => (old.slot i).words.map (·.1))

/-- Something happens at another tick of the present turn. -/
def atCt (c : Nat) (f : Dev → Dev) (d : Dev) : Dev :=
  let ct := d.clk.ct
  let d' := f { d with clk := { d.clk with ct := c } }
  { d' with clk := { d'.clk with ct := ct } }

/-- The events of a landing: COMMIT_APPLIED for the group, COMMIT_DROPPED for each slot dropped (R32, R320). -/
def commitEvents (landed dropped : List Word) (d : Dev) : Dev :=
  let d := if landed.isEmpty then d else raise E.TRN_COMMIT_APPLIED landed d
  dropped.foldl (fun d w => raise E.TRN_COMMIT_DROPPED [w] d) d

/-- NOW slots that are due by the present tick land; at a boundary, all that were sealed before it (R28, R29). -/
def landNow (boundary : Bool) (d : Dev) : Dev :=
  let is := d.slotsWhere (fun s => s.st == .now && (boundary || (!s.late && s.pip ≤ d.clk.ct)))
  if is.isEmpty then d
  else
    let old := d
    let (d, landed, dropped) := applySlots is d
    if landed.isEmpty then commitEvents landed dropped d
    else
      let d := landedHooks old (landedKeys old is dropped) (keepCopy old d)
      let d := judgeRecut ((List.range 12).foldl (fun d p => portLanded old p d) d)
      commitEvents landed dropped d

/-! ### The guard window, the freeze and pip boundaries (R22, R28) -/

/-- ct 16 368: the guard window opens, slots due at the boundary become DUE, and inactive DAC cores are loaded (R22, R35, R82). -/
def guardWindow (d : Dev) : Dev :=
  let d := guardMark { d with clk := { d.clk with ct := max d.clk.ct 16368 } }
  loadCores ((d.pendingSlots.filter (fun s => s.st == .due)).foldl (fun m s => s.words.foldl (fun m kw => kset m kw.1 kw.2) m) []) d

/-- ct 16 383, or the last ct of a shortened turn: the slots to apply at the boundary are frozen (R22, R514). -/
def slotFreeze (d : Dev) : Dev :=
  { d with
    clk := { d.clk with ct := max d.clk.ct (min 16383 d.clk.lastCt) }
    commit := { d.commit with frozen := d.slotsWhere (fun s => s.st == .due) } }

/-- The next pip boundary of the turn: NOW slots land and a waiting software trigger fires (R28, R132). Pip 0 of the next turn
is the turn boundary's. -/
def pipBoundary (d : Dev) : Dev :=
  let c := (d.clk.ct / 16 + 1) * 16
  if 16384 ≤ c then d else swFire (landNow false { d with clk := { d.clk with ct := c } })

/-! ### The turn boundary (R22) -/

/-- Every TL field latches its live value (R22, R39). -/
def latchLive (env : BoundaryEnv) (d : Dev) : Dev :=
  let d := budgetLatch d
  let d := { d with regs := d.live.foldl (fun (m : KMap Word) (p : Nat × Word) => kset m p.1 p.2) d.regs }
  let d := d.setLive R.CMP_RATE 0
  imonBoundary env.imon (tqLatch (marginLatch d))

/-- A step that the boundary took: what it does to pulses, missed test pulses, and its event (R57, R89). `n` is the turn that
the boundary would have opened. -/
def stepTaken (n : Nat) (d : Dev) : Dev :=
  if !d.clk.stepped then d
  else
    let w := d.clk.stepW
    let f := d.clk.stepF
    let d := if 0 < w then tpSkipped n w.toNat d else d
    raise E.TIME_STEP_APPLIED [toWord (ofSigned 32 w), toWord (ofSigned 26 f)] d

/-- Beacons missed, steps measured, sources lost and regained (R48, R55, R60 to R62, R517). -/
def timeBoundary (d : Dev) : Dev :=
  let d := beaconMissBoundary 1 (beaconMissBoundary 0 d)
  disagreeBoundary (lockBoundary (preferredBoundary (sourceLostBoundary (stepMeasure d))))

/-- Slots apply (R32): the former active copy is kept, what the landing brings about follows, and a deferred NEXT slot is for the next
boundary now (R29). `auto` is what the Burjor does to the mode by itself before and after. The detail words of slots landed and
dropped. -/
def landSlots (before after : Dev → Dev) (d : Dev) : Dev × List Word × List Word :=
  let old := d
  let is := d.commit.frozen
  let d := before d
  let (d, landed, dropped) := applySlots is { d with commit := { d.commit with frozen := [] } }
  let d := after d
  let d := if landed.isEmpty && d.mode == old.mode then d else keepCopy old d
  let next (x : Slot) : Slot := if x.st == .next && x.late then { x with late := false, target := turnAdd d.clk.turn 1 } else x
  let d := { d with commit := { d.commit with
    prev := d.commit.prev.filter (fun p => d.clk.turn ≤ p.1 + 2)
    slots := d.commit.slots.map next } }
  let d := if landed.isEmpty then d else landedHooks old (landedKeys old is dropped) d
  (d, landed, dropped)

/-- The frozen slots are revalidated and applied, after any automatic change of mode (R22, R32, R349, R350). The detail words of
slots landed and dropped. -/
def boundarySlots (d : Dev) : Dev × List Word × List Word :=
  let old := d
  let auto := (autoMode d).mode
  let (d, landed, dropped) := landSlots autoMode (hostSafe auto) d
  (modeChanged old.mode d, landed, dropped)

/-- The bias guard, the monitor and the bias loop at a boundary. -/
def safetyBoundary (d : Dev) : Dev := guardEnter (guardSnapshot (biasBoundary (monBoundary (guardAdopt (guardReadopt d)))))

/-- The datapaths at the boundary that opens the present turn; `old` is the machine before the commits of it landed. -/
def dataBoundary (env : BoundaryEnv) (n : Nat) (old d : Dev) : Dev :=
  let t := d.clk.turn
  let d := freqBoundary t ((n * 2 ^ 25 : Nat) : Int) d.clk.stepped old.mode (tdcBoundary t d)
  let d := nodeBoundary env.nodeDev (tpBoundary (seBoundary (capBoundary t d)))
  let d := announceCaps (upsBoundary (markBoundary (linksBoundary env old d)))
  -- the slice schedule restarts before the collector closes frame n − 2 (R22)
  collectorBoundary (cascadeBoundary (sliceBoundary (judgeCal d)))

/-- The events that TRN raises from ct 1 to ct 8 (R22). -/
def boundaryEvents (landed dropped : List Word) (d : Dev) : Dev :=
  let (c, d) := drawFree 7 d
  atCt (1 + c) (fun d =>
    let d := commitEvents landed dropped (raise E.TRN_TURN [] d)
    let d := if d.clk.stepped then raise E.TRN_STEPPED [] d else d
    if d.clk.turn % 32768 == 0 then raise E.TRN_ROUND [] d else d) d

/-- REFCLK cycles pass (R64, R66). -/
def refclkPass (n : Nat) (d : Dev) : Dev :=
  { d with clk := { d.clk with refCycles := d.clk.refCycles + n }, time := { d.time with stCycles := d.time.stCycles + n } }

/-- Horef serves messages: in every mode but BOOT and TEST (R334, R345). -/
def Dev.horefRuns (d : Dev) : Bool := d.pwr.boot == .ended && d.mode != .boot && d.mode != .test

/-- A telemetry record at the boundary that opens turn t: due where t mod PERIOD = PHASE; an occurrence that meets one still
waiting is dropped (R330). -/
def telemDue (d : Dev) (x : TelemRec) : Dev :=
  let hit := d.clk.turn % x.period == x.phase
  let d := if hit && x.waiting then count1 (R.MBX_COUNT 8) d else d
  { d with mbx := { d.mbx with telem := d.mbx.telem ++ [{ x with waiting := x.waiting || hit }] } }

/-- What Horef counts in turns: the age of the open set (R316), of the event intervals (R319), and its records (R330). -/
def horefBoundary (d : Dev) : Dev :=
  if !d.horefRuns then d
  else
    let recs := d.mbx.telem
    let d := { d with
      mbx := { d.mbx with openSet := d.mbx.openSet.map (fun o => (o.1, o.2 + 1)), telem := [] }
      ev := { d.ev with open_ := d.ev.open_.map (fun i => { i with age := i.age + 1 }) } }
    recs.foldl telemDue d

/-- A boundary in BOOT: local turns count, and commits and budgets go on (R20, R21, R345). -/
def bootBoundary (d : Dev) : Dev :=
  let d := budgetEnds (slotFreeze (guardMark d))
  let d := budgetLatch { d with
    clk := { d.clk with turn := turnAdd d.clk.turn 1, ct := 0, ctBase := d.clk.ctBase + 16384, bounds := d.clk.bounds + 1 }
    pwr := { d.pwr with bootTurns := d.pwr.bootTurns + 1 } }
  let d := { d with regs := d.live.foldl (fun (m : KMap Word) (p : Nat × Word) => kset m p.1 p.2) d.regs }
  let (d, landed, dropped) := landSlots id id d
  landNow true (commitEvents landed dropped (budgetBoundary d))

/-- The boundary outside BOOT, in the order of R22. -/
def runBoundary (env : BoundaryEnv) (d : Dev) : Dev :=
  let d := stretchEnd (slotFreeze (guardWindow d))
  let d := budgetEnds (budgetCells.foldl (fun d x => stallMark x.1 x.2 d) d)
  let n := turnAdd d.clk.turn 1
  let d := closeEpisodes (ptDrift (turnEnds d))
  let d := stepTaken n (refclkPass env.refclk (stepTake d))
  let d := scanBoundary (dmaBoundary (latchLive env (timeLive (fifoWaits d))))
  let old := d
  let (d, landed, dropped) := boundarySlots d
  let d := timeBoundary (budgetBoundary d)
  let d := dataBoundary env n old (rowBoundary (safetyBoundary d))
  let d := horefBoundary (secBoundary (wdogBoundary (severityBoundary d)))
  swFire (landNow true (boundaryEvents landed dropped d))

/-- The last boundary of BOOT, one turn of 4 096 REFCLK cycles after the one before: STANDBY begins, or SAFE where a cause waits (R345, R349, R443, R467, R483, R488). -/
def bootEnd (d : Dev) : Dev :=
  let d := bootTo .ended (bootBoundary (refclkPass 4096 d))
  let d := d.setReg R.PWR_BOOT_TURNS (toWord d.pwr.bootTurns)
  let d := guardRestore (loadPortCal (loadCalibration (d.setMon { d.mon with refSince := some 0 })))
  let old := d
  let d := if d.safeReq == 0 then setMode .standby d
    else
      let d := setMode .safe ({ d with safeReq := 0 }.put F.PWR_STATUS_SAFE_CAUSE d.safeReq)
      raise E.PWR_SAFE_ENTERED [] (count1 (R.PWR_COUNT 1) (raise E.PWR_MODE_CHANGED [] (count1 (R.PWR_COUNT 0) d)))
  let d := if d.is F.PWR_STATUS_RECOVERY then raise E.PWR_RECOVERY [] d else d
  let d := guardEnter (guardSnapshot (biasBoundary (guardReadopt d)))
  let d := linksBoundary {} old d
  let d := if d.flt.resetFault then
      report 0x170 (d.reg R.FLT_RESET_FAULT_KIND).toNat 7 0 (d.reg R.FLT_RESET_FAULT_PC).toNat (some .core) (d.setFlt { d.flt with resetFault := false })
    else d
  let fails := d.sec.bootFails ++ (if Config.identityOk then [] else [0])
  fails.foldl (fun d a => report 0x1B0 0x15 0 0 a none d) (d.setSec { d.sec with bootFails := [] })

/-- ct 0 of a turn (R22). -/
def turnBoundary (env : BoundaryEnv) (d : Dev) : Dev :=
  if d.pwr.porHeld then d
  else
    match d.pwr.boot with
    | .inReset => refclkPass env.refclk d
    | .ended => runBoundary env d
    | _ => bootBoundary (refclkPass env.refclk d)

/-! ### Commands -/

/-- TURN_BOUNDARY (R22). -/
def execTurnBoundary (env : BoundaryEnv) (s : State) : Host.Outcome State Fault Refusal := onDev (turnBoundary env) s
/-- BOOT_END (R345). -/
def execBootEnd (s : State) : Host.Outcome State Fault Refusal := inBoot .finish (fun s => { s with dev := bootEnd s.dev }) s
/-- GUARD_WINDOW_OPEN (R22). -/
def execGuardWindowOpen (s : State) : Host.Outcome State Fault Refusal := onDev guardWindow s
/-- SLOT_FREEZE (R22). -/
def execSlotFreeze (s : State) : Host.Outcome State Fault Refusal := onDev (fun d => slotFreeze (guardWindow d)) s
/-- PIP_BOUNDARY (R28). -/
def execPipBoundary (s : State) : Host.Outcome State Fault Refusal := onDev pipBoundary s
/-- BUDGET_GRANT (R42). -/
def execBudgetGrant (r : Nat) (s : State) : Host.Outcome State Fault Refusal := onDev (budgetGrant r) s
/-- BURST_COMPLETE (R42). -/
def execBurstComplete (r held : Nat) (s : State) : Host.Outcome State Fault Refusal := .next (fwDrain { s with dev := burstComplete r held s.dev })
/-- BUDGET_BURST (R461). -/
def execBudgetBurst (r : Nat) (s : State) : Host.Outcome State Fault Refusal := onDev (budgetBurst r) s
/-- COMPARATOR_EDGE (R80). -/
def execComparatorEdge (ch : Nat) (high trailing : Bool) (ct : Nat) (k : List Nat) (s : State) : Host.Outcome State Fault Refusal :=
  onDev (fun d =>
    let (d, kept) := comparatorEdge (ch % 64) high trailing ct k d
    if kept then scanEdge (ch % 64) high d else d) s

end Sys2Proof.Machine
end

