-- ==== Sys2Proof/Machine/Registers.lean ====
section
/-! DEFINITION. The register space as software sees it: what every register reads as and what a write of it does (R2, R14, R15,
R25, R39, R40), the world check of the accesses of the control core and of the debug port (R372, R472 to R477, R490), and the
commands that are writes or reads of one register. -/

namespace Sys2Proof.Machine

/-- Index of an offset in a run of n registers from `base` at a stride. -/
def runIdx (base stride n o : Nat) : Option Nat :=
  if base ≤ o && (o - base) % stride == 0 && (o - base) / stride < n then some ((o - base) / stride) else none

/-- Index and word of an offset in n registers of `words` words each. -/
def runWord (base stride n words o : Nat) : Option (Nat × Nat) :=
  if base ≤ o && (o - base) % 4 == 0 && (o - base) / stride < n && (o - base) % stride / 4 < words then
    some ((o - base) / stride, (o - base) % stride / 4) else none

/-! ### Registers that show other state -/

/-- Code of a slot's state in SLOT_STATE. -/
def slotCode (s : SlotState) : Nat :=
  match s with
  | .free => 0 | .now => 1 | .next => 2 | .at => 3 | .due => 4

/-- TRN_STATUS as it reads. -/
def trnStatus (d : Dev) : Word :=
  pack32 [(31, 31, d.get F.TRN_STATUS_TURN_VALID), (30, 30, b2n d.clk.stepped), (29, 29, d.get F.TRN_STATUS_DIRTY_OVF),
    (27, 24, (d.commit.slots.filter d.slotTaken).length), (23, 16, d.get F.TRN_STATUS_CFG_GEN), (9, 0, d.commit.dirty.length)]

/-- SLOT_STATE as it reads. -/
def slotStateWord (d : Dev) : Word :=
  let d := if d.guardOpen then guardMark d else d
  let st (s : Slot) : SlotState := match s.gone with
    | some g => if s.st == .free && g.1 == d.nowCt then g.2 else s.st
    | none => s.st
  toWord ((List.range 8).foldl (fun a i => a + slotCode (st (d.slot i)) * 16 ^ i) 0)

/-- The TRN block. -/
def viewTrn (o : Nat) (d : Dev) : Option Word :=
  if o == 0 then some (trnStatus d)
  else if o == 4 then some (toWord d.clk.turn)
  else if o == 8 then some (kget d.latches R.TRN_TURN_HI 0)
  else if o == 0x0C then
    -- slice 7 and pip 1 023 take up a stretched interval, in which CT stays at 16 383 (R19, R58)
    (let c := min d.clk.ct 16383
     some (pack32 [(26, 24, c / 2048), (23, 14, c / 16), (13, 0, c)]))
  else if o == 0x20 then some (slotStateWord d)
  else match runWord 0x40 8 8 2 o with
    | some (i, w) => some (toWord ((d.slot i).target / 2 ^ (32 * w)))
    | none => (runIdx 0x160 4 3 o).map (fun r => pack32 [(25, 16, budgetSum d.reg r), (9, 0, min 0x3FF (budgetSum d.shadowReg r))])

/-- The TIME block. -/
def viewTime (o : Nat) (d : Dev) : Option Word :=
  if o == 0x60 then some d.lt
  else if o == 0x64 then some (toWord d.time.st)
  else if o == 0x68 then some (kget d.latches R.TIME_ST_HI 0)
  else match runWord 0x100 0x20 4 5 o with
    | some (p, w) =>
      let l := d.time.txts.getD p []
      if w == 0 then some (setBits (d.reg (R.TIME_TXTS_STATUS p)) 4 0 l.length)
      else match l with
        | [] => some 0
        | (id, t) :: _ => some (if w == 1 then pack32 [(31, 31, 1), (15, 0, id)] else if w == 2 then toWord t.turn
            else if w == 3 then toWord (t.turn / 2 ^ 32) else toWord t.ctFb)
    | none => none

/-- The blocks AFE to COL. -/
def viewData (b o : Nat) (d : Dev) : Option Word :=
  if b == 2 then (if o == 0 then some (afeStatus d) else none)
  else if b == 3 then
    (runWord 0x2000 0x10 132 3 o).map (fun x => if x.2 == 0 then unitStatus x.1 d
      else if x.2 == 1 then toWord (min (d.unit x.1).ageLatch 0xFFFFFFFF) else unitQual x.1 d)
  else if b == 4 then
    (if o == 0 then some (capStatus d) else (runIdx 0x1004 0x40 64 o).map (fun n => capChStatus n d))
  else if b == 6 then
    (if o == 0 then some (colStatus d) else (runIdx 0x1200 4 65 o).map (fun s => fifoLevel s d))
  else none

/-- MARK_LO and MARK_HI: the mark in force. -/
def Dev.markNow (d : Dev) : Nat := d.tq.mark.getD 0

/-- The blocks CAS to MBX. -/
def viewLinks (b o : Nat) (d : Dev) : Option Word :=
  if b == 7 then (if o == 0 then some (casStatus d) else none)
  else if b == 8 then
    (if o == 0 then some (tqStatus d) else if o == 0x50 then some (toWord d.markNow)
    else if o == 0x54 then some (kget d.latches R.TQ_MARK_HI 0) else none)
  else if b == 9 then (if o == 0 then some (cmpStatus d) else none)
  else if b == 10 then (if o == 0 then some (lnkStatus d) else none)
  else if b == 11 then (if o == 0x10 then some (setBits (d.reg R.MBX_I2C_CFG) 6 0 (0x50 + Config.i2cStrap)) else none)
  else none

/-- The monitor: the injection slot stands at entry 63 (R402). -/
def viewMon (o : Nat) (d : Dev) : Option Word :=
  if o == 0 then some (monStatus d)
  else if o == 0x58 then
    some (setBits (d.reg R.MON_CAL_STATUS) 31 31 (match d.mon.cal with
      | some c => b2n c.running
      | none => 0))
  else if o == 0x400 + 8 * 63 || o == 0x600 + 8 * 63 then some d.mon.slot.1
  else if o == 0x404 + 8 * 63 || o == 0x604 + 8 * 63 then some d.mon.slot.2
  else none

/-- The guard. -/
def viewGrd (o : Nat) (d : Dev) : Option Word :=
  if o == 0 then some (grdStatus d)
  else if o == 0x0C then some (gpbCheckOf d.grd.gpb)
  else if o == 0x10 then some (wordAt (d.grd.gpb.getD []) 1)
  else if o == 0x14 then some (gpbCheckOf d.grd.pending)
  else match runIdx 0x40 4 3 o with
    | some l => some (laneStatus l d)
    | none => (match runIdx 0x100 4 32 o with
      | some w => some (wordAt (d.grd.gpb.getD []) w)
      | none => (runIdx 0x304 4 4 o).map (fun w => wordAt (d.grd.log.getD (d.get F.GRD_LOG_SEL_INDEX) []) w))

/-- The blocks DMA to PWR. -/
def viewSystem (b o : Nat) (d : Dev) : Option Word :=
  if b == 12 then (if o == 0 then some (dmaStatus d) else none)
  else if b == 13 then (if o == 0x64 then some (pageInfo d) else if o == 0x404 then some (remapData d) else none)
  else if b == 14 then viewMon o d
  else if b == 15 then viewGrd o d
  else if b == 16 then
    (if o == 0 then some (fltStatus d) else if o == 0x10 then some (toWord (d.flt.latch.1.toNat / 2 ^ 32))
    else if o == 0x14 then some (toWord d.flt.latch.1.toNat) else if o == 0x18 then some d.flt.latch.2
    else if o == 0x600 then some (isoSe d) else none)
  else if b == 17 then
    (if o == 0 then some (secStatus d) else if o == 4 then some (toWord Config.dieId.toNat)
    else if o == 8 then some (toWord (Config.dieId.toNat / 2 ^ 32)) else if o == 0x0C then some (rollbackWord d)
    else if o == 0x8004 then some (setBits (d.reg R.SEC_WORLD_HI) 4 4 (b2n (d.worldBit 36))) else none)
  else if b == 18 then (if o == 4 then some (pwrStatus d) else none)
  else none

/-- A register that shows state held elsewhere. -/
def viewReg (k : Nat) (d : Dev) : Option Word :=
  let b := k / 65536
  let o := k % 65536
  if b == 0 then viewTrn o d else if b == 1 then viewTime o d else if b < 7 then viewData b o d
  else if b < 12 then viewLinks b o d else viewSystem b o d

/-! ### DMA channel registers (the DMA register block, R474) -/

/-- Where a key of the channel registers leads: those of a secure channel stand in the secure page, and its non-secure ones read
as zero and ignore writes. None where nothing stands. -/
def dmaKey (k : Nat) (d : Dev) : Option Nat :=
  let o := k % 65536
  if k / 65536 != 12 then some k
  else if 0x1000 ≤ o && o < 0x1400 then (if d.worldBit (19 + (o - 0x1000) / 0x40) then none else some k)
  else if 0x8000 ≤ o && o < 0x8400 then (if d.worldBit (19 + (o - 0x8000) / 0x40) then some (k - 0x7000) else none)
  else some k

/-! ### Reads (R14, R15) -/

/-- What a register reads as, without side effects: a view, the active value of a CUR_* mirror, the shadow of SH fields, the
latched part of TL fields, zero for reserved offsets and absent units (R2, R15). -/
def readPlain (k : Nat) (d : Dev) : Word :=
  if d.absentKey k then 0
  else
    match dmaKey k d with
    | none => 0
    | some k =>
      match viewReg k d with
      | some w => w
      | none =>
        match curTarget k with
        | some t => d.reg t
        | none =>
          (match regRow k with
          | none => 0
          | some r =>
            if r.sh == 0 then d.reg k
            else toWord ((d.reg k).toNat - ((d.reg k).toNat &&& r.sh) + ((d.shadowReg k).toNat &&& r.sh)))

/-- A read of TURN_LO latches TURN_HI (R15). -/
def turnLoRead (d : Dev) : Word × Dev := (toWord d.clk.turn, { d with latches := kset d.latches R.TRN_TURN_HI (toWord (d.clk.turn / 2 ^ 32)) })
/-- A read of ST_LO latches ST_HI (R66). -/
def stLoRead (d : Dev) : Word × Dev := (toWord d.time.st, { d with latches := kset d.latches R.TIME_ST_HI (toWord (d.time.st / 2 ^ 32)) })
/-- A read of MARK_LO latches MARK_HI (R234). -/
def markLoRead (d : Dev) : Word × Dev := (toWord d.markNow, { d with latches := kset d.latches R.TQ_MARK_HI (toWord (d.markNow / 2 ^ 32)) })

/-- A control-core read of a register, with its side effects (R15, R67, R103, R156, R214, R234, R455). -/
def readReg (k : Nat) (d : Dev) : Word × Dev :=
  if d.absentKey k then (0, d)
  else if k == R.TRN_TURN_LO then turnLoRead d
  else if k == R.TIME_ST_LO then stLoRead d
  else if k == R.TQ_MARK_LO then markLoRead d
  else if k == R.TDC_TABLE_DATA then tableDataRead d
  else if k == R.SE_LIN_DATA then linAccess none d
  else if k == R.CAS_ADJ_DATA then adjRead d
  else if k == R.FLT_POP_HI then fltPop false d
  else match (List.range 4).find? (fun q => k == R.TIME_TXTS_FINE q) with
    | some q => txtsFineRead q d
    | none => (readPlain k d, d)

/-! ### Writes (R14, R15, R25, R40) -/

/-- A write of 0 to a saturating counter clears its live part, its latched part and SAT; any other write is ignored (R40). -/
def counterClear (k : Nat) (v : Word) (d : Dev) : Dev := if v == 0 then (d.setReg k 0).setLive k 0 else d

/-- The plain, W1C and W1S fields of a register, and the shadow of its SH fields (R15, R25). -/
def writeFields (r : RegRow) (k : Nat) (v : Word) (d : Dev) : Dev :=
  let plain := r.rw - (r.rw &&& r.sh)
  let w := (d.reg k).toNat
  let w := w - (w &&& plain) + (v.toNat &&& plain)
  let w := w - (w &&& (v.toNat &&& r.w1c))
  let w := w ||| (v.toNat &&& r.w1s)
  let d := if plain ||| r.w1c ||| r.w1s == 0 then d else d.setReg k (toWord w)
  if r.sh == 0 then d else shadowWrite k r.sh v d

/-- A turn number in two registers, LO and HI. -/
def Dev.turnReg (d : Dev) (lo hi : Nat) : Nat := bits (d.reg hi) 15 0 * 2 ^ 32 + (d.reg lo).toNat

/-- A write of LNK_CMD: its status (R296, LNK_CMD). -/
def lnkCmd (w : Word) (d : Dev) : Dev × Nat :=
  match bits w 2 0 with
  | 1 => linkRetrain (bits w 19 16) d
  | 2 => linkRestart (bits w 19 16) d
  | 3 => prbsStart (bits w 12 8) (bits w 27 24) d
  | 4 => prbsStop (bits w 12 8) d
  | _ => (d, d.get F.LNK_CMD_STATUS_RESULT)

/-- A write of CH_CMD of channel c (R355, R369). -/
def dmaCmd (c op : Nat) (d : Dev) : Dev :=
  match op with
  | 1 => dmaKick c d
  | 2 => dmaResume c d
  | 3 => dmaAbort c d
  | 4 => dmaReset c d
  | _ => d

/-- CH_RING_LO, CH_RING_HI and CH_CFG are not written while the channel is in RUN or WAIT_REQ (R355). -/
def dmaConfigBusy (k : Nat) (d : Dev) : Bool :=
  let o := k % 65536
  k / 65536 == 12 && 0x1000 ≤ o && o < 0x1400 && o % 4 == 0 && (o - 0x1000) % 0x40 < 0x0C &&
    (d.dmaState ((o - 0x1000) / 0x40) == 1 || d.dmaState ((o - 0x1000) / 0x40) == 2)

/-- What a write of a command register does; none for any other register. -/
def commandWrite (k : Nat) (v : Word) (d : Dev) : Option Dev :=
  if k == R.TRN_COMMIT_CTRL then some (commitCtrl (bits v 2 0) (bits v 6 4) (bits v 15 8) d)
  else if k == R.TDC_CMD then some (if bit v 0 then (fullCalRequest d).1 else d)
  else if k == R.CAP_CMD then some (if bit v 0 then swTrig d else d)
  else if k == R.SE_LIN_DATA then some (linAccess (some v) d).2
  else if k == R.CAS_ADJ_DATA then some (adjWrite v d)
  else if k == R.TQ_MARK_CMD then
    some (if bits v 1 0 == 1 then (markSet (d.turnReg R.TQ_MARK_TARGET_LO R.TQ_MARK_TARGET_HI) d).1
      else if bits v 1 0 == 2 then (markClear d).1 else d)
  else if k == R.TQ_REWIND_CMD then
    some (if bit v 0 then
      (let c := bits (d.reg R.TQ_REWIND_COUNT) 15 0
      (rewindRequest (d.turnReg R.TQ_REWIND_FIRST_LO R.TQ_REWIND_FIRST_HI) (if c == 0 then 32768 else c) d).1) else d)
  else if k == R.TQ_UP_CMD then some (forceGiveUp (bits v 1 0) d)
  else if k == R.TQ_DESC_SEL then some (descSelWrite v d)
  else if k == R.LNK_CMD then some (lnkCmd v d).1
  else if k == R.MEM_FLIP_CTRL then some (flipCtrlWrite v d)
  else if k == R.MON_INJ_CMD then some (if bit v 0 then injPush d else d)
  else if k == R.MON_CAL_CTRL then
    (let d := d.setReg k (v &&& 0xFFFC0000)
    some (if bit v 0 then (calRequest (bits v 31 30) v (d.reg R.MON_CAL_FS) d).1 else d))
  else if k == R.GRD_GCMD then some (guardCmd (bits v 1 0) d)
  else if k == R.FLT_CMD then some (if bits v 1 0 == 1 then fltAccept d else if bits v 1 0 == 2 then fltFlush d else d)
  else if k == R.FLT_FE_CLEAR then some (feClearMask v d)
  else if k == R.FLT_WDOG_KICK then some (wdogKick v d)
  else if k / 65536 == 17 && 0x8000 ≤ k % 65536 then some (worldWrite (k % 65536) v d)
  else if k / 65536 == 12 && 0x1000 ≤ k % 65536 && k % 65536 < 0x1400 && k % 0x40 == 0x0C then
    some (dmaCmd ((k % 65536 - 0x1000) / 0x40) (bits v 2 0) d)
  else if dmaConfigBusy k d then some (raise E.DMA_WR_IGNORED [] d)
  else if k / 8 == R.MON_SEQ_ENTRY0 63 / 8 then some d
  -- RETIRED_PAGES ignores writes
  else if k == R.MEM_COUNT 3 then some d
  else if (List.range 4).any (fun e => k == R.TDC_FR_STATUS e) then some (if v == 0 then d.setReg k (setBits (d.reg k) 17 0 0) else d)
  else none

/-- A 32-bit write of a register that reaches it (R2, R14, R15). Reserved offsets ignore it, and so do registers of absent units,
but that an SH word of one joins the dirty set, whose seal is then refused (R36). -/
def writeReg (k : Nat) (v : Word) (s : State) : State :=
  let d := s.dev
  if d.absentKey k then
    (match regRow k with
    | some r => if r.sh == 0 then s else { s with dev := shadowWrite k r.sh v d }
    | none => s)
  else
    match dmaKey k d with
    | none => s
    | some k =>
      if k == R.CMP_JOB_CMD then { s with dev := (jobCmd (bits v 1 0) (bit v 2) s.dev).1 }
      else
        match commandWrite k v d with
        | some d => { s with dev := d }
        | none =>
          match regRow k with
          | none => s
          | some r => { s with dev := if r.cnt then counterClear k v d else writeFields r k v d }

/-! ### Accesses with their world (R14, R372, R472 to R477) -/

/-- Base of the register space (R14). -/
def regBase : Nat := 0x10000000

/-- A read of the control core, 8, 16 or 32 bits wide: the addressed bytes of the register, little-endian (R14). No row of the table is a
narrow read; PEEK, telemetry and the reads with rows of their own are 32 bits wide. -/
def coreRead (width off : Nat) (d : Dev) : Word × Dev :=
  let (w, d) := readReg (off / 4 * 4) d
  (toWord (bits w (8 * (off % 4) + width - 1) (8 * (off % 4))), d)

/-- A write of the control core at a register offset, in a world (R14, R372, R473, R477). -/
def coreWrite (secure : Bool) (width off : Nat) (v : Word) (s : State) : State :=
  let a := regBase + off
  let master := if secure then 2 else 1
  if 0x130000 ≤ off then { s with dev := report 0x170 0x05 2 master a none s.dev }
  else if !secure && s.dev.secureAt a true then { s with dev := worldViolation 2 master a s.dev }
  else if width != 32 then { s with dev := report 0x170 0x06 2 master a none s.dev }
  else writeReg off v s

/-- A 32-bit read on the fabric by the debug port (R473, R477, R490): zero in the other world, a free value at an unmapped
address. -/
def debugRead (a : Nat) (s : State) : State :=
  let a := a % 2 ^ 40 / 4 * 4
  let d := s.dev
  if !(d.scope 1 || d.scope 3) then s
  else
    match d.region a with
    | none =>
      let (x, d) := drawFree (2 ^ 32 - 1) (report 0x170 0x05 1 3 a none d)
      { s with dev := { d with rdata := [toWord x] } }
    | some rg =>
      if !d.scope 3 && d.secureAt a false then { s with dev := { worldViolation 1 3 a d with rdata := [0] } }
      else if rg == .regs then
        let (w, d) := readReg (a - regBase) d
        { s with dev := { d with rdata := [w] } }
      else
        let (_, d) := readCheck a 4 1 3 [] [] d
        let (bs, d) := fabBytes s.mem 4 a d
        { s with dev := { d with rdata := [toWord (bytesNat bs.reverse)] } }

/-- A 32-bit write on the fabric by the debug port (R372, R473, R477, R490). The vendor area takes no write outside TEST (R376). -/
def debugWrite (a : Nat) (v : Word) (s : State) : State :=
  let a := a % 2 ^ 40 / 4 * 4
  let d := s.dev
  if !(d.scope 1 || d.scope 3) then s
  else
    match d.region a with
    | none => { s with dev := report 0x170 0x05 2 3 a none d }
    | some rg =>
      if rg == .mram && a < 0x40100000 && d.mode != .test then s
      else if !rg.writable then { s with dev := report 0x170 0x05 2 3 a none d }
      else if !d.scope 3 && d.secureAt a true then { s with dev := worldViolation 2 3 a d }
      else if rg == .regs then writeReg (a - regBase) v s
      else fabWrite a (word32Bytes v) [] 2 3 s

/-- An instruction of the IEEE 1149.1 port (R490, R509): without its scope it does nothing. -/
def debugAccess (acc : DebugAccess) (s : State) : State :=
  let d := s.dev
  match acc with
  | .basic => { s with dev := { d with rdata := [0x1B0649AB] } }
  | .extest pins => if d.scope 0 then { s with dev := d.setSec { d.sec with extest := some pins } } else s
  | .halt secure => if d.scope 3 || (!secure && d.scope 1) then { s with dev := d.setSec { d.sec with halted := true } } else s
  | .step secure => if d.scope 3 || (!secure && d.scope 1) then { s with dev := d.setSec { d.sec with halted := true } } else s
  | .resume => if d.scope 1 || d.scope 3 then { s with dev := d.setSec { d.sec with halted := false } } else s
  | .read a => debugRead a s
  | .write a v => debugWrite a v s

/-! ### Commands -/

/-- SHADOW_WRITE (R25): a write of a register with SH fields. -/
def execShadowWrite (secure : Bool) (off : Nat) (val : Word) (s : State) : Host.Outcome State Fault Refusal := .next (coreWrite secure 32 off val s)
/-- REGISTER_WRITE (R14). -/
def execRegisterWrite (secure : Bool) (width off : Nat) (val : Word) (s : State) : Host.Outcome State Fault Refusal :=
  .next (coreWrite secure width off val s)
/-- COUNTER_CLEAR (R40). -/
def execCounterClear (off : Nat) (val : Word) (s : State) : Host.Outcome State Fault Refusal := .next (coreWrite true 32 off val s)
/-- SEAL_NOW (R28). -/
def execSealNow (tag : Nat) (s : State) : Host.Outcome State Fault Refusal := onDev (commitCtrl 1 0 (tag % 256)) s
/-- SEAL_NEXT (R28). -/
def execSealNext (tag : Nat) (s : State) : Host.Outcome State Fault Refusal := onDev (commitCtrl 2 0 (tag % 256)) s
/-- SEAL_AT (R28): N stands in COMMIT_TARGET. -/
def execSealAt (tag : Nat) (s : State) : Host.Outcome State Fault Refusal := onDev (commitCtrl 3 0 (tag % 256)) s
/-- COMMIT_CTRL_BAD_OP (COMMIT_CTRL): OP 6 or 7. -/
def execCommitCtrlBadOp (op tag slot : Nat) (s : State) : Host.Outcome State Fault Refusal :=
  onDev (commitCtrl (6 + op % 2) (slot % 8) (tag % 256)) s
/-- TURN_LO_READ (R15). -/
def execTurnLoRead (s : State) : Host.Outcome State Fault Refusal := onRead turnLoRead s
/-- ST_LO_READ (R66). -/
def execStLoRead (s : State) : Host.Outcome State Fault Refusal := onRead stLoRead s
/-- MARK_LO_READ (R234). -/
def execMarkLoRead (s : State) : Host.Outcome State Fault Refusal := onRead markLoRead s
/-- DEBUG_PORT_ACCESS (R490). -/
def execDebugPortAccess (acc : DebugAccess) (s : State) : Host.Outcome State Fault Refusal := .next (debugAccess acc s)

end Sys2Proof.Machine
end

