-- ==== Sys2Proof/Machine/Messages.lean ====
section
/-! DEFINITION. The Horef messages (R321 to R332): what each message of the catalogue does and returns. A message function takes the
payload without its signature trailer and gives the machine, the status and the response payload. -/

namespace Sys2Proof.Machine

def Dev.setMbx (d : Dev) (x : Mailboxes) : Dev := { d with mbx := x }

/-- A message function that leaves memory alone. -/
def devMsg (f : Dev → MsgRes) (s : State) : StRes := ({ s with dev := (f s.dev).1 }, (f s.dev).2)

/-- A message that returns its status only. -/
def plainMsg (f : Dev → Dev × Nat) (s : State) : StRes := devMsg (fun d => ((f d).1, (f d).2, [])) s

/-- A message that reads and changes nothing. -/
def readMsg (f : Dev → List Word) (s : State) : StRes := (s, 0, f s.dev)

/-! ### Commit responses (R317) -/

/-- The response payload of a configuring message. -/
def commitWords (tag reason slot : Nat) (deferred : Bool) (apply : Nat) : List Word :=
  [pack32 [(31, 31, b2n deferred), (26, 24, slot), (23, 16, tag), (15, 12, reason)], toWord (apply / 2 ^ 32), toWord apply]

/-- The response payload without a slot. -/
def commitNone (tag reason : Nat) : List Word := commitWords tag reason 7 false 0

/-- The response payload of a seal: REASON only where the status is REFUSED, UNSUPPORTED or BAD_ARG. -/
def commitOf (tag : Nat) (r : SealRes) : List Word :=
  commitWords tag (if r.status == 9 || r.status == 4 || r.status == 5 then r.reason else 0) r.slot r.deferred r.apply

/-! ### Configuring messages (R314 to R316) -/

/-- One write of a configuring message: a register, the bits that change (none: the whole word) and the new bits. -/
structure CfgWrite where
  key : Nat
  mask : Option Nat
  val : Word
  deriving DecidableEq, Repr

/-- What the payload of a configuring message asks for: a status other than OK with its reason, or the writes. -/
structure CfgPlan where
  status : Nat := 0
  reason : Nat := 0
  writes : List CfgWrite := []
  deriving DecidableEq, Repr

/-- A write of Horef: part of a shadow (R323), or a whole register (R315). -/
def cfgWrite (w : CfgWrite) (s : State) : State :=
  match w.mask with
  | some m => { s with dev := shadowWrite w.key m w.val s.dev }
  | none => writeReg w.key w.val s

/-- The BUSY rules of R315: another mailbox owns an open set, or words are dirty without one. -/
def setBusy (owner : Nat) (d : Dev) : Bool :=
  match d.mbx.openSet with
  | some (o, _) => o != owner
  | none => !d.commit.dirty.isEmpty || d.is F.TRN_STATUS_DIRTY_OVF

/-- The set is closed. -/
def closeSet (d : Dev) : Dev := d.setMbx { d.mbx with openSet := none }

/-- The seal of a configuring message (R314, R316). A refusal discards the set; BUSY leaves it as it is. -/
def cfgSeal (owner : Nat) (w : List Word) (d : Dev) : Dev × Nat × List Word :=
  let tag := cbTag w
  let n := cbTarget w
  let d := d.setMbx { d.mbx with openSet := d.mbx.openSet.map (fun o => (o.1, 0)) }
  if cbKind w == 0 then (d.setMbx { d.mbx with openSet := some (owner, 0) }, 0, commitNone tag 0)
  else
    let d := if cbKind w == 3 then (d.setReg R.TRN_COMMIT_TARGET_HI (toWord (n / 2 ^ 32))).setReg R.TRN_COMMIT_TARGET_LO (toWord n) else d
    let (r, d) := sealSet (if cbKind w == 1 then .now else if cbKind w == 2 then .next else .at n) tag d
    let d := if r.status == 0 then closeSet d else if r.status == 1 then d else closeSet (discardShadow d)
    (d, r.status, commitOf tag r)

/-- A configuring message of owner mailbox `owner` with its plan; `sealOnly` for SEAL. -/
def configure (owner : Nat) (sealOnly : Bool) (w : List Word) (p : CfgPlan) (s : State) : StRes :=
  let tag := cbTag w
  if !cbOk w then (s, 5, commitNone tag 0)
  else if p.status != 0 then (s, p.status, commitNone tag p.reason)
  else if setBusy owner s.dev then (s, 1, commitNone tag 0)
  else if sealOnly && (cbKind w == 0 || s.dev.mbx.openSet.isNone) then (s, 5, commitNone tag 0)
  else
    let s := p.writes.foldl (fun s x => cfgWrite x s) s
    let (d, st, out) := cfgSeal owner w s.dev
    ({ s with dev := d }, st, out)

/-- SET_MODE (R337): MODE_CTRL. -/
def planMode (w : List Word) : CfgPlan := { writes := [{ key := R.PWR_MODE_CTRL, mask := none, val := wordAt w 2 }] }

/-- SET_BUDGET (R43): one BUDGET word for each entry. -/
def planBudget (w : List Word) : CfgPlan :=
  let es := w.drop 2
  if es.any (fun e => bits e 31 30 == 3 || bits e 29 27 == 7) then { status := 5 }
  else { writes := es.map (fun e => { key := R.TRN_BUDGET (bits e 31 30) (bits e 29 27), mask := none, val := toWord (bits e 9 0) }) }

/-- The register of channel n that a triple names (R323); none for a BLOCK outside its list. -/
def channelKey (block reg n : Nat) : Option Nat :=
  if block == 3 then (if reg == 0 then some (0x30400 + 4 * n) else none)
  else if block == 2 || block == 4 || block == 5 then some (block * 65536 + 0x1000 + 0x40 * n + 4 * reg)
  else none

/-- The SH bits of a register. -/
def shMask (k : Nat) : Nat := match regRow k with
  | some r => r.sh
  | none => 0

/-- The channels selected by CH_LO and CH_HI. -/
def selected (lo hi : Word) : List Nat := (List.range 64).filter (fun n => bit (if n < 32 then lo else hi) (n % 32))

/-- SET_CHANNEL (R323). -/
def planChannel (w : List Word) : CfgPlan :=
  let ts := wordTriples (w.drop 4)
  let okT (t : Word × Word × Word) : Bool := match channelKey (bits t.1 31 27) (bits t.1 26 23) 0 with
    | some k => shMask k != 0
    | none => false
  if !ts.all okT then { status := 5 }
  else
    let one (n : Nat) (t : Word × Word × Word) : Option CfgWrite :=
      (channelKey (bits t.1 31 27) (bits t.1 26 23) n).map (fun k => { key := k, mask := some (t.2.1.toNat &&& shMask k), val := t.2.2 })
    { writes := (selected (wordAt w 2) (wordAt w 3)).flatMap (fun n => ts.filterMap (one n)) }

/-- SET_TEST_PULSE (R87). -/
def planTestPulse (w : List Word) : CfgPlan :=
  { writes := [{ key := R.AFE_TP_CTRL, mask := none, val := wordAt w 5 }, { key := R.AFE_TP_START_LO, mask := none, val := wordAt w 3 },
      { key := R.AFE_TP_START_HI, mask := none, val := wordAt w 2 }, { key := R.AFE_TP_POS, mask := none, val := wordAt w 4 }] }

/-- SET_REACTION (R470): REACT[KIND], forced flags kept. -/
def planReaction (w : List Word) : CfgPlan :=
  let es := w.drop 2
  if es.any (fun e => (faultKind (bits e 31 26)).isNone) then { status := 5 }
  else if es.any (fun e => bits e 7 0 == 0) then { status := 5, reason := 4 }
  else { writes := es.map (fun e =>
      { key := R.FLT_REACT (bits e 31 26), mask := none, val := pack32 [(20, 16, bits e 25 21), (12, 8, bits e 20 16), (7, 0, bits e 7 0)] }) }

/-- The status of a register offset that a message names (R327 to R329): BAD_ARG outside the register space or misaligned, DENIED
in the secure world. -/
def offsetStatus (off : Nat) (write : Bool) (d : Dev) : Nat :=
  if off % 4 != 0 || 0x130000 ≤ off then 5 else if d.secureAt (regBase + off) write then 3 else 0

/-- POKE (R328): every pair is checked before anything is written. -/
def planPoke (w : List Word) (d : Dev) : CfgPlan :=
  let ps := wordPairs (w.drop 2)
  match (ps.map (fun p => offsetStatus (bits p.1 23 0) true d)).find? (· != 0) with
  | some st => { status := st }
  | none => { writes := ps.map (fun p => { key := bits p.1 23 0, mask := none, val := p.2 }) }

/-- The plan of a configuring message. -/
def planOf (id : Nat) (w : List Word) (d : Dev) : CfgPlan :=
  if id == 0x0101 then planMode w
  else if id == 0x0106 then planBudget w
  else if id == 0x0201 then planChannel w
  else if id == 0x0203 then planTestPulse w
  else if id == 0x0A03 then planReaction w
  else if id == 0x0C02 then planPoke w d
  else {}

/-! ### System and scheduling (0x0000, 0x0100) -/

/-- GET_FEATURES. Without a running Horef image the version is open. -/
def mGetFeatures (d : Dev) : MsgRes :=
  let w1 := pack32 [(31, 16, d.chipId), (15, 12, d.get F.PWR_STATUS_MODE), (11, 11, b2n d.isConc)]
  match d.runHeader 2 with
  | some h => (d, 0, [d.reg R.PWR_FEATURES, w1, toWord (hdrWord h 8)])
  | none =>
    let (x, d) := drawFree (2 ^ 32 - 1) d
    (d, 0, [d.reg R.PWR_FEATURES, w1, toWord x])

/-- SET_CHIP_ID: the ID takes effect before the response and is announced (R13, R282). -/
def mSetChipId (w : List Word) (d : Dev) : Dev × Nat :=
  let id := bits (wordAt w 0) 15 0
  if id == 0 || id == 0xFFFF then (d, 5) else (announceCaps { d with chipId := id }, 0)

/-- GET_EVENT_LOG: up to 20 entries from FROM_SEQ, or from the oldest held. -/
def eventLog (w : List Word) (d : Dev) : List Word :=
  ((d.ev.log.filter (fun e => (wordAt e 1 - wordAt w 0).toNat < 2 ^ 31)).take 20).flatten

/-- CANCEL (R33): a commit response, TAG 0. -/
def mCancel (w : List Word) (d : Dev) : MsgRes :=
  let (r, d) := cancelSlot (bits (wordAt w 0) 2 0) 0 d
  if r.status == 0 then (d, 0, commitWords 0 0 r.slot false r.apply) else (d, r.status, commitNone 0 0)

/-- DISCARD (R34): BUSY where another mailbox owns an open set. -/
def mDiscard (owner : Nat) (d : Dev) : Dev × Nat :=
  match d.mbx.openSet with
  | some (o, _) => if o == owner then (closeSet (noteCommit 0 0 0 none (discardShadow d)), 0) else (d, 1)
  | none => (noteCommit 0 0 0 none (discardShadow d), 0)

/-- GET_SLOTS. -/
def slotWords (d : Dev) : List Word :=
  slotStateWord d :: (List.range 8).flatMap (fun i => [toWord (d.slot i).target, toWord ((d.slot i).target / 2 ^ 32)]) ++ [trnStatus d]

/-! ### Channel, TDC, capture, time (0x0200 to 0x0500) -/

/-- The register of channel n that GET_CHANNEL returns (R324). -/
def channelRead (block reg n : Nat) : Option Nat :=
  if block == 2 then
    (if reg < 5 then some (0x21020 + 0x40 * n + 4 * reg) else if reg < 8 then some (0x21000 + 0x40 * n + 4 * reg) else none)
  else if block == 3 then (if reg == 0 then some (0x30500 + 4 * n) else none)
  else if block == 4 then
    (if reg == 0 then some (0x41008 + 0x40 * n) else if reg == 1 then some (0x41004 + 0x40 * n) else none)
  else if block == 5 then
    (if reg < 5 then some (0x51014 + 0x40 * n + 4 * reg) else if reg == 10 || reg == 11 then some (0x51000 + 0x40 * n + 4 * reg) else none)
  else none

/-- GET_CHANNEL (R324). -/
def mGetChannel (w : List Word) (d : Dev) : MsgRes :=
  let w0 := wordAt w 0
  let first := bits w0 13 8
  let n := bits w0 6 0
  if n == 0 || 64 < first + n || (channelRead (bits w0 31 27) (bits w0 26 23) 0).isNone then (d, 5, [])
  else (d, 0, (List.range n).filterMap (fun i => (channelRead (bits w0 31 27) (bits w0 26 23) (first + i)).map (fun k => readPlain k d)))

/-- SW_TRIGGER: the mask, then the trigger; DENIED in modes without triggering (R132). -/
def mSwTrigger (w : List Word) (d : Dev) : Dev × Nat :=
  if srcMode d.mode 5 then
    (swTrig ((d.setReg R.CAP_SW_MASK_LO (wordAt w 0)).setReg R.CAP_SW_MASK_HI (wordAt w 1)), 0)
  else (d, 3)

/-- GET_UNIT. -/
def mGetUnit (w : List Word) (d : Dev) : MsgRes :=
  let first := bits (wordAt w 0) 15 8
  let n := bits (wordAt w 0) 5 0
  if n == 0 || 40 < n || 132 < first + n then (d, 5, [])
  else (d, 0, (List.range n).flatMap (fun i =>
    [readPlain (R.TDC_UNIT_STATUS (first + i)) d, readPlain (R.TDC_UNIT_AGE (first + i)) d, readPlain (R.TDC_UNIT_QUAL (first + i)) d]))

/-- n reads of TABLE_DATA, oldest first. -/
def tableReads : Nat → Dev → List Word × Dev
  | 0, d => ([], d)
  | n + 1, d =>
    let (x, d) := tableDataRead d
    let (r, d) := tableReads n d
    (x :: r, d)

/-- GET_TABLE: TABLE_SEL, then COUNT TABLE_DATA words (R103). -/
def mGetTable (w : List Word) (d : Dev) : MsgRes :=
  let w0 := wordAt w 0
  let n := bits w0 6 0
  if n == 0 || 120 < n || 132 ≤ bits w0 29 22 || 5 ≤ bits w0 21 19 then (d, 5, [])
  else
    let d := (((d.put F.TDC_TABLE_SEL_KIND (bits w0 31 30)).put F.TDC_TABLE_SEL_UNIT (bits w0 29 22)).put F.TDC_TABLE_SEL_CHAIN (bits w0 21 19)).put
      F.TDC_TABLE_SEL_ENTRY (bits w0 18 10)
    let (ws, d) := tableReads n d
    (d, 0, ws)

/-- GET_CAPTURE. -/
def captureWords (d : Dev) : List Word := capStatus d :: (List.range 64).map (fun n => capChStatus n d)

/-- GET_TIME. -/
def timeWords (d : Dev) : List Word :=
  hiLo d.clk.turn ++ [pack32 [(24, 11, d.clk.ct), (10, 0, d.clk.fbOff)], readPlain R.TIME_STATUS d] ++ hiLo d.lt64 ++ hiLo d.time.st ++
    [readPlain (R.TIME_OFFSET 0) d, readPlain (R.TIME_OFFSET 1) d, readPlain R.TIME_PT_OFFSET d]

/-- The greatest and the least δ of R325. -/
def deltaMax : Int := (2 ^ 31 - 1) * 33554432 + 32767
def deltaMin : Int := -(2 ^ 31) * 33554432

/-- TIME_STEP (R55, R56, R325). -/
def mTimeStep (w : List Word) (d : Dev) : Dev × Nat :=
  let n := turnOf (wordAt w 1) (wordAt w 2)
  let delta := signedOf 64 ((wordAt w 3).toNat * 2 ^ 32 + (wordAt w 4).toNat)
  match bits (wordAt w 0) 3 0 with
  | 0 => if deltaMin ≤ delta && delta ≤ deltaMax then timeStepExplicit n delta d else (d, 5)
  | 1 => if delta == 0 then timeStepAdopt 0 n d else (d, 5)
  | 2 => if delta == 0 then timeStepAdopt 1 n d else (d, 5)
  | 3 => if delta == 0 then timeStepCancel d else (d, 5)
  | _ => (d, 5)

/-! ### Cascade, queues, links (0x0600, 0x0700) -/

/-- A message is put into the downward relay buffer of port j, or dropped where 8 wait (R221). -/
def sendDownstream (j : Nat) (ws : List Word) (d : Dev) : Dev :=
  if 8 ≤ (d.out.filter (fun m => m.dst == .down j)).length then count1 (R.CAS_COUNT 3) d
  else { d with out := d.out ++ [{ dst := .down j, words := ws }] }

/-- PORT_FORWARD (R220, R326): the inner message, target 0xFFFF and FWD set, leaves after the response of mailbox m. -/
def mPortForward (m : Nat) (w : List Word) (d : Dev) : Dev × Nat :=
  let j := bits (wordAt w 0) 3 0
  let inner := w.drop 1
  if 123 < hdrLen (wordAt inner 0) || inner.length != hdrLen (wordAt inner 0) + 2 then (d, 5)
  else if d.get F.PWR_FEATURES_DN_PORTS ≤ j then (d, 4)
  else if !d.isConc || !(d.portOpen j || d.portState j == 5) then (d, 3)
  else
    let ws := inner.set 1 (setBits (setBits (wordAt inner 1) 31 16 0xFFFF) 11 11 1)
    (d.setMbx { d.mbx with forward := d.mbx.forward ++ [(m, { dst := .down j, words := ws })] }, 0)

/-- SET_MARK (R234). -/
def mSetMark (w : List Word) (d : Dev) : Dev × Nat :=
  match bits (wordAt w 0) 1 0 with
  | 1 => markSet (turnOf (wordAt w 1) (wordAt w 2)) d
  | 2 => markClear d
  | _ => (d, 5)

/-- REWIND (R238). -/
def mRewind (w : List Word) (d : Dev) : Dev × Nat :=
  let c := bits (wordAt w 2) 15 0
  rewindRequest (turnOf (wordAt w 0) (wordAt w 1)) (if c == 0 then 32768 else c) d

/-- GET_QUEUE (R225). -/
def mGetQueue (w : List Word) (d : Dev) : MsgRes :=
  let t := turnOf (wordAt w 0) (wordAt w 1)
  match d.holding t with
  | none => (d, 8, [])
  | some _ => (d, 0, (List.range 4).map (fun i => descWord (qIndex t) i d))

/-- GET_QUEUES. -/
def queuesWords (d : Dev) : List Word :=
  [tqStatus d, readPlain R.TQ_OLDEST_LO d, readPlain R.TQ_OLDEST_HI d, readPlain R.TQ_NEWEST_ACK_LO d, readPlain R.TQ_NEWEST_ACK_HI d,
    readPlain R.TQ_FREE_PAGES d, toWord d.markNow, toWord (d.markNow / 2 ^ 32)]

/-- GET_PORT: a number that is no port returns BAD_ARG, an absent port UNSUPPORTED. -/
def mGetPort (w : List Word) (d : Dev) : MsgRes :=
  let p := bits (wordAt w 0) 3 0
  if 12 ≤ p then (d, 5, [])
  else if d.absentKey (R.LNK_PORT_CFG p) then (d, 4, [])
  else (d, 0, [readPlain (R.LNK_PORT_STATUS p) d, readPlain (R.LNK_PEER_CAP p) d] ++
    (List.range (portLanes p)).flatMap (fun i => [readPlain (R.LNK_LANE_STATUS (laneOf p i)) d, readPlain (R.LNK_LANE_EYE (laneOf p i)) d]))

/-! ### Monitor (0x0800) -/

/-- MON_INJECT (R417). -/
def mMonInject (w : List Word) (d : Dev) : MsgRes :=
  let (d, st) := monInject (wordAt w 0) (wordAt w 1) d
  (d, st, if st == 0 then [toWord d.mon.inj.length] else [])

/-- MON_SYS_CAL (R410, R418): w0 as CAL_CTRL with GO implied, w1 as CAL_FS. -/
def mMonSysCal (w : List Word) (d : Dev) : Dev × Nat := calRequest (bits (wordAt w 0) 31 30) (wordAt w 0) (wordAt w 1) d

/-- MON_READ (R419). -/
def monReadWords (w : List Word) (d : Dev) : List Word :=
  (List.range 4).map (fun i => readPlain (R.MON_LAST_RESULT (bits (wordAt w 0) 5 0) i) d)

/-! ### Register access and telemetry (0x0C00, 0x0D00) -/

/-- n reads of consecutive registers, with the side effects of control-core reads (R327). -/
def peekReads : Nat → Nat → Dev → List Word × Dev
  | 0, _, d => ([], d)
  | n + 1, k, d =>
    let (x, d) := readReg k d
    let (r, d) := peekReads n (k + 4) d
    (x :: r, d)

/-- PEEK (R327). -/
def mPeek (w : List Word) (d : Dev) : MsgRes :=
  let off := bits (wordAt w 0) 23 0
  let n := bits (wordAt w 1) 6 0
  if off % 4 != 0 || n == 0 || 124 < n || 0x130000 < off + 4 * n then (d, 5, [])
  else if (List.range n).any (fun i => d.secureAt (regBase + off + 4 * i) false) then (d, 3, [])
  else
    let (ws, d) := peekReads n off d
    (d, 0, ws)

/-- TELEM_DEFINE (R329, R341). -/
def mTelemDefine (w : List Word) (d : Dev) : Dev × Nat :=
  let id := bits (wordAt w 0) 13 0
  let period := bits (wordAt w 1) 15 0
  let phase := bits (wordAt w 2) 15 0
  let offs := (w.drop 4).map (fun o => bits o 23 0)
  let keep (l : List TelemRec) : List TelemRec := l.filter (fun r => r.id != id)
  let put (l : List TelemRec) : Dev := d.setMbx { d.mbx with telem := l }
  if id == 0x3FFF then (d, 5)
  else if period == 0 then (put (keep d.mbx.telem), 0)
  else if period ≤ phase || offs.isEmpty then (d, 5)
  else
    match (offs.map (fun o => offsetStatus o false d)).find? (· != 0) with
    | some st => (d, st)
    | none =>
      let r : TelemRec := { id := id, period := period, phase := phase, toMbx := bit (wordAt w 3) 0, offsets := offs }
      if d.mbx.telem.any (fun x => x.id == id) then (put (d.mbx.telem.map (fun x => if x.id == id then r else x)), 0)
      else if 32 ≤ d.mbx.telem.length then (d, 9)
      else (put (d.mbx.telem ++ [r]), 0)

/-- TELEM_LIST (R329). -/
def telemListWords (d : Dev) : List Word := d.mbx.telem.map (fun r => pack32 [(29, 16, r.id), (15, 0, r.period)])

/-! ### The catalogue (R321) -/

/-- The messages of the groups 0x0000 to 0x0400 that are not configuring. -/
def messageLow (id : Nat) (c : MsgCtx) (w : List Word) (s : State) : StRes :=
  if id == 0x0002 then devMsg mGetFeatures s
  else if id == 0x0003 then plainMsg (mSetChipId w) s
  else if id == 0x0004 then readMsg (fun _ => w) s
  else if id == 0x0005 then readMsg (eventLog w) s
  else if id == 0x0006 then devMsg mSafeAck s
  else if id == 0x0103 then devMsg (mCancel w) s
  else if id == 0x0104 then plainMsg (mDiscard (ownerOf c)) s
  else if id == 0x0105 then readMsg slotWords s
  else if id == 0x0202 then devMsg (mGetChannel w) s
  else if id == 0x0301 then plainMsg fullCalRequest s
  else if id == 0x0302 then devMsg (mGetUnit w) s
  else if id == 0x0303 then devMsg (mGetTable w) s
  else if id == 0x0401 then plainMsg (mSwTrigger w) s
  else readMsg captureWords s

/-- The messages of the groups 0x0500 to 0x0800. -/
def messageMid (id : Nat) (c : MsgCtx) (w : List Word) (s : State) : StRes :=
  if id == 0x0501 then readMsg timeWords s
  else if id == 0x0502 then plainMsg (mTimeStep w) s
  else if id == 0x0601 then plainMsg (mPortForward c.mbx w) s
  else if id == 0x0602 then plainMsg (mSetMark w) s
  else if id == 0x0603 then plainMsg (mRewind w) s
  else if id == 0x0604 then devMsg (mGetQueue w) s
  else if id == 0x0605 then plainMsg (fun d => (forceGiveUp (bits (wordAt w 0) 1 0) d, 0)) s
  else if id == 0x0606 then plainMsg (mDecompress w) s
  else if id == 0x0607 then readMsg queuesWords s
  else if id == 0x0701 then plainMsg (lnkCmd (wordAt w 0)) s
  else if id == 0x0702 then devMsg (mGetPort w) s
  else if id == 0x0801 then devMsg (mMonInject w) s
  else if id == 0x0802 then plainMsg (mMonSysCal w) s
  else readMsg (monReadWords w) s

/-- The messages of the groups 0x0900 to 0x0D00 that are not configuring. -/
def messageHigh (id : Nat) (c : MsgCtx) (w : List Word) (s : State) : StRes :=
  if id == 0x0901 then devMsg (guardLoad w) s
  else if id == 0x0902 then devMsg (guardConfirm (wordAt w 0) (wordAt w 1)) s
  else if id == 0x0903 then devMsg guardClearMsg s
  else if id == 0x0A01 then devMsg (mGetFaults w) s
  else if id == 0x0A02 then devMsg (mGetFirstError w) s
  else if id == 0x0B01 then devMsg (mGetAttestation w) s
  else if id == 0x0B02 then devMsg (mSetTime w) s
  else if id == 0x0B03 then devMsg (mClaimOwnership w) s
  else if id == 0x0B04 then devMsg (mFwBegin w) s
  else if id == 0x0B05 then mFwChunk w s
  else if id == 0x0B06 then mFwActivate w s
  else if id == 0x0B07 then devMsg (mDebugChallenge c.key w) s
  else if id == 0x0C01 then devMsg (mPeek w) s
  else if id == 0x0D01 then plainMsg (mTelemDefine w) s
  else readMsg telemListWords s

/-- A message of the catalogue whose access and payload layout are in order. -/
def message (id : Nat) (c : MsgCtx) (w : List Word) (s : State) : StRes :=
  if isConfiguring id then configure (ownerOf c) (id == 0x0102) w (planOf id w s.dev) s
  else if id < 0x0500 then messageLow id c w s
  else if id < 0x0900 then messageMid id c w s
  else messageHigh id c w s

/-- A commit response is given whatever the status (R317). -/
def withCommitWords (id : Nat) (w : List Word) (p : List Word) : List Word :=
  if hasCommitResponse id && p.isEmpty then commitNone (if isConfiguring id then cbTag w else 0) 0 else p

/-- Horef serves a message of the catalogue: access, payload layout, effect (R305, R313, R321, R322). -/
def serve (id : Nat) (c : MsgCtx) (w : List Word) (s : State) : StRes :=
  let a := accessStatus id c s.dev
  if a != 0 then (s, a, withCommitWords id w [])
  else if !(match paySpec id with
    | some p => payOk p w
    | none => false) then (s, 5, withCommitWords id w [])
  else
    let (s, st, p) := message id c w s
    (s, st, withCommitWords id w p)

end Sys2Proof.Machine
end

