-- ==== Sys2Proof/Machine/Mailbox.lean ====
section
/-! DEFINITION. The mailboxes (R300 to R303), the routing of messages (R220, R221, R309), the two transports (R307, R308), the
execution of requests (R302, R305, R313, R331, R332), and the commands that stand for one message each. -/

namespace Sys2Proof.Machine

/-! ### Mailbox RAM, state and path (R301, R303) -/

/-- Word i of the RAM of mailbox m. -/
def ramKey (m i : Nat) : Nat := if m < 4 then R.MBX_RAM m i else if m < 6 then R.MBX_RAM_S (m - 4) i else R.MBX_RAM_U (m - 6) i

/-- The first n words of a mailbox. -/
def ramWords (m n : Nat) (d : Dev) : List Word := (List.range n).map (fun i => d.reg (ramKey m i))

/-- Words are put into a mailbox from word i on. -/
def ramPut (m : Nat) : Nat → List Word → Dev → Dev
  | _, [], d => d
  | i, w :: r, d => ramPut m (i + 1) r (if i < 128 then d.setReg (ramKey m i) w else d)

/-- The bytes of n words of mailbox m from word i on, as units of family 3 (R378). -/
def mbxUnits (m i n : Nat) : List Nat := (List.range (4 * n)).map (fun k => 512 * m + 4 * i + k)

/-- A message is written into a mailbox from word i on: the words, the marks of their bytes, and a flip that is armed (R380, R393). -/
def mbxPut (m i : Nat) (ws : List Word) (d : Dev) : Dev :=
  match unitsWritten 3 (mbxUnits m i (min ws.length (128 - i))) (ramPut m i ws d) with
  | (none, d) => d
  | (some (u, x), d) =>
    let k := ramKey m (u % 512 / 4)
    d.setReg k (d.reg k ^^^ BitVec.ofNat 32 (x % 256 * 2 ^ (8 * (u % 4))))

/-- The first n words of mailbox m are read: the units of their bytes are checked. Answers whether one is unreliable (R385). -/
def mbxCheck (m n : Nat) (d : Dev) : Bool × Dev :=
  if d.ram.poison.isEmpty && d.ram.faulty.isEmpty then (false, d)
  else (mbxUnits m 0 n).foldl (fun (acc : Bool × Dev) u =>
    let (bad, d) := readUnit 3 u 1 0x02 0 acc.2
    (acc.1 || bad, d)) (false, d)

/-- STATE_m: 0 EMPTY, 1 REQUEST, 2 EXECUTING, 3 RESPONSE. -/
def Dev.mbxState (d : Dev) (m : Nat) : Nat := bits (d.reg R.MBX_STATE) (4 * m + 3) (4 * m)
def setMbxState (m st : Nat) (d : Dev) : Dev := d.setReg R.MBX_STATE (setBits (d.reg R.MBX_STATE) (4 * m + 3) (4 * m) st)

/-- PATH_m: 0 UA, 1 UB, 2 I²C, 3 control core. -/
def Dev.mbxPath (d : Dev) (m : Nat) : Nat := bits (d.reg R.MBX_PATH) (2 * m + 1) (2 * m)
def setMbxPath (m p : Nat) (d : Dev) : Dev := d.setReg R.MBX_PATH (setBits (d.reg R.MBX_PATH) (2 * m + 1) (2 * m) p)

/-- One bit of DOORBELL_IN or DOORBELL_OUT. -/
def setBell (k m : Nat) (v : Bool) (d : Dev) : Dev := d.setReg k (setBits (d.reg k) m m (b2n v))

/-- Code of a path in MBX_PATH. -/
def pathCode (p : Path) : Nat :=
  match p with
  | .vl1 q => q % 2
  | .i2c => 2
  | .core => 3

/-! ### Responses (R303, R306) -/

/-- A message leaves on a path: on the port of its request if that port still has an ACTIVE lane, else on the active port; a response
for I²C is held to be read, and one for the control core stays in its mailbox (R303, R308). -/
def sendPath (path : Nat) (ws : List Word) (d : Dev) : Dev :=
  if 2 ≤ path then d
  else
    let w1 := wordAt ws 1
    let id := if hdrStamp w1 then some (hdrMbx w1 * 256 + hdrSeq (wordAt ws 0)) else none
    { d with out := d.out ++ [{ dst := if d.portUp path then .up path else .active, words := ws, stampId := id }] }

/-- A response of header only to a request, outside every mailbox (R300, R301, R309, R220). -/
def replyHeader (path : Nat) (w0 w1 : Word) (status : Nat) (d : Dev) : Dev :=
  sendPath path (responseWords d.chipId (hdrId w0) (hdrSeq w0) (hdrMbx w1) (hdrStamp w1) status []) d

/-- A response is complete in mailbox m: it waits there for its sending (DOORBELL_OUT). -/
def respond (m : Nat) (ws : List Word) (d : Dev) : Dev := setBell R.MBX_DOORBELL_OUT m true (setMbxState m 2 (mbxPut m 0 ws d))

/-- The words of the message in a mailbox, by its LEN. -/
def heldWords (m : Nat) (d : Dev) : List Word := ramWords m (2 + min 126 (hdrLen (d.reg (ramKey m 0)))) d

/-- A response is read to be sent: where its bytes fail, Horef writes it anew from its copy (R385). -/
def responseRead (m n : Nat) (d : Dev) : Dev :=
  let (bad, d) := mbxCheck m n d
  if bad then (unitsWritten 3 (mbxUnits m 0 n) d).2 else d

/-! ### Arrival (R300, R301) -/

/-- A request arrives for mailbox m (R301). -/
def arrive (path m : Nat) (ws : List Word) (d : Dev) : Dev :=
  let w0 := wordAt ws 0
  let h0 := d.reg (ramKey m 0)
  let st := d.mbxState m
  if st == 1 || st == 2 then replyHeader path w0 (wordAt ws 1) 1 (count1 (R.MBX_COUNT 1) d)
  else if st == 3 && hdrId w0 == hdrId h0 && hdrSeq w0 == hdrSeq h0 then
    sendPath path (heldWords m d) (responseRead m (heldWords m d).length (count1 (R.MBX_COUNT 2) (setMbxPath m path d)))
  else
    let d := setBell R.MBX_DOORBELL_IN m true (setMbxPath m path (setMbxState m 1 (mbxPut m 0 ws d)))
    let d := count1 (R.MBX_COUNT 0) d
    d.setMbx { d.mbx with order := d.mbx.order ++ [m], got := kset d.mbx.got m ws.length }

/-- A request from outside is delivered to the mailbox that its header selects; MBX_6 and MBX_7 are DENIED (R300). -/
def deliverOutside (path : Nat) (ws : List Word) (d : Dev) : Dev :=
  let w1 := wordAt ws 1
  if 6 ≤ hdrMbx w1 then replyHeader path (wordAt ws 0) w1 3 d else arrive path (hdrMbx w1) ws d

/-! ### Routing (R220, R221, R309) -/

/-- The lowest open port of those that satisfy a condition, ATTACHED before STANDBY (R220). -/
def lowestPort (p : Nat → Bool) (d : Dev) : Option Nat :=
  match (List.range 8).find? (fun j => p j && d.portState j == 3) with
  | some j => some j
  | none => (List.range 8).find? (fun j => p j && d.portState j == 2)

/-- The port on which a target below is reached: by LEARNED_ID, then by a routed range (R220). -/
def routeOf (t : Nat) (d : Dev) : Option Nat :=
  if t == 0 then none
  else
    match lowestPort (fun j => d.learnedId j == t) d with
    | some j => some j
    | none => lowestPort (fun j =>
        let b := d.get (F.CAS_PORT_ROUTE_ROUTE_BASE j)
        b ≤ t && t < b + d.get (F.CAS_PORT_ROUTE_ROUTE_COUNT j)) d

/-- A message arrives on VL_1 of upstream port p: delivered, forwarded by chip ID or refused (R13, R220, R309). -/
def routeVl1 (p : Nat) (ws : List Word) (d : Dev) : Dev :=
  let w0 := wordAt ws 0
  let w1 := wordAt ws 1
  let t := hdrChip w1
  if ws.length < 2 || !d.horefRuns then d
  else if t != 0 && t == d.chipId then deliverOutside p ws d
  else if t == 0xFFFF then
    let d := deliverOutside p ws d
    if d.isConc && !hdrFwd w1 then ((List.range 8).filter (fun j => d.portOpen j)).foldl (fun d j => sendDownstream j ws d) d else d
  else if !d.isConc then replyHeader p w0 w1 9 (count1 (R.MBX_COUNT 6) d)
  else
    match routeOf t d with
    | some j => sendDownstream j ws d
    | none => replyHeader p w0 w1 9 (raise E.CAS_NO_ROUTE [] (count1 (R.CAS_COUNT 4) d))

/-- The oldest message received on VL_1 of a port is taken. -/
def takeMsg (p : Nat) (d : Dev) : Option (List Word × Dev) :=
  match (d.port p).msgs with
  | [] => none
  | w :: r => some (w, d.setPort p { d.port p with msgs := r })

/-- VL1_MESSAGE_ROUTE: the oldest message received on upstream port p (R220). -/
def vl1Route (p : Nat) (d : Dev) : Dev :=
  match takeMsg (p % 2) d with
  | some (w, d) => routeVl1 (p % 2) w d
  | none => d

/-- Is control that comes up from D_j routed (R206)? From a port in ID_MISMATCH only what answers a PORT_FORWARD: responses (DEDUCED, log
entry 147). -/
def routesUp (j : Nat) (w : List Word) (d : Dev) : Bool := d.portOpen j || (d.portState j == 5 && hdrRsp (wordAt w 1))

/-- DOWNSTREAM_MESSAGE_RELAY: the oldest message received on D_j goes upward where R206 routes it, or is dropped where 8 wait (R221). -/
def downRelay (j : Nat) (d : Dev) : Dev :=
  let j := j % 8
  match takeMsg (2 + j) d with
  | none => d
  | some (w, d) =>
    if !routesUp j w d then d
    else if 8 ≤ (d.out.filter (fun m => m.relay == some j)).length then count1 (R.CAS_COUNT 3) d
    else { d with out := d.out ++ [{ dst := .active, words := w, relay := some j }] }

/-! ### Transports (R308) -/

/-- The I²C target answers: EN = 1, and not in BOOT (R308, R345). -/
def Dev.i2cOn (d : Dev) : Bool := d.is F.MBX_I2C_CFG_EN && d.horefRuns

/-- The STOP of an I²C write to pointer m (R308). -/
def i2cWrite (m : Nat) (bytes : List Byte) (d : Dev) : Dev :=
  let ws := wordsOfBytes bytes
  if !d.i2cOn || 6 ≤ m || ws.length < 2 then d else arrive 2 m ws d

/-- An I²C read at pointer 0x10 + m: the held response, else zero bytes, shown as two words (R308). -/
def i2cResponse (m : Nat) (d : Dev) : List Word :=
  if !d.i2cOn || 6 ≤ m then [] else if d.mbxState m == 3 then heldWords m d else [0, 0]

/-- An I²C read at pointer 0x20 (R308). -/
def i2cReady (d : Dev) : List Word :=
  if !d.i2cOn then []
  else
    let r := ((List.range 6).filter (fun m => d.mbxState m == 3 && d.mbxPath m == 2)).foldl (fun a m => a + 2 ^ m) 0
    [toWord (r + 128 * b2n (!d.ev.i2c.isEmpty))]

/-- An I²C read at pointer 0x21 pops the oldest queued event message (R308). -/
def i2cPop (d : Dev) : List Word × Dev :=
  if !d.i2cOn then ([], d)
  else
    match d.ev.i2c with
    | [] => ([0, 0], d)
    | w :: r => (w, { d with ev := { d.ev with i2c := r } })

/-- MAILBOX_REQUEST: a request arrives on a path (R300, R301). -/
def mailboxRequest (path : Path) (ws : List Word) (d : Dev) : Dev :=
  let m := hdrMbx (wordAt ws 1)
  match path with
  | .vl1 p => routeVl1 (p % 2) ws d
  | .i2c => if !d.i2cOn || 6 ≤ m || ws.length < 2 then d else arrive 2 m ws d
  | .core => if !d.horefRuns || m < 6 || ws.length < 2 then d else arrive 3 m ws d

/-! ### Signatures (R312, R313) -/

/-- The words that a signature covers: the header with STATUS and FWD equal to 0, and the payload before SIG_R (R312). -/
def signedWords (ws : List Word) : List Word :=
  ws.take 1 ++ [setBits (setBits (wordAt ws 1) 7 0 0) 11 11 0] ++ (ws.drop 2).take (ws.length - 26)

/-- Signature words of a message: the last 24 (R312). -/
def signatureOf (ws : List Word) : List Word := ws.drop (ws.length - 24)

/-- KEY and COUNTER of the trailer of a payload (R312). -/
def trailerKey (p : List Word) : Nat := bits (wordAt (p.drop (p.length - 27)) 0) 31 24
def trailerCounter (p : List Word) : Nat :=
  let t := p.drop (p.length - 27)
  (wordAt t 1).toNat * 2 ^ 32 + (wordAt t 2).toNat

/-- The signature check of a request of mailbox m, in the order of R313: its status, and the machine with the new counter. -/
def signatureCheck (m id : Nat) (ws : List Word) (d : Dev) : Nat × Dev :=
  let p := ws.drop 2
  let body := p.take (p.length - 27)
  let fail : Nat × Dev := (6, raise E.MBX_SIG_FAIL [] (count1 (R.MBX_COUNT 7) d))
  if m != 4 && m != 5 then (3, d)
  else if p.length < 27 || !d.msgKeyOk id body (trailerKey p) then fail
  else
    match d.keyOf (trailerKey p) with
    | none => fail
    | some k =>
      if !Config.ecdsaVerify k (Config.sha384 (msBytes (signedWords ws))) (signatureOf ws) then fail
      else if trailerCounter p ≤ d.sec.counter then (9, d)
      else (0, wearRecord (d.setSec { d.sec with counter := trailerCounter p }))

/-! ### User-firmware handlers (R331, R332) -/

/-- The running user firmware serves a MSG_ID. -/
def Dev.handles (d : Dev) (id : Nat) : Bool :=
  0x8000 ≤ id && !d.is F.PWR_STATUS_RECOVERY && (d.sec.run.getD 2 none).isSome && Config.hasHandler id

/-- A message of MSG_ID 0x8000 or above: a status at once, or none while its handler runs (R305, R331, R332). -/
def userServe (id hm : Nat) (c : MsgCtx) (d : Dev) : Option Nat × Dev :=
  if !d.handles id then (some 4, d)
  else if 6 ≤ c.mbx then (some 3, d)
  else if !d.mbx.handlers.isEmpty then (some 1, d)
  else
    let h : Handler := { mbx := c.mbx, id := id, seq := c.seq, hdrMbx := hm, stamp := c.stamp, dirty := d.commit.dirty }
    (none, setMbxState c.mbx 2 (d.setMbx { d.mbx with handlers := d.mbx.handlers ++ [h] }))

/-- Words that a handler left dirty are discarded, and the set is closed (R34, R331). -/
def dropLeftover (d : Dev) : Dev := closeSet (discardShadow d)

/-- The handler of mailbox m returns (R331, R332): its response goes out, or is held unsent after a timeout. A BUSY is never held. -/
def handlerReturn (m status : Nat) (payload : List Word) (d : Dev) : Dev :=
  match d.mbx.handlers.find? (fun h => h.mbx == m) with
  | none => d
  | some h =>
    let left := d.commit.dirty.any (fun k => !h.dirty.contains k)
    let d := d.setMbx { d.mbx with handlers := d.mbx.handlers.filter (fun x => x.mbx != m) }
    let ws := responseWords d.chipId h.id h.seq h.hdrMbx h.stamp status payload
    if h.late then
      let d := if left then dropLeftover d else d
      if status == 1 then setMbxState m 0 d else setMbxState m 3 (mbxPut m 0 ws d)
    else
      let d := if left then d.setMbx { d.mbx with remains := d.mbx.remains ++ [m] } else d
      respond m ws d

/-- A handler still running 500 µs after its request is answered BUSY on its behalf (R332). -/
def handlerTimeout (m : Nat) (d : Dev) : Dev :=
  match d.mbx.handlers.find? (fun h => h.mbx == m && !h.late) with
  | none => d
  | some h =>
    let d := d.setMbx { d.mbx with handlers := d.mbx.handlers.map (fun x => if x.mbx == m then { x with late := true } else x) }
    sendPath (d.mbxPath m) (responseWords d.chipId h.id h.seq h.hdrMbx h.stamp 1 []) d

/-! ### Execution (R302) -/

/-- The context of a request: its mailbox and header fields. -/
def ctxOf (m : Nat) (w0 w1 : Word) (p : List Word) : MsgCtx :=
  { mbx := m, seq := hdrSeq w0, id := hdrId w0, bcast := hdrChip w1 == 0xFFFF, fwd := hdrFwd w1, signed := hdrSig w1,
    key := if hdrSig w1 then trailerKey p else 0, stamp := hdrStamp w1 }

/-- The message of a request whose header is in order: the signature, then the catalogue or a handler. None while a handler runs. -/
def runRequest (m : Nat) (ws : List Word) (s : State) : Option (Nat × List Word) × State :=
  let w0 := wordAt ws 0
  let w1 := wordAt ws 1
  let p := ws.drop 2
  let body := if hdrSig w1 then p.take (p.length - 27) else p
  let (sig, d) := if hdrSig w1 then signatureCheck m (hdrId w0) ws s.dev else (0, s.dev)
  let s := { s with dev := d }
  if sig != 0 then (some (sig, withCommitWords (hdrId w0) body []), s)
  else if 0x8000 ≤ hdrId w0 then
    match userServe (hdrId w0) (hdrMbx w1) (ctxOf m w0 w1 p) s.dev with
    | (some st, d) => (some (st, []), { s with dev := d })
    | (none, d) => (none, { s with dev := d })
  else
    let (s, st, out) := serve (hdrId w0) (ctxOf m w0 w1 p) body s
    (some (st, out), s)

/-- Bits 23:0 of trailer word 0 are reserved (R312). -/
def trailerReserved (ws : List Word) : Bool :=
  hdrSig (wordAt ws 1) && 29 ≤ ws.length && bits (wordAt (ws.drop (ws.length - 27)) 0) 23 0 != 0

/-- A request is executed: the header checks of R305 and R308, then its message. -/
def executeWords (m path got : Nat) (ws : List Word) (s : State) : Option (Nat × List Word) × State :=
  let w0 := wordAt ws 0
  let w1 := wordAt ws 1
  if headerBad path got w0 w1 || trailerReserved ws then
    (some (5, []), { s with dev := raise E.MBX_BAD_HEADER [] (count1 (R.MBX_COUNT 3) s.dev) })
  else if path == 2 && hdrChip w1 != s.dev.chipId && hdrChip w1 != 0 && hdrChip w1 != 0xFFFF then (some (9, []), s)
  else runRequest m ws s

/-- A response is formed for a request (R306). -/
def responseTo (w0 w1 : Word) (st : Nat) (out : List Word) (d : Dev) : List Word :=
  responseWords d.chipId (hdrId w0) (hdrSeq w0) (hdrMbx w1) (hdrStamp w1) st out

/-- Is a request being executed, its handler not late (R302)? -/
def Dev.executing (d : Dev) : Bool :=
  (List.range 8).any (fun m => d.mbxState m == 2 && !d.mbx.handlers.any (fun h => h.mbx == m && h.late))

/-- Horef takes the oldest request and executes it (R302). One whose words cannot be read is answered BAD_ARG (R385). -/
def requestExecute (s : State) : State :=
  let d := s.dev
  if !d.horefRuns || d.sec.halted || d.executing then s
  else
    match d.mbx.order with
    | [] => s
    | m :: r =>
      let got := kget d.mbx.got m 0
      let d := setBell R.MBX_DOORBELL_IN m false (setMbxState m 2 (d.setMbx { d.mbx with order := r }))
      let w0 := d.reg (ramKey m 0)
      let w1 := d.reg (ramKey m 1)
      let ws := ramWords m (2 + min 126 (hdrLen w0)) d
      let (bad, d) := mbxCheck m ws.length d
      if bad then { s with dev := respond m (responseTo w0 w1 5 [] d) d }
      else
        match executeWords m (d.mbxPath m) got ws { s with dev := d } with
        | (none, s) => s
        | (some (st, out), s) => { s with dev := respond m (responseTo w0 w1 st out s.dev) s.dev }

/-- The response of mailbox m is sent (R302, R303, R326, R331). -/
def responseSend (m : Nat) (d : Dev) : Dev :=
  let m := m % 8
  if !bit (d.reg R.MBX_DOORBELL_OUT) m then d
  else
    let ws := heldWords m d
    let d := setBell R.MBX_DOORBELL_OUT m false (sendPath (d.mbxPath m) ws (responseRead m ws.length d))
    let d := setMbxState m (if hdrStatus (wordAt ws 1) == 1 then 0 else 3) d
    let d := if d.mbx.remains.contains m then dropLeftover (d.setMbx { d.mbx with remains := d.mbx.remains.filter (· != m) }) else d
    let fwd := (d.mbx.forward.filter (fun f => f.1 == m)).map (·.2)
    let d := d.setMbx { d.mbx with forward := d.mbx.forward.filter (fun f => f.1 != m) }
    fwd.foldl (fun d o => match o.dst with
      | .down j => sendDownstream j o.words d
      | _ => d) d

/-! ### What Horef does at its own times (R316, R319, R330) -/

/-- An open set without a message from its owner for 4 096 turns is discarded (R316). -/
def openSetExpire (d : Dev) : Dev :=
  match d.mbx.openSet with
  | some (_, age) => if 4096 ≤ age then raise E.MBX_SET_EXPIRED [] (closeSet (discardShadow d)) else d
  | none => d

/-- The message that a full I²C event queue drops is counted (R319). -/
def noteLost (lost : Bool) (d : Dev) : Dev := if lost then raise E.MBX_EVT_LOST [] (count1 (R.MBX_COUNT 5) d) else d

/-- The 256-turn interval of an event bit ends: one message carries the raises counted, and a new interval begins (R319). -/
def eventIntervalEnd (block bitNo : Nat) (d : Dev) : Dev :=
  let e := block * 32 + bitNo
  match d.ev.open_.find? (fun i => i.evt == e && 256 ≤ i.age) with
  | none => d
  | some i =>
    let d := { d with ev := { d.ev with open_ := d.ev.open_.filter (fun x => x.evt != e) } }
    if i.count == 0 then d
    else
      let lost := 64 ≤ d.ev.i2c.length
      let d := sendEvent e i.count i.first i.firstLt i.detail d
      let d := { d with ev := { d.ev with open_ := d.ev.open_ ++ [({ evt := e, count := 0, first := d.now, firstLt := 0, detail := [] } : EvtInterval)] } }
      noteLost lost (count1 (R.MBX_COUNT 4) d)

/-- A record is read and leaves as a TELEM item, and as TELEM_REPORT where it says so (R330). -/
def telemTake (r : TelemRec) (d : Dev) : Dev :=
  let vals := r.offsets.map (fun o => readPlain o d)
  let pay := pairWords vals
  let t : Stamp := d.now
  let d := emitTo 132 { t := t, src := 132, words := pack64 [(63, 60, 9), (57, 54, pay.length), (53, 40, r.id), (39, 0, t.t40)] :: pay } d
  if !r.toMbx then d
  else
    let (seq, d) := drawFree 255 d
    let p := toWord r.id :: hiLo d.clk.turn ++ vals
    let msg := header 0x0D02 seq p.length d.chipId 8 0 0 ++ p
    let lost := 64 ≤ d.ev.i2c.length
    let d := { d with
      out := d.out ++ [{ dst := .active, words := msg }]
      ev := { d.ev with i2c := (if lost then d.ev.i2c.drop 1 else d.ev.i2c) ++ [msg] } }
    noteLost lost d

/-- TELEM_RECORD: a due record takes its TELEM fabric pip (R330). -/
def telemRecord (id : Nat) (d : Dev) : Dev :=
  match d.mbx.telem.find? (fun r => r.id == id && r.waiting) with
  | none => d
  | some r =>
    withPips 0 2 1 (fun d => telemTake r (d.setMbx { d.mbx with
      telem := d.mbx.telem.map (fun x => if x.id == id then { x with waiting := false } else x) })) d

/-- A DEBUG_CHALLENGE shifted in through SEC_MSG is executed as if it had arrived in MBX_4; its response is shifted out (R491). -/
def jtagSecMsg (ws : List Word) (s : State) : State :=
  let w0 := wordAt ws 0
  if ws.length < 2 || hdrId w0 != 0x0B07 || !s.dev.horefRuns then s
  else
    match executeWords 4 3 ws.length ws s with
    | (none, s) => s
    | (some (st, out), s) => { s with dev := { s.dev with rdata := responseTo w0 (wordAt ws 1) st out s.dev } }

/-! ### Messages as commands -/

/-- Horef executes one message: `id` by the command, the request by its context; the response stands in the mailbox. -/
def direct (id : Nat) (c : MsgCtx) (w : List Word) (s : State) : State :=
  if !s.dev.horefRuns || s.dev.sec.halted then s
  else
    let m := c.mbx % 8
    let (s, st, out) := serve id { c with mbx := m } w s
    { s with dev := respond m (responseWords s.dev.chipId id c.seq m c.stamp st out) s.dev }

/-- A message of a user-firmware handler as a command; a payload longer than a message holds is BAD_ARG (R305). -/
def directUser (id : Nat) (c : MsgCtx) (w : List Word) (d : Dev) : Dev :=
  if !d.horefRuns || d.sec.halted then d
  else
    let m := c.mbx % 8
    if 126 < w.length then respond m (responseWords d.chipId id c.seq m c.stamp 5 []) d
    else match userServe id m { c with mbx := m } d with
    | (some st, d) => respond m (responseWords d.chipId id c.seq m c.stamp st []) d
    | (none, d) => d

/-- A command that is a message, or an access to registers where no request is given. -/
def orRegs (id : Nat) (req : Option MsgCtx) (w : List Word) (regs : State → State) (s : State) : State :=
  match req with
  | some c => direct id c w s
  | none => regs s

/-- Words are written to registers, in order. -/
def putRegs (kvs : List (Nat × Word)) (s : State) : State := kvs.foldl (fun s x => writeReg x.1 x.2 s) s

/-- The words given for a run of registers. -/
def forRegs (ks : List Nat) (w : List Word) : List (Nat × Word) := List.zip ks w

end Sys2Proof.Machine
end

