-- ==== Sys2Proof/Machine/Commands.lean ====
section
/-! DEFINITION. The commands that are messages, or the registers that do the same (R300 to R332 and the chapters R321 names). Where a
row may come both ways, a request context makes it the message and its absence the registers. -/

namespace Sys2Proof.Machine

/-- VL1_MESSAGE_ROUTE (R220). -/
def execVl1MessageRoute (p : Nat) (s : State) : Host.Outcome State Fault Refusal :=
  onDev (vl1Route p) s
/-- DOWNSTREAM_MESSAGE_RELAY (R221). -/
def execDownstreamMessageRelay (j : Nat) (s : State) : Host.Outcome State Fault Refusal :=
  onDev (downRelay j) s
/-- MAILBOX_REQUEST (R301). -/
def execMailboxRequest (path : Path) (words : List Word) (s : State) : Host.Outcome State Fault Refusal :=
  onDev (mailboxRequest path words) s
/-- I2C_MESSAGE_WRITE (R308). -/
def execI2cMessageWrite (m : Nat) (bytes : List Byte) (s : State) : Host.Outcome State Fault Refusal :=
  onDev (i2cWrite m bytes) s
/-- I2C_RESPONSE_READ (R308). -/
def execI2cResponseRead (m : Nat) (s : State) : Host.Outcome State Fault Refusal :=
  onDev (fun d => { d with rdata := i2cResponse m d }) s
/-- I2C_READY_READ (R308). -/
def execI2cReadyRead (s : State) : Host.Outcome State Fault Refusal :=
  onDev (fun d => { d with rdata := i2cReady d }) s
/-- I2C_EVENT_POP (R308). -/
def execI2cEventPop (s : State) : Host.Outcome State Fault Refusal :=
  onDev (fun d => { (i2cPop d).2 with rdata := (i2cPop d).1 }) s
/-- REQUEST_EXECUTE (R302). -/
def execRequestExecute (s : State) : Host.Outcome State Fault Refusal :=
  .next (requestExecute s)
/-- RESPONSE_SEND (R302). -/
def execResponseSend (m : Nat) (s : State) : Host.Outcome State Fault Refusal :=
  onDev (responseSend m) s
/-- USER_MESSAGE (R331). -/
def execUserMessage (req : MsgCtx) (id : Nat) (w : List Word) (s : State) : Host.Outcome State Fault Refusal :=
  onDev (directUser (0x8000 + id % 0x8000) req w) s
/-- HANDLER_RETURN (R332). -/
def execHandlerReturn (m status : Nat) (payload : List Word) (s : State) : Host.Outcome State Fault Refusal :=
  onDev (handlerReturn m status payload) s
/-- HANDLER_TIMEOUT (R332). -/
def execHandlerTimeout (m : Nat) (s : State) : Host.Outcome State Fault Refusal :=
  onDev (handlerTimeout m) s
/-- OPEN_SET_EXPIRE (R316). -/
def execOpenSetExpire (s : State) : Host.Outcome State Fault Refusal :=
  onDev openSetExpire s
/-- EVENT_INTERVAL_END (R319). -/
def execEventIntervalEnd (block bit : Nat) (s : State) : Host.Outcome State Fault Refusal :=
  onDev (eventIntervalEnd block bit) s
/-- TELEM_RECORD (R330). -/
def execTelemRecord (id : Nat) (s : State) : Host.Outcome State Fault Refusal :=
  onDev (telemRecord id) s
/-- JTAG_SEC_MSG (R491). -/
def execJtagSecMsg (words : List Word) (s : State) : Host.Outcome State Fault Refusal :=
  .next (jtagSecMsg words s)
/-- EVENT (R321). -/
def execEvent (req : MsgCtx) (w : List Word) (s : State) : Host.Outcome State Fault Refusal :=
  .next (direct 0x0001 req w s)
/-- GET_FEATURES (R321). -/
def execGetFeatures (req : MsgCtx) (w : List Word) (s : State) : Host.Outcome State Fault Refusal :=
  .next (direct 0x0002 req w s)
/-- SET_CHIP_ID (R321). -/
def execSetChipId (req : MsgCtx) (w : List Word) (s : State) : Host.Outcome State Fault Refusal :=
  .next (direct 0x0003 req w s)
/-- PING (R321). -/
def execPing (req : MsgCtx) (w : List Word) (s : State) : Host.Outcome State Fault Refusal :=
  .next (direct 0x0004 req w s)
/-- GET_EVENT_LOG (R321). -/
def execGetEventLog (req : MsgCtx) (w : List Word) (s : State) : Host.Outcome State Fault Refusal :=
  .next (direct 0x0005 req w s)
/-- SAFE_ACK (R350). -/
def execSafeAck (req : MsgCtx) (w : List Word) (s : State) : Host.Outcome State Fault Refusal :=
  .next (direct 0x0006 req w s)
/-- SET_MODE (R337). -/
def execSetMode (req : MsgCtx) (w : List Word) (s : State) : Host.Outcome State Fault Refusal :=
  .next (direct 0x0101 req w s)
/-- SEAL (R321). -/
def execSeal (req : MsgCtx) (w : List Word) (s : State) : Host.Outcome State Fault Refusal :=
  .next (direct 0x0102 req w s)
/-- GET_SLOTS (R321). -/
def execGetSlots (req : MsgCtx) (w : List Word) (s : State) : Host.Outcome State Fault Refusal :=
  .next (direct 0x0105 req w s)
/-- SET_BUDGET (R43). -/
def execSetBudget (req : MsgCtx) (w : List Word) (s : State) : Host.Outcome State Fault Refusal :=
  .next (direct 0x0106 req w s)
/-- SET_CHANNEL (R323). -/
def execSetChannel (req : MsgCtx) (w : List Word) (s : State) : Host.Outcome State Fault Refusal :=
  .next (direct 0x0201 req w s)
/-- GET_CHANNEL (R324). -/
def execGetChannel (req : MsgCtx) (w : List Word) (s : State) : Host.Outcome State Fault Refusal :=
  .next (direct 0x0202 req w s)
/-- SET_TEST_PULSE (R87). -/
def execSetTestPulse (req : MsgCtx) (w : List Word) (s : State) : Host.Outcome State Fault Refusal :=
  .next (direct 0x0203 req w s)
/-- GET_UNIT (R321). -/
def execGetUnit (req : MsgCtx) (w : List Word) (s : State) : Host.Outcome State Fault Refusal :=
  .next (direct 0x0302 req w s)
/-- GET_TABLE (R321). -/
def execGetTable (req : MsgCtx) (w : List Word) (s : State) : Host.Outcome State Fault Refusal :=
  .next (direct 0x0303 req w s)
/-- GET_CAPTURE (R321). -/
def execGetCapture (req : MsgCtx) (w : List Word) (s : State) : Host.Outcome State Fault Refusal :=
  .next (direct 0x0402 req w s)
/-- GET_TIME (R321). -/
def execGetTime (req : MsgCtx) (w : List Word) (s : State) : Host.Outcome State Fault Refusal :=
  .next (direct 0x0501 req w s)
/-- PORT_FORWARD (R326). -/
def execPortForward (req : MsgCtx) (w : List Word) (s : State) : Host.Outcome State Fault Refusal :=
  .next (direct 0x0601 req w s)
/-- GET_QUEUE (R321). -/
def execGetQueue (req : MsgCtx) (w : List Word) (s : State) : Host.Outcome State Fault Refusal :=
  .next (direct 0x0604 req w s)
/-- GET_QUEUES (R321). -/
def execGetQueues (req : MsgCtx) (w : List Word) (s : State) : Host.Outcome State Fault Refusal :=
  .next (direct 0x0607 req w s)
/-- GET_PORT (R321). -/
def execGetPort (req : MsgCtx) (w : List Word) (s : State) : Host.Outcome State Fault Refusal :=
  .next (direct 0x0702 req w s)
/-- MON_READ (R419). -/
def execMonRead (req : MsgCtx) (w : List Word) (s : State) : Host.Outcome State Fault Refusal :=
  .next (direct 0x0803 req w s)
/-- GET_FAULTS (R468). -/
def execGetFaults (req : MsgCtx) (w : List Word) (s : State) : Host.Outcome State Fault Refusal :=
  .next (direct 0x0A01 req w s)
/-- GET_FIRST_ERROR (R469). -/
def execGetFirstError (req : MsgCtx) (w : List Word) (s : State) : Host.Outcome State Fault Refusal :=
  .next (direct 0x0A02 req w s)
/-- SET_REACTION (R470). -/
def execSetReaction (req : MsgCtx) (w : List Word) (s : State) : Host.Outcome State Fault Refusal :=
  .next (direct 0x0A03 req w s)
/-- GET_ATTESTATION (R489). -/
def execGetAttestation (req : MsgCtx) (w : List Word) (s : State) : Host.Outcome State Fault Refusal :=
  .next (direct 0x0B01 req w s)
/-- SET_TIME (R492). -/
def execSetTime (req : MsgCtx) (w : List Word) (s : State) : Host.Outcome State Fault Refusal :=
  .next (direct 0x0B02 req w s)
/-- CLAIM_OWNERSHIP (R484). -/
def execClaimOwnership (req : MsgCtx) (w : List Word) (s : State) : Host.Outcome State Fault Refusal :=
  .next (direct 0x0B03 req w s)
/-- FW_BEGIN (R485). -/
def execFwBegin (req : MsgCtx) (w : List Word) (s : State) : Host.Outcome State Fault Refusal :=
  .next (direct 0x0B04 req w s)
/-- FW_CHUNK (R492). -/
def execFwChunk (req : MsgCtx) (w : List Word) (s : State) : Host.Outcome State Fault Refusal :=
  .next (direct 0x0B05 req w s)
/-- DEBUG_CHALLENGE (R490). -/
def execDebugChallenge (req : MsgCtx) (w : List Word) (s : State) : Host.Outcome State Fault Refusal :=
  .next (direct 0x0B07 req w s)
/-- PEEK (R327). -/
def execPeek (req : MsgCtx) (w : List Word) (s : State) : Host.Outcome State Fault Refusal :=
  .next (direct 0x0C01 req w s)
/-- POKE (R328). -/
def execPoke (req : MsgCtx) (w : List Word) (s : State) : Host.Outcome State Fault Refusal :=
  .next (direct 0x0C02 req w s)
/-- TELEM_DEFINE (R329). -/
def execTelemDefine (req : MsgCtx) (w : List Word) (s : State) : Host.Outcome State Fault Refusal :=
  .next (direct 0x0D01 req w s)
/-- TELEM_LIST (R329). -/
def execTelemList (req : MsgCtx) (w : List Word) (s : State) : Host.Outcome State Fault Refusal :=
  .next (direct 0x0D03 req w s)
/-- FW_VERIFY (R486): FW_ACTIVATE with OP = VERIFY. -/
def execFwVerify (req : MsgCtx) (w : List Word) (s : State) : Host.Outcome State Fault Refusal :=
  .next (direct 0x0B06 req (w.modify 0 (fun x => setBits x 4 4 0)) s)
/-- FW_COMMIT (R487): FW_ACTIVATE with OP = COMMIT. -/
def execFwCommit (req : MsgCtx) (w : List Word) (s : State) : Host.Outcome State Fault Refusal :=
  .next (direct 0x0B06 req (w.modify 0 (fun x => setBits x 4 4 1)) s)
/-- TIME_STEP_EXPLICIT (R55). -/
def execTimeStepExplicit (req : MsgCtx) (n : Nat) (delta : Int) (s : State) : Host.Outcome State Fault Refusal :=
  .next (direct 0x0502 req (0 :: hiLo (n % turnMod) ++ hiLo (ofSigned 64 (if deltaMin ≤ delta && delta ≤ deltaMax then delta else 2 ^ 62))) s)
/-- TIME_STEP_ADOPT (R55). -/
def execTimeStepAdopt (req : MsgCtx) (p n : Nat) (s : State) : Host.Outcome State Fault Refusal :=
  .next (direct 0x0502 req (toWord (1 + p % 2) :: hiLo (n % turnMod) ++ [0, 0]) s)
/-- TIME_STEP_CANCEL (R56). -/
def execTimeStepCancel (req : MsgCtx) (s : State) : Host.Outcome State Fault Refusal :=
  .next (direct 0x0502 req [3, 0, 0, 0, 0] s)
/-- CANCEL (R33): the message, or COMMIT_CTRL with OP = CANCEL. -/
def execCancel (req : Option MsgCtx) (slot tag : Nat) (s : State) : Host.Outcome State Fault Refusal :=
  .next (orRegs 0x0103 req [toWord (slot % 8)] (writeReg R.TRN_COMMIT_CTRL (pack32 [(15, 8, tag), (6, 4, slot), (2, 0, 4)])) s)
/-- DISCARD (R34): the message, or COMMIT_CTRL with OP = DISCARD_SHADOW. -/
def execDiscard (req : Option MsgCtx) (tag : Nat) (s : State) : Host.Outcome State Fault Refusal :=
  .next (orRegs 0x0104 req [] (writeReg R.TRN_COMMIT_CTRL (pack32 [(15, 8, tag), (2, 0, 5)])) s)
/-- TDC_FULL_CAL (R111): the message, or TDC_CMD.FULL_CAL. -/
def execTdcFullCal (req : Option MsgCtx) (s : State) : Host.Outcome State Fault Refusal :=
  .next (orRegs 0x0301 req [] (writeReg R.TDC_CMD 1) s)
/-- SW_TRIGGER (R132): the message, or SW_MASK and CAP_CMD.SW_TRIG. -/
def execSwTrigger (req : Option MsgCtx) (lo hi : Word) (s : State) : Host.Outcome State Fault Refusal :=
  .next (orRegs 0x0401 req [lo, hi] (putRegs [(R.CAP_SW_MASK_LO, lo), (R.CAP_SW_MASK_HI, hi), (R.CAP_CMD, 1)]) s)
/-- MARK_SET (R234): SET_MARK with OP = SET, or MARK_CMD. -/
def execMarkSet (req : Option MsgCtx) (target : Nat) (s : State) : Host.Outcome State Fault Refusal :=
  .next (orRegs 0x0602 req (1 :: hiLo (target % turnMod)) (putRegs [(R.TQ_MARK_TARGET_LO, toWord target), (R.TQ_MARK_TARGET_HI, toWord (target % turnMod / 2 ^ 32)), (R.TQ_MARK_CMD, 1)]) s)
/-- MARK_CLEAR (R234): SET_MARK with OP = CLEAR, or MARK_CMD. -/
def execMarkClear (req : Option MsgCtx) (s : State) : Host.Outcome State Fault Refusal :=
  .next (orRegs 0x0602 req [2, 0, 0] (writeReg R.TQ_MARK_CMD 2) s)
/-- REWIND (R238): the message, or the REWIND registers. -/
def execRewind (req : Option MsgCtx) (first count : Nat) (s : State) : Host.Outcome State Fault Refusal :=
  .next (orRegs 0x0603 req (hiLo (first % turnMod) ++ [toWord (count % 65536)]) (putRegs [(R.TQ_REWIND_FIRST_LO, toWord first), (R.TQ_REWIND_FIRST_HI, toWord (first % turnMod / 2 ^ 32)), (R.TQ_REWIND_COUNT, toWord (count % 65536)), (R.TQ_REWIND_CMD, 1)]) s)
/-- GIVE_UP (R243): the message, or UP_CMD.FORCE. -/
def execGiveUp (req : Option MsgCtx) (force : Nat) (s : State) : Host.Outcome State Fault Refusal :=
  .next (orRegs 0x0605 req [toWord (force % 4)] (writeReg R.TQ_UP_CMD (toWord (force % 4))) s)
/-- The JOB registers in the order of a DECOMPRESS payload. -/
def jobRegs : List Nat := [R.CMP_JOB_IN_HI, R.CMP_JOB_IN_LO, R.CMP_JOB_IN_LEN, R.CMP_JOB_OUT_HI, R.CMP_JOB_OUT_LO, R.CMP_JOB_OUT_SPACE, R.CMP_JOB_CAP]
/-- A DECOMPRESS payload with its JOB_CMD word. -/
def jobPayload (w : List Word) (cmd : Nat) : List Word := w.take 7 ++ [toWord cmd]
/-- JOB_START (R264): DECOMPRESS, or the JOB registers and JOB_CMD. -/
def execJobStart (req : Option MsgCtx) (w : List Word) (s : State) : Host.Outcome State Fault Refusal :=
  .next (orRegs 0x0606 req (jobPayload w 1) (fun s => writeReg R.CMP_JOB_CMD (toWord 1) (putRegs (forRegs jobRegs w) s)) s)
/-- JOB_RESUME (R266): DECOMPRESS, or the JOB registers and JOB_CMD. -/
def execJobResume (req : Option MsgCtx) (w : List Word) (skip : Bool) (s : State) : Host.Outcome State Fault Refusal :=
  .next (orRegs 0x0606 req (jobPayload w (2 + 4 * b2n skip)) (fun s => writeReg R.CMP_JOB_CMD (toWord (2 + 4 * b2n skip)) (putRegs (forRegs jobRegs w) s)) s)
/-- JOB_ABORT (R264): DECOMPRESS, or the JOB registers and JOB_CMD. -/
def execJobAbort (req : Option MsgCtx) (w : List Word) (s : State) : Host.Outcome State Fault Refusal :=
  .next (orRegs 0x0606 req (jobPayload w 3) (fun s => writeReg R.CMP_JOB_CMD (toWord 3) (putRegs (forRegs jobRegs w) s)) s)
/-- LINK_RETRAIN (R287): LINK_CMD, or LNK_CMD. -/
def execLinkRetrain (req : Option MsgCtx) (p : Nat) (s : State) : Host.Outcome State Fault Refusal :=
  .next (orRegs 0x0701 req [pack32 [(19, 16, p), (2, 0, 1)]] (writeReg R.LNK_CMD (pack32 [(19, 16, p), (2, 0, 1)])) s)
/-- LINK_RESTART (R280): LINK_CMD, or LNK_CMD. -/
def execLinkRestart (req : Option MsgCtx) (p : Nat) (s : State) : Host.Outcome State Fault Refusal :=
  .next (orRegs 0x0701 req [pack32 [(19, 16, p), (2, 0, 2)]] (writeReg R.LNK_CMD (pack32 [(19, 16, p), (2, 0, 2)])) s)
/-- PRBS_START (R296): LINK_CMD, or LNK_CMD. -/
def execPrbsStart (req : Option MsgCtx) (l len : Nat) (s : State) : Host.Outcome State Fault Refusal :=
  .next (orRegs 0x0701 req [pack32 [(27, 24, len), (12, 8, l), (2, 0, 3)]] (writeReg R.LNK_CMD (pack32 [(27, 24, len), (12, 8, l), (2, 0, 3)])) s)
/-- PRBS_STOP (R296): LINK_CMD, or LNK_CMD. -/
def execPrbsStop (req : Option MsgCtx) (l : Nat) (s : State) : Host.Outcome State Fault Refusal :=
  .next (orRegs 0x0701 req [pack32 [(12, 8, l), (2, 0, 4)]] (writeReg R.LNK_CMD (pack32 [(12, 8, l), (2, 0, 4)])) s)
/-- MON_INJECT (R417): the message, or INJ_CMD.PUSH. -/
def execMonInject (req : Option MsgCtx) (w : List Word) (s : State) : Host.Outcome State Fault Refusal :=
  .next (orRegs 0x0801 req w (fun s => writeReg R.MON_INJ_CMD 1 (putRegs (forRegs [R.MON_INJ_ENTRY0, R.MON_INJ_ENTRY1] w) s)) s)
/-- CAL_ZERO (R410): MON_SYS_CAL with STEP = ZERO, or CAL_CTRL and CAL_FS. -/
def execCalZero (req : Option MsgCtx) (w : List Word) (s : State) : Host.Outcome State Fault Refusal :=
  .next (orRegs 0x0802 req (w.modify 0 (fun x => setBits x 31 30 0)) (fun s => writeReg R.MON_CAL_CTRL (setBits (setBits (wordAt w 0) 31 30 0) 0 0 1) (writeReg R.MON_CAL_FS (wordAt w 1) s)) s)
/-- CAL_FULL (R410): MON_SYS_CAL with STEP = FULL, or CAL_CTRL and CAL_FS. -/
def execCalFull (req : Option MsgCtx) (w : List Word) (s : State) : Host.Outcome State Fault Refusal :=
  .next (orRegs 0x0802 req (w.modify 0 (fun x => setBits x 31 30 1)) (fun s => writeReg R.MON_CAL_CTRL (setBits (setBits (wordAt w 0) 31 30 1) 0 0 1) (writeReg R.MON_CAL_FS (wordAt w 1) s)) s)
/-- CAL_STORE (R410): MON_SYS_CAL with STEP = STORE, or CAL_CTRL and CAL_FS. -/
def execCalStore (req : Option MsgCtx) (w : List Word) (s : State) : Host.Outcome State Fault Refusal :=
  .next (orRegs 0x0802 req (w.modify 0 (fun x => setBits x 31 30 2)) (fun s => writeReg R.MON_CAL_CTRL (setBits (setBits (wordAt w 0) 31 30 2) 0 0 1) (writeReg R.MON_CAL_FS (wordAt w 1) s)) s)
/-- CAL_ABORT (R410): MON_SYS_CAL with STEP = ABORT, or CAL_CTRL and CAL_FS. -/
def execCalAbort (req : Option MsgCtx) (w : List Word) (s : State) : Host.Outcome State Fault Refusal :=
  .next (orRegs 0x0802 req (w.modify 0 (fun x => setBits x 31 30 3)) (fun s => writeReg R.MON_CAL_CTRL (setBits (setBits (wordAt w 0) 31 30 3) 0 0 1) (writeReg R.MON_CAL_FS (wordAt w 1) s)) s)
/-- GUARD_LOAD_GPB (R446): the message, or GPB_PEND and GCMD with OP = LOAD. -/
def execGuardLoadGpb (req : Option MsgCtx) (w : List Word) (s : State) : Host.Outcome State Fault Refusal :=
  .next (orRegs 0x0901 req w (fun s => writeReg R.GRD_GCMD 1 (putRegs (forRegs ((List.range 32).map (fun i => R.GRD_GPB_PEND i)) w) s)) s)
/-- GUARD_CONFIRM (R447): the message, or GCMD with OP = CONFIRM. -/
def execGuardConfirm (req : Option MsgCtx) (w : List Word) (s : State) : Host.Outcome State Fault Refusal :=
  .next (orRegs 0x0902 req w (fun s => writeReg R.GRD_GCMD 2 (putRegs (forRegs [R.GRD_GCMD_ARG, R.GRD_GCMD_SERIAL] w) s)) s)
/-- GUARD_CLEAR (R448): the message, or GCMD with OP = CLEAR. -/
def execGuardClear (req : Option MsgCtx) (w : List Word) (s : State) : Host.Outcome State Fault Refusal :=
  .next (orRegs 0x0903 req w (writeReg R.GRD_GCMD 3) s)

end Sys2Proof.Machine
end

