-- ==== Sys2Proof/Machine/Dispatch.lean ====
section
/-! DEFINITION. exec: one arm for each command of the table, each one direct call of its meaning. -/

namespace Sys2Proof.Machine

def exec (i : Instr) (s : State) : Host.Outcome State Fault Refusal :=
  match i with
  | .turnBoundary env => Sys2Proof.Machine.execTurnBoundary env s
  | .guardWindowOpen => Sys2Proof.Machine.execGuardWindowOpen s
  | .slotFreeze => Sys2Proof.Machine.execSlotFreeze s
  | .pipBoundary => Sys2Proof.Machine.execPipBoundary s
  | .sliceBoundary => Sys2Proof.Machine.execSliceBoundary s
  | .shadowWrite secure off val => Sys2Proof.Machine.execShadowWrite secure off val s
  | .sealNow tag => Sys2Proof.Machine.execSealNow tag s
  | .sealNext tag => Sys2Proof.Machine.execSealNext tag s
  | .sealAt tag => Sys2Proof.Machine.execSealAt tag s
  | .commitCtrlBadOp op tag slot => Sys2Proof.Machine.execCommitCtrlBadOp op tag slot s
  | .cancel req slot tag => Sys2Proof.Machine.execCancel req slot tag s
  | .discard req tag => Sys2Proof.Machine.execDiscard req tag s
  | .counterClear off val => Sys2Proof.Machine.execCounterClear off val s
  | .registerWrite secure width off val => Sys2Proof.Machine.execRegisterWrite secure width off val s
  | .turnLoRead => Sys2Proof.Machine.execTurnLoRead s
  | .stLoRead => Sys2Proof.Machine.execStLoRead s
  | .markLoRead => Sys2Proof.Machine.execMarkLoRead s
  | .txtsFineRead p => Sys2Proof.Machine.execTxtsFineRead p s
  | .tableDataRead => Sys2Proof.Machine.execTableDataRead s
  | .linDataAccess wr => Sys2Proof.Machine.execLinDataAccess wr s
  | .adjDataAccess wr => Sys2Proof.Machine.execAdjDataAccess wr s
  | .descSelWrite val => Sys2Proof.Machine.execDescSelWrite val s
  | .fltPop bad => Sys2Proof.Machine.execFltPop bad s
  | .budgetGrant r => Sys2Proof.Machine.execBudgetGrant r s
  | .burstComplete r held => Sys2Proof.Machine.execBurstComplete r held s
  | .budgetBurst r => Sys2Proof.Machine.execBudgetBurst r s
  | .beaconReceive p chars err k => Sys2Proof.Machine.execBeaconReceive p chars err k s
  | .steerApply => Sys2Proof.Machine.execSteerApply s
  | .delayReqSend p t3fb => Sys2Proof.Machine.execDelayReqSend p t3fb s
  | .delayRespReceive p chars err => Sys2Proof.Machine.execDelayRespReceive p chars err s
  | .exchangeTimeout p => Sys2Proof.Machine.execExchangeTimeout p s
  | .timeStepExplicit req n delta => Sys2Proof.Machine.execTimeStepExplicit req n delta s
  | .timeStepAdopt req p n => Sys2Proof.Machine.execTimeStepAdopt req p n s
  | .timeStepCancel req => Sys2Proof.Machine.execTimeStepCancel req s
  | .stepStretchEnd => Sys2Proof.Machine.execStepStretchEnd s
  | .stTick => Sys2Proof.Machine.execStTick s
  | .stPersist => Sys2Proof.Machine.execStPersist s
  | .blankingEnd ch => Sys2Proof.Machine.execBlankingEnd ch s
  | .testPulseLaunch => Sys2Proof.Machine.execTestPulseLaunch s
  | .comparatorEdge ch high trailing ct k => Sys2Proof.Machine.execComparatorEdge ch high trailing ct k s
  | .pulseClose u => Sys2Proof.Machine.execPulseClose u s
  | .longPulseTimeout u => Sys2Proof.Machine.execLongPulseTimeout u s
  | .diceCollectDone u q hist => Sys2Proof.Machine.execDiceCollectDone u q hist s
  | .diceIntegrateDone u q => Sys2Proof.Machine.execDiceIntegrateDone u q s
  | .diceAlignDone u q dist => Sys2Proof.Machine.execDiceAlignDone u q dist s
  | .diceCheck u q => Sys2Proof.Machine.execDiceCheck u q s
  | .tdcFullCal req => Sys2Proof.Machine.execTdcFullCal req s
  | .initialCalDone => Sys2Proof.Machine.execInitialCalDone s
  | .trigInEdge trailing ct k => Sys2Proof.Machine.execTrigInEdge trailing ct k s
  | .freqInEdge trailing ct k => Sys2Proof.Machine.execFreqInEdge trailing ct k s
  | .gateInEdge level => Sys2Proof.Machine.execGateInEdge level s
  | .freqResult e => Sys2Proof.Machine.execFreqResult e s
  | .warmupDone ch => Sys2Proof.Machine.execWarmupDone ch s
  | .itrimUpdate ch corr => Sys2Proof.Machine.execItrimUpdate ch corr s
  | .levelCrossing ch sample f low => Sys2Proof.Machine.execLevelCrossing ch sample f low s
  | .swTrigger req lo hi => Sys2Proof.Machine.execSwTrigger req lo hi s
  | .acceptReceive p body crcOk err => Sys2Proof.Machine.execAcceptReceive p body crcOk err s
  | .acceptHoldRelease => Sys2Proof.Machine.execAcceptHoldRelease s
  | .copyStart ch => Sys2Proof.Machine.execCopyStart ch s
  | .copyDone ch hg lg bad => Sys2Proof.Machine.execCopyDone ch hg lg bad s
  | .recutComplete ch => Sys2Proof.Machine.execRecutComplete ch s
  | .primitiveForm turn pip => Sys2Proof.Machine.execPrimitiveForm turn pip s
  | .trigOutPulseStart => Sys2Proof.Machine.execTrigOutPulseStart s
  | .trigOutPulseEnd => Sys2Proof.Machine.execTrigOutPulseEnd s
  | .getCapture req w => Sys2Proof.Machine.execGetCapture req w s
  | .recordDone k found => Sys2Proof.Machine.execRecordDone k found s
  | .seFifoRoom k => Sys2Proof.Machine.execSeFifoRoom k s
  | .gainRatioUpdate ch => Sys2Proof.Machine.execGainRatioUpdate ch s
  | .collectorEmit e => Sys2Proof.Machine.execCollectorEmit e s
  | .collectorDrainStart => Sys2Proof.Machine.execCollectorDrainStart s
  | .frameTailEmit => Sys2Proof.Machine.execFrameTailEmit s
  | .capabilityReceive lane bytes err => Sys2Proof.Machine.execCapabilityReceive lane bytes err s
  | .frameHeadReceive j => Sys2Proof.Machine.execFrameHeadReceive j s
  | .frameTailReceive j => Sys2Proof.Machine.execFrameTailReceive j s
  | .ownFrameSplice => Sys2Proof.Machine.execOwnFrameSplice s
  | .primitiveReceive j body crcOk err => Sys2Proof.Machine.execPrimitiveReceive j body crcOk err s
  | .summaryReceive j body crcOk err => Sys2Proof.Machine.execSummaryReceive j body crcOk err s
  | .clusterEvaluate turn pip => Sys2Proof.Machine.execClusterEvaluate turn pip s
  | .clusterAcceptSend => Sys2Proof.Machine.execClusterAcceptSend s
  | .acceptDelayedSend j => Sys2Proof.Machine.execAcceptDelayedSend j s
  | .arrayAcceptReceive p body crcOk err => Sys2Proof.Machine.execArrayAcceptReceive p body crcOk err s
  | .vl1MessageRoute p => Sys2Proof.Machine.execVl1MessageRoute p s
  | .downstreamMessageRelay j => Sys2Proof.Machine.execDownstreamMessageRelay j s
  | .portForward req w => Sys2Proof.Machine.execPortForward req w s
  | .frameSendStart p => Sys2Proof.Machine.execFrameSendStart p s
  | .frameSendDone p => Sys2Proof.Machine.execFrameSendDone p s
  | .turnAckReceive p body crcOk err => Sys2Proof.Machine.execTurnAckReceive p body crcOk err s
  | .verdictAcceptReceive p body crcOk err => Sys2Proof.Machine.execVerdictAcceptReceive p body crcOk err s
  | .verdictRejectReceive p body crcOk err => Sys2Proof.Machine.execVerdictRejectReceive p body crcOk err s
  | .giveUpReceive p body crcOk err => Sys2Proof.Machine.execGiveUpReceive p body crcOk err s
  | .ackTimeout turn => Sys2Proof.Machine.execAckTimeout turn s
  | .verdictTimeout turn => Sys2Proof.Machine.execVerdictTimeout turn s
  | .reclaim => Sys2Proof.Machine.execReclaim s
  | .markSet req target => Sys2Proof.Machine.execMarkSet req target s
  | .markClear req => Sys2Proof.Machine.execMarkClear req s
  | .rewind req first count => Sys2Proof.Machine.execRewind req first count s
  | .rewindSend => Sys2Proof.Machine.execRewindSend s
  | .getQueue req w => Sys2Proof.Machine.execGetQueue req w s
  | .getQueues req w => Sys2Proof.Machine.execGetQueues req w s
  | .giveUp req force => Sys2Proof.Machine.execGiveUp req force s
  | .creditTimeout p => Sys2Proof.Machine.execCreditTimeout p s
  | .recodeDone j overflow => Sys2Proof.Machine.execRecodeDone j overflow s
  | .jobStart req w => Sys2Proof.Machine.execJobStart req w s
  | .jobResume req w skip => Sys2Proof.Machine.execJobResume req w skip s
  | .jobAbort req w => Sys2Proof.Machine.execJobAbort req w s
  | .jobBlockDone corr unc => Sys2Proof.Machine.execJobBlockDone corr unc s
  | .laneDetectProbe l found => Sys2Proof.Machine.execLaneDetectProbe l found s
  | .laneTrainDone l a => Sys2Proof.Machine.execLaneTrainDone l a s
  | .laneTrainTimeout l => Sys2Proof.Machine.execLaneTrainTimeout l s
  | .laneLockDone l => Sys2Proof.Machine.execLaneLockDone l s
  | .laneLockTimeout l => Sys2Proof.Machine.execLaneLockTimeout l s
  | .laneRetry l => Sys2Proof.Machine.execLaneRetry l s
  | .linkFail l => Sys2Proof.Machine.execLinkFail l s
  | .laneFailedRestart l => Sys2Proof.Machine.execLaneFailedRestart l s
  | .exchangeFailTick l => Sys2Proof.Machine.execExchangeFailTick l s
  | .lockLoss l => Sys2Proof.Machine.execLockLoss l s
  | .tsReceiveActive l => Sys2Proof.Machine.execTsReceiveActive l s
  | .blockReceive lane hdr payload crcOk err aborted => Sys2Proof.Machine.execBlockReceive lane hdr payload crcOk err aborted s
  | .blockLostTimeout p vl => Sys2Proof.Machine.execBlockLostTimeout p vl s
  | .blockSend lane fb => Sys2Proof.Machine.execBlockSend lane fb s
  | .creditReturn p vl => Sys2Proof.Machine.execCreditReturn p vl s
  | .lpDeepEntryReceive l => Sys2Proof.Machine.execLpDeepEntryReceive l s
  | .lpDeepWake l => Sys2Proof.Machine.execLpDeepWake l s
  | .linkRetrain req p => Sys2Proof.Machine.execLinkRetrain req p s
  | .linkRestart req p => Sys2Proof.Machine.execLinkRestart req p s
  | .prbsStart req l len => Sys2Proof.Machine.execPrbsStart req l len s
  | .prbsStop req l => Sys2Proof.Machine.execPrbsStop req l s
  | .prbsDone l errors => Sys2Proof.Machine.execPrbsDone l errors s
  | .getPort req w => Sys2Proof.Machine.execGetPort req w s
  | .mailboxRequest path words => Sys2Proof.Machine.execMailboxRequest path words s
  | .i2cMessageWrite m bytes => Sys2Proof.Machine.execI2cMessageWrite m bytes s
  | .i2cResponseRead m => Sys2Proof.Machine.execI2cResponseRead m s
  | .i2cReadyRead => Sys2Proof.Machine.execI2cReadyRead s
  | .i2cEventPop => Sys2Proof.Machine.execI2cEventPop s
  | .requestExecute => Sys2Proof.Machine.execRequestExecute s
  | .responseSend m => Sys2Proof.Machine.execResponseSend m s
  | .userMessage req id w => Sys2Proof.Machine.execUserMessage req id w s
  | .handlerReturn m status payload => Sys2Proof.Machine.execHandlerReturn m status payload s
  | .handlerTimeout m => Sys2Proof.Machine.execHandlerTimeout m s
  | .openSetExpire => Sys2Proof.Machine.execOpenSetExpire s
  | .eventIntervalEnd block bit => Sys2Proof.Machine.execEventIntervalEnd block bit s
  | .telemRecord id => Sys2Proof.Machine.execTelemRecord id s
  | .event req w => Sys2Proof.Machine.execEvent req w s
  | .getFeatures req w => Sys2Proof.Machine.execGetFeatures req w s
  | .setChipId req w => Sys2Proof.Machine.execSetChipId req w s
  | .ping req w => Sys2Proof.Machine.execPing req w s
  | .getEventLog req w => Sys2Proof.Machine.execGetEventLog req w s
  | .safeAck req w => Sys2Proof.Machine.execSafeAck req w s
  | .setMode req w => Sys2Proof.Machine.execSetMode req w s
  | .seal req w => Sys2Proof.Machine.execSeal req w s
  | .getSlots req w => Sys2Proof.Machine.execGetSlots req w s
  | .setBudget req w => Sys2Proof.Machine.execSetBudget req w s
  | .setChannel req w => Sys2Proof.Machine.execSetChannel req w s
  | .getChannel req w => Sys2Proof.Machine.execGetChannel req w s
  | .setTestPulse req w => Sys2Proof.Machine.execSetTestPulse req w s
  | .getUnit req w => Sys2Proof.Machine.execGetUnit req w s
  | .getTable req w => Sys2Proof.Machine.execGetTable req w s
  | .getTime req w => Sys2Proof.Machine.execGetTime req w s
  | .monInject req w => Sys2Proof.Machine.execMonInject req w s
  | .calZero req w => Sys2Proof.Machine.execCalZero req w s
  | .calFull req w => Sys2Proof.Machine.execCalFull req w s
  | .calStore req w => Sys2Proof.Machine.execCalStore req w s
  | .calAbort req w => Sys2Proof.Machine.execCalAbort req w s
  | .calStepDone raw => Sys2Proof.Machine.execCalStepDone raw s
  | .monRead req w => Sys2Proof.Machine.execMonRead req w s
  | .guardLoadGpb req w => Sys2Proof.Machine.execGuardLoadGpb req w s
  | .guardConfirm req w => Sys2Proof.Machine.execGuardConfirm req w s
  | .guardClear req w => Sys2Proof.Machine.execGuardClear req w s
  | .getFaults req w => Sys2Proof.Machine.execGetFaults req w s
  | .getFirstError req w => Sys2Proof.Machine.execGetFirstError req w s
  | .setReaction req w => Sys2Proof.Machine.execSetReaction req w s
  | .getAttestation req w => Sys2Proof.Machine.execGetAttestation req w s
  | .setTime req w => Sys2Proof.Machine.execSetTime req w s
  | .claimOwnership req w => Sys2Proof.Machine.execClaimOwnership req w s
  | .fwBegin req w => Sys2Proof.Machine.execFwBegin req w s
  | .fwSlotPrepared => Sys2Proof.Machine.execFwSlotPrepared s
  | .fwChunk req w => Sys2Proof.Machine.execFwChunk req w s
  | .fwVerify req w => Sys2Proof.Machine.execFwVerify req w s
  | .fwCommit req w => Sys2Proof.Machine.execFwCommit req w s
  | .fwCommitCopyDone => Sys2Proof.Machine.execFwCommitCopyDone s
  | .activateReset => Sys2Proof.Machine.execActivateReset s
  | .debugChallenge req w => Sys2Proof.Machine.execDebugChallenge req w s
  | .jtagSecMsg words => Sys2Proof.Machine.execJtagSecMsg words s
  | .peek req w => Sys2Proof.Machine.execPeek req w s
  | .poke req w => Sys2Proof.Machine.execPoke req w s
  | .telemDefine req w => Sys2Proof.Machine.execTelemDefine req w s
  | .telemList req w => Sys2Proof.Machine.execTelemList req w s
  | .scanWindowOpen => Sys2Proof.Machine.execScanWindowOpen s
  | .scanStepEnd => Sys2Proof.Machine.execScanStepEnd s
  | .powerOnReset => Sys2Proof.Machine.execPowerOnReset s
  | .porRelease => Sys2Proof.Machine.execPorRelease s
  | .resetNAssert => Sys2Proof.Machine.execResetNAssert s
  | .resetRelease => Sys2Proof.Machine.execResetRelease s
  | .noRefclkTimeout => Sys2Proof.Machine.execNoRefclkTimeout s
  | .bootPllLock => Sys2Proof.Machine.execBootPllLock s
  | .bootSramInitDone => Sys2Proof.Machine.execBootSramInitDone s
  | .bootMonitorVerify => Sys2Proof.Machine.execBootMonitorVerify s
  | .bootHorefVerify => Sys2Proof.Machine.execBootHorefVerify s
  | .bootUserVerify => Sys2Proof.Machine.execBootUserVerify s
  | .bootSdramTrainDone gib info => Sys2Proof.Machine.execBootSdramTrainDone gib info s
  | .bootEnd => Sys2Proof.Machine.execBootEnd s
  | .watchdogExpire pc => Sys2Proof.Machine.execWatchdogExpire pc s
  | .wdogKick val => Sys2Proof.Machine.execWdogKick val s
  | .lockstepMismatch pc => Sys2Proof.Machine.execLockstepMismatch pc s
  | .dmaKick c => Sys2Proof.Machine.execDmaKick c s
  | .dmaResume c => Sys2Proof.Machine.execDmaResume c s
  | .dmaAbort c => Sys2Proof.Machine.execDmaAbort c s
  | .dmaReset c => Sys2Proof.Machine.execDmaReset c s
  | .descriptorFetch c corr unc => Sys2Proof.Machine.execDescriptorFetch c corr unc s
  | .dmaBurst c corr unc => Sys2Proof.Machine.execDmaBurst c corr unc s
  | .descriptorComplete c => Sys2Proof.Machine.execDescriptorComplete c s
  | .scrubStep m corr unc => Sys2Proof.Machine.execScrubStep m corr unc s
  | .bucketLeak f => Sys2Proof.Machine.execBucketLeak f s
  | .sweepLate => Sys2Proof.Machine.execSweepLate s
  | .rowCopyDone => Sys2Proof.Machine.execRowCopyDone s
  | .flipArm val => Sys2Proof.Machine.execFlipArm val s
  | .fifoFlush cls => Sys2Proof.Machine.execFifoFlush cls s
  | .freeListRebuild => Sys2Proof.Machine.execFreeListRebuild s
  | .monEntryStart => Sys2Proof.Machine.execMonEntryStart s
  | .monSettleDone => Sys2Proof.Machine.execMonSettleDone s
  | .monConversionDone raw => Sys2Proof.Machine.execMonConversionDone raw s
  | .monEntryEnd => Sys2Proof.Machine.execMonEntryEnd s
  | .excitationTrip => Sys2Proof.Machine.execExcitationTrip s
  | .refReady => Sys2Proof.Machine.execRefReady s
  | .biasLoopPost => Sys2Proof.Machine.execBiasLoopPost s
  | .openHoldExpire k => Sys2Proof.Machine.execOpenHoldExpire k s
  | .guardDataLoss l => Sys2Proof.Machine.execGuardDataLoss l s
  | .guardHvStale ch => Sys2Proof.Machine.execGuardHvStale ch s
  | .hvSettleEnd => Sys2Proof.Machine.execHvSettleEnd s
  | .guardInChange a b => Sys2Proof.Machine.execGuardInChange a b s
  | .guardEquivTimeout => Sys2Proof.Machine.execGuardEquivTimeout s
  | .chainEdge interval => Sys2Proof.Machine.execChainEdge interval s
  | .chainLoss => Sys2Proof.Machine.execChainLoss s
  | .guardVote words => Sys2Proof.Machine.execGuardVote words s
  | .outputTestStart b => Sys2Proof.Machine.execOutputTestStart b s
  | .testFeedbackCheck => Sys2Proof.Machine.execTestFeedbackCheck s
  | .outputTestEnd => Sys2Proof.Machine.execOutputTestEnd s
  | .feedbackChange a b => Sys2Proof.Machine.execFeedbackChange a b s
  | .feedbackMismatch b => Sys2Proof.Machine.execFeedbackMismatch b s
  | .selftestStart => Sys2Proof.Machine.execSelftestStart s
  | .selftestDone pass => Sys2Proof.Machine.execSelftestDone pass s
  | .faultAccept => Sys2Proof.Machine.execFaultAccept s
  | .faultFlush => Sys2Proof.Machine.execFaultFlush s
  | .feClear mask => Sys2Proof.Machine.execFeClear mask s
  | .worldMapWrite off val => Sys2Proof.Machine.execWorldMapWrite off val s
  | .symbolLock l => Sys2Proof.Machine.execSymbolLock l s
  | .debugPortAccess acc => Sys2Proof.Machine.execDebugPortAccess acc s
  | .parityAlert => Sys2Proof.Machine.execParityAlert s

end Sys2Proof.Machine
end

