-- ==== Sys2Proof/Machine/Step.lean ====
section
/-! DEFINITION. One step of the block: the command at the front of the queue is taken; with an empty queue the local clock runs on
by one tick. -/

namespace Sys2Proof.Machine

/-- With no command waiting, one coarse tick passes unless the Burjor is held in reset; the boundary itself is a command (R18,
R22). -/
def idleTick (s : State) : State :=
  if s.dev.pwr.boot == .inReset || s.dev.clk.lastCt ≤ s.dev.clk.ct then s
  else { s with dev := { s.dev with clk := { s.dev.clk with ct := s.dev.clk.ct + 1 } } }

/-- A step. -/
def step (s : State) : Host.Outcome State Fault Refusal :=
  match s.pending with
  | [] => .next (idleTick s)
  | c :: rest => exec c { s with pending := rest }

/-- A word of the table put at the front of the queue; the machine itself where the word spells no command. -/
def State.withFetchWord (s : State) (nbits w : Nat) : State :=
  match decodeTableWord nbits w with
  | some c => { s with pending := c :: s.pending }
  | none => s

end Sys2Proof.Machine
end

