-- ==== Sys2Proof/Safety.lean ====
section
/-! DEFINITION. What counts as a safe run of the block: a step that neither faults nor is refused, and the two facts about a state
that claims rest on: the byte memory in its canonical form, and a mode of R334. With them the words in which claims speak of messages:
when Horef serves a request, and the machine with the response to it. -/

namespace Sys2Proof.Safety

open Sys2Proof.Machine

/-- A step goes on. -/
def Goes (s : State) : Prop := ∃ t, step s = .next t

/-- The byte memory lists its bytes in the canonical form. -/
def Canonical (s : State) : Prop := Memory.wf s.mem = true

/-- The mode in force is one of the twelve of R334. -/
def LegalMode (s : State) : Prop := s.dev.get F.PWR_STATUS_MODE < 12

/-- The machine with another state of the block: memory and the queue of commands stay. -/
def withDev (s : State) (d : Dev) : State := { s with dev := d }

/-- Horef serves the request of message `id` with context `c` and payload `w`: it runs, the access rules let the message run, and the
payload has the message's layout (R302, R305, R313, R321, R322). -/
def Accepted (id : Nat) (c : MsgCtx) (w : List Word) (s : State) : Prop :=
  s.dev.horefRuns = true ∧ s.dev.sec.halted = false ∧ c.mbx < 8 ∧ accessStatus id c s.dev = 0 ∧ ∃ p, paySpec id = some p ∧ payOk p w = true

/-- The machine `s` with the response to a request complete in its mailbox: status and payload as given, the rest of the header
from the request (R303, R306). -/
def answer (id : Nat) (c : MsgCtx) (status : Nat) (out : List Word) (s : State) : State :=
  { s with dev := respond c.mbx (responseWords s.dev.chipId id c.seq c.mbx c.stamp status out) s.dev }

/-- The commands whose effect may store bytes in memory: bursts, completions and jobs, the debug port, the firmware images and the
grant that lets a chunk of one be written, the clearing of RAM in BOOT, and the execution of a request, which may be a firmware chunk. -/
def mayStore : Instr → Bool
  | .dmaBurst .. | .descriptorComplete .. | .jobBlockDone .. | .debugPortAccess .. | .burstComplete .. | .fwSlotPrepared | .fwChunk .. | .fwVerify ..
  | .fwCommitCopyDone
  | .bootSramInitDone | .bootMonitorVerify | .bootHorefVerify | .bootUserVerify | .bootSdramTrainDone .. | .requestExecute => true
  | _ => false

end Sys2Proof.Safety
end

