-- ==== Sys2Proof/Certificates/Slice0/Obligations.lean ====
section
/-! DEFINITION. The statements for the provers. Each docstring names the rules of the spec that its statement rests on. -/

open Sys2Proof Sys2Proof.Machine Sys2Proof.Safety

/-- Taking a command: with c at the front of the queue, a step is what exec makes of c with the rest of the queue (the model's own
form of R22 and R300: commands are taken first in, first out).

The model's choices that this rests on: log entry 2. -/
def Obligations.StepRunsFrontCommand : Prop :=  ∀ (c : Instr) (s : State), step { s with pending := c :: s.pending } = exec c s

/-- With no command waiting the local clock runs on by one coarse tick, unless the Burjor is held in reset or the boundary is next
(the model's choice, log entry 1). -/
def Obligations.IdleStepIsOneTick : Prop :=
  ∀ s : State, s.pending = [] →
    step s = .next (if s.dev.pwr.boot = .inReset ∨ s.dev.clk.lastCt ≤ s.dev.clk.ct then s
      else { s with dev := { s.dev with clk := { s.dev.clk with ct := s.dev.clk.ct + 1 } } })

/-- Every command of the table has an effect: none ends in a fault or a refusal.

The model's choices that this rests on: log entry 7. -/
def Obligations.NoCommandStops : Prop := ∀ (c : Instr) (s : State), ∃ t, exec c s = .next t

/-- No command touches the queue of waiting commands: step alone takes the one in front. -/
def Obligations.CommandsKeepTheQueue : Prop :=  ∀ (c : Instr) (s t : State), exec c s = .next t → t.pending = s.pending

/-- Every step keeps the byte memory in its canonical form: addresses strictly rising, no byte listed that equals what its address reads as
unlisted.

The model's choices that this rests on: log entries 92, 93. -/
def Obligations.MemoryStaysCanonical : Prop :=  ∀ (s t : State), Canonical s → step s = .next t → Canonical t

/-- The frame of memory: a command that is not one of those that store leaves every byte of memory as it was.

The model's choices that this rests on: log entries 92, 93. -/
def Obligations.OtherCommandsKeepMemory : Prop :=  ∀ (c : Instr) (s t : State), mayStore c = false → exec c s = .next t → ∀ a, memGet t.mem a = memGet s.mem a

/-- The machine right after reset, on leaving BOOT (R14, R20, R25, R116, R170, R335, R353): mode STANDBY, no command waiting and no byte of memory
listed; every slot FREE, nothing in the shadow, the dirty set and the FIFOs empty, no pulse open, no message on its way, every channel
of the DMA IDLE with HEAD 0, no safety hold, no trip latched, no GPB in force.

The model's choices that this rests on: log entries 2, 3, 4, 5, 6. -/
def Obligations.ResetState : Prop :=
  (let s := State.reset
  s.pending = [] ∧ s.mem = [] ∧ Canonical s ∧ LegalMode s ∧ s.dev.mode = .standby ∧ (∀ i, i < 8 → (s.dev.slot i).st = .free) ∧ s.dev.commit.dirty = [] ∧
    s.dev.shadow = [] ∧ s.dev.fifos = [] ∧ (∀ u, u < 130 → (s.dev.unit u).pulse = none) ∧ s.dev.out = [] ∧ s.dev.outShort = [] ∧
    (∀ c, c < 16 → s.dev.get (F.DMA_CH_STATE_STATE c) = 0 ∧ s.dev.get (F.DMA_CH_STATE_HEAD c) = 0) ∧ s.dev.flt.holds = [] ∧
    s.dev.reg R.GRD_TRIP_LATCHED = 0 ∧ s.dev.grd.gpb = none ∧ (∀ m, m < 8 → s.dev.mbxState m = 0))

/-- TURN_BOUNDARY by phase (R17, R20, R345): while power-on reset holds nothing happens; in reset only REFCLK runs; in BOOT with no
slot pending the local turn number moves on modulo 2^48 and the boundary counts for BOOT_TURNS. Outside BOOT, with no step due and the
number of the array already in force, the boundary opens the next turn at ct 0, whatever else it brings about: the turn that ended had
16 384 periods, REFCLK runs on, and memory and the queue of commands stay. Completes: turnBoundary.

The turn that a boundary outside BOOT opens, with no step due and the number of the array in force or not yet known: the next number modulo 2^48, at ct 0, after 16 384 periods of
the coarse clock (R9, R17, R22).

The model's choices that this rests on: log entries 15, 17, 55. -/
def Obligations.TurnBoundaries : Prop :=
  (∀ (env : BoundaryEnv) (s : State),
    (s.dev.pwr.porHeld = true → exec (.turnBoundary env) s = .next s) ∧
    (s.dev.pwr.porHeld = false → s.dev.pwr.boot = .inReset →
      exec (.turnBoundary env) s = .next (withDev s ({ s.dev with
        clk := { s.dev.clk with refCycles := s.dev.clk.refCycles + env.refclk }
        time := { s.dev.time with stCycles := s.dev.time.stCycles + env.refclk } }))) ∧
    (s.dev.pwr.porHeld = false → s.dev.pwr.boot ≠ .inReset → s.dev.pwr.boot ≠ .ended → (∀ x ∈ s.dev.commit.slots, x.st = .free) →
      ∃ d, exec (.turnBoundary env) s = .next (withDev s d) ∧
        d.clk = { s.dev.clk with
          turn := (s.dev.clk.turn + 1) % 2 ^ 48, ct := 0, ctBase := s.dev.clk.ctBase + 16384, bounds := s.dev.clk.bounds + 1
          refCycles := s.dev.clk.refCycles + env.refclk } ∧
        d.time.stCycles = s.dev.time.stCycles + env.refclk ∧ d.pwr = { s.dev.pwr with bootTurns := s.dev.pwr.bootTurns + 1 }) ∧
    (s.dev.pwr.porHeld = false → s.dev.pwr.boot = .ended → s.dev.clk.stepped = false → s.dev.time.toValid = false →
      (∀ x, s.dev.time.step = some x → (s.dev.clk.turn + 1) % 2 ^ 48 ≠ x.n) →
      ∃ d, exec (.turnBoundary env) s = .next (withDev s d) ∧ d.clk.turn = (s.dev.clk.turn + 1) % 2 ^ 48 ∧ d.clk.ct = 0 ∧
        d.clk.stepped = false ∧ d.clk.fbOff = s.dev.clk.fbOff ∧ d.clk.ctBase = s.dev.clk.ctBase + 16384 ∧
        d.clk.bounds = s.dev.clk.bounds + 1 ∧ d.clk.refCycles = s.dev.clk.refCycles + env.refclk)) ∧
  (∀ d : Dev, d.clk.stepped = false → d.time.toValid = false → (∀ x, d.time.step = some x → x.due = false) →
    (stepTake (turnEnds d)).clk = { d.clk with
      turn := (d.clk.turn + 1) % 2 ^ 48, ct := 0, ctBase := d.clk.ctBase + 16384, bounds := d.clk.bounds + 1, stretchDone := false } ∧
    (stepTake (turnEnds d)).regs = d.regs)

/-- GUARD_WINDOW_OPEN with no step planned (R22, R28, R29, R35): ct is 16 368 or later; the NEXT slots, but for a deferred one, and
the AT slots of the next turn become DUE, and every other slot stays; no register, counter or event changes. Completes: guardWindowOpen.

SLOT_FREEZE (R22): at the last ct of the turn, 16 383 in one that is not shortened, the slots that are DUE are frozen, in
application order; it opens the guard window first where that has not been done. Completes: slotFreeze.

PIP_BOUNDARY (R28, R132): the last pip of a turn ends with the turn boundary and does nothing; any other moves the tick to the
next multiple of 16. There a NOW slot whose pip has come lands or is dropped, and is pending no longer; a software trigger that waits
fires; with neither nothing else changes. Completes: pipBoundary.

The model's choices that this rests on: log entries 15, 16. -/
def Obligations.SlotsBeforeTheBoundary : Prop :=
  (∀ s : State, s.dev.time.step = none →
    ∃ d, exec .guardWindowOpen s = .next { s with dev := d } ∧
      d.clk = { s.dev.clk with ct := max s.dev.clk.ct 16368 } ∧
      d.commit = { s.dev.commit with slots := s.dev.commit.slots.map (fun x =>
        if x.st = .next ∧ x.late = false then { x with st := .due, target := (s.dev.clk.turn + 1) % 2 ^ 48 }
        else if x.st = .at ∧ x.target = (s.dev.clk.turn + 1) % 2 ^ 48 then { x with st := .due } else x) } ∧
      d.regs = s.dev.regs ∧ d.shadow = s.dev.shadow ∧ d.live = s.dev.live ∧ d.ev = s.dev.ev ∧ d.out = s.dev.out) ∧
  (∀ s : State, ∃ d, exec .guardWindowOpen s = .next { s with dev := d } ∧
    exec .slotFreeze s = .next (withDev s ({ d with
      clk := { d.clk with ct := max d.clk.ct (min 16383 d.clk.lastCt) }
      commit := { d.commit with frozen := d.slotsWhere (fun x => x.st == .due) } }))) ∧
  (∀ s : State,
    (16368 ≤ s.dev.clk.ct → exec .pipBoundary s = .next s) ∧
    (s.dev.clk.ct < 16368 →
      ∃ d, exec .pipBoundary s = .next (withDev s d) ∧ d.clk = { s.dev.clk with ct := (s.dev.clk.ct / 16 + 1) * 16 } ∧ d.cap.swPend = false ∧
        (∀ i, i < 8 → s.dev.commit.slots.length = 8 → (∀ j, j < 8 → j ≠ i → s.dev.slot j ≠ s.dev.slot i) → (s.dev.slot i).st = .now →
          (s.dev.slot i).late = false → (s.dev.slot i).pip ≤ (s.dev.clk.ct / 16 + 1) * 16 → (d.slot i).st = .free)) ∧
    (s.dev.clk.ct < 16368 → s.dev.cap.swPend = false → (∀ x ∈ s.dev.commit.slots, x.st ≠ .now) →
      exec .pipBoundary s = .next { s with dev := { s.dev with clk := { s.dev.clk with ct := (s.dev.clk.ct / 16 + 1) * 16 } } }))

/-- SHADOW_WRITE, and REGISTER_WRITE of an SH word, that of an absent unit too (R25, R36): the shadow copy of the word takes the SH bits
written and keeps the others, no other shadow word and no active word changes, the word is dirty afterwards or DIRTY_OVF is set (a
513th word), and memory, queue and events stay. Completes: shadowWrite, registerWrite. -/
def Obligations.ShadowWriteIsDirtyNotActive : Prop :=
  ∀ (s : State) (secure : Bool) (off : Nat) (v : Word) (r : RegRow),
    off < 0x130000 → (secure = true ∨ s.dev.secureAt (regBase + off) true = false) →
    dmaKey off s.dev = some off → off ≠ R.CMP_JOB_CMD → commandWrite off v s.dev = none → regRow off = some r → r.sh ≠ 0 →
    ∃ d, exec (.shadowWrite secure off v) s = .next { s with dev := d } ∧ exec (.registerWrite secure 32 off v) s = .next { s with dev := d } ∧
      (d.shadowReg off).toNat &&& r.sh = v.toNat &&& r.sh ∧
      (∀ k, k ≠ off → d.shadowReg k = s.dev.shadowReg k) ∧
      (∀ k, k ≠ F.TRN_STATUS_DIRTY_OVF.key → d.reg k = s.dev.reg k) ∧
      (off ∈ d.commit.dirty ∨ d.get F.TRN_STATUS_DIRTY_OVF = 1) ∧
      d.commit.slots = s.dev.commit.slots ∧ d.ev = s.dev.ev ∧ d.live = s.dev.live

/-- COUNTER_CLEAR (R40): a write of 0 to a saturating counter clears the live part and the latched part, SAT among their bits; a
write of any other value leaves the machine as it was. Completes: counterClear.

A saturating counter (R38): a live part that has not stopped moves on by what is counted, and stops at all-ones with SAT once
the sum reaches the largest count; a stopped one stays. Counting changes no register but the event registers of its block and of
the mailboxes. -/
def Obligations.CountersClearAndSaturate : Prop :=
  (∀ (s : State) (off : Nat) (r : RegRow),
    off < 0x130000 → s.dev.absentKey off = false → dmaKey off s.dev = some off → off ≠ R.CMP_JOB_CMD →
    (∀ v, commandWrite off v s.dev = none) → regRow off = some r → r.cnt = true →
    (∀ v, v ≠ 0 → exec (.counterClear off v) s = .next s) ∧
    ∃ d, exec (.counterClear off 0) s = .next { s with dev := d } ∧
      d.liveReg off = 0 ∧ d.reg off = 0 ∧ (∀ k, k ≠ off → d.liveReg k = s.dev.liveReg k ∧ d.reg k = s.dev.reg k) ∧
      d.shadow = s.dev.shadow ∧ d.ev = s.dev.ev ∧ d.commit = s.dev.commit) ∧
  (∀ (d : Dev) (k n : Nat),
    ((count k n d).liveReg k =
      (if bit (d.liveReg k) 31 then d.liveReg k
      else if 2 ^ 31 - 1 ≤ (d.liveReg k).toNat + n then 0xFFFFFFFF else BitVec.ofNat 32 ((d.liveReg k).toNat + n)) ∨
      k = R.MBX_COUNT 4 ∨ k = R.MBX_COUNT 5) ∧
    (∀ j, j ≠ k → j ≠ R.MBX_COUNT 4 → j ≠ R.MBX_COUNT 5 → (count k n d).liveReg j = d.liveReg j) ∧
    (∀ j, j ≠ eventKey (k / 65536 * 32 + satBit (k / 65536)) → j ≠ eventKey E.MBX_EVT_LOST → (count k n d).reg j = d.reg j) ∧
    (count k n d).commit = d.commit ∧ (count k n d).clk = d.clk ∧ (count k n d).flt = d.flt)

/-- Seals (R28, R29, R31, R515): a dirty set that passes its checks, judged on the configuration that results when it lands, takes the
lowest free slot (the model's choice, log entry 135) with its kind, turn, pip and tag, the words as the shadow holds them, and the dirty
set empties; no other slot and no active word but COMMIT_STATUS changes. NOW lands at a pip boundary of the present turn, or after the next
boundary where its verdict falls into the guard window; NEXT before the guard window; AT in its range. Completes: sealNow, sealNext, sealAt.

The model's choices that this rests on: log entries 13, 14, 20, 135. -/
def Obligations.SealTakesLowestFreeSlot : Prop :=
  ∀ (s : State) (tag i : Nat) (k : SealKind) (c : Instr), tag < 256 →
    (c = .sealNow tag ∧ k = .now ∨ c = .sealNext tag ∧ k = .next ∧ s.dev.clk.ct < 16368 ∨
      c = .sealAt tag ∧ k = .at ((s.dev.reg R.TRN_COMMIT_TARGET_HI).toNat % 65536 * 2 ^ 32 + (s.dev.reg R.TRN_COMMIT_TARGET_LO).toNat)) →
    s.dev.commit.dirty ≠ [] → kindStatus s.dev k = 0 → s.dev.freeSlot = some i → i < s.dev.commit.slots.length →
    (let x := sealSlot s.dev k tag
    checkSet s.dev s.dev.commit.dirty (s.dev.resultOf x) (s.dev.valueBefore x) s.dev.shadowReg (k == .now) (s.dev.modeBefore x) = 0 →
    ∃ d, exec c s = .next { s with dev := d } ∧ d.slot i = x ∧ x.tag = tag ∧ x.order = s.dev.commit.nextOrder ∧
      x.words = s.dev.commit.dirty.map (fun j => (j, s.dev.shadowReg j)) ∧
      (match k with
        | .now => x.st = .now ∧ (if s.dev.clk.ct < 16364 then x.target = s.dev.clk.turn ∧ x.pip = (s.dev.clk.ct + 4) / 16 * 16 + 16
            else x.target = s.dev.nextOpens ∧ x.late = true)
        | .next => x.st = .next ∧ x.target = (s.dev.clk.turn + 1) % 2 ^ 48 ∧ x.late = false
        | .at n => x.st = .at ∧ x.target = n) ∧
      (∀ j, j ≠ i → d.slot j = s.dev.slot j) ∧ d.commit.dirty = [] ∧ d.shadow = s.dev.shadow ∧
      (∀ j, j ≠ F.TRN_COMMIT_STATUS_LAST_TAG.key → d.reg j = s.dev.reg j) ∧ d.get F.TRN_COMMIT_STATUS_LAST_RESULT = 0 ∧
      d.get F.TRN_COMMIT_STATUS_LAST_TAG = tag ∧ d.get F.TRN_COMMIT_STATUS_LAST_SLOT = i % 8 ∧ d.ev = s.dev.ev)

/-- A NEXT seal inside the guard window (R29): its slot is for the boundary after the next, with no step planned the one that opens
turn n + 2, DEFERRED is set and COMMIT_DEFERRED is raised. -/
def Obligations.NextSealInGuardWindowIsDeferred : Prop :=
  ∀ (s : State) (tag i : Nat), tag < 256 → 16368 ≤ s.dev.clk.ct → s.dev.commit.dirty ≠ [] → s.dev.freeSlot = some i →
    i < s.dev.commit.slots.length →
    (let x := sealSlot s.dev .next tag
    checkSet s.dev s.dev.commit.dirty (s.dev.resultOf x) (s.dev.valueBefore x) s.dev.shadowReg false (s.dev.modeBefore x) = 0 →
    ∃ d e, exec (.sealNext tag) s = .next { s with dev := d } ∧ d = raise E.TRN_COMMIT_DEFERRED [] e ∧
      e.get F.TRN_COMMIT_STATUS_DEFERRED = 1 ∧ d.get F.TRN_COMMIT_STATUS_DEFERRED = 1 ∧ d.slot i = x ∧ d.commit.dirty = [] ∧
      x.st = .next ∧ x.late = true ∧ x.target = (s.dev.nextOpens + 1) % 2 ^ 48 ∧
      (s.dev.time.step = none → x.target = (s.dev.clk.turn + 2) % 2 ^ 48))

/-- A seal whose set fails a check takes no slot (R37, R515): REFUSED is set, COMMIT_STATUS gives the status and the reason, and
COMMIT_REFUSED is raised; slots, shadow, dirty set and every register but COMMIT_STATUS and the event registers stay.

CANCEL and DISCARD over COMMIT_CTRL and as messages (R33, R34, R317), and COMMIT_CTRL with OP 6 or 7: before the guard window a pending
NEXT or AT slot becomes free and no other slot changes; a slot NOW or DUE stays and the result is LATE; a free slot gives BAD_ARG.
DISCARD empties the dirty set, clears DIRTY_OVF and gives every shadow word its last pending value; as a message it also closes the
sender's open set. The own effect of OP 6 or 7 is to note BAD_ARG. No active word but COMMIT_STATUS and TRN_STATUS changes.
Completes: cancel, discard, commitCtrlBadOp.

The model's choices that this rests on: log entries 12, 20. -/
def Obligations.RefusedCancelledDiscarded : Prop :=
  (∀ (s : State) (tag : Nat) (k : SealKind) (c : Instr), tag < 256 → s.dev.commit.dirty ≠ [] →
    (c = .sealNow tag ∧ k = .now ∨ c = .sealNext tag ∧ k = .next ∨
      c = .sealAt tag ∧ k = .at ((s.dev.reg R.TRN_COMMIT_TARGET_HI).toNat % 65536 * 2 ^ 32 + (s.dev.reg R.TRN_COMMIT_TARGET_LO).toNat)) →
    (let x := sealSlot s.dev k tag
    let reason := checkSet s.dev s.dev.commit.dirty (s.dev.resultOf x) (s.dev.valueBefore x) s.dev.shadowReg (k == .now) (s.dev.modeBefore x)
    reason ≠ 0 →
    ∃ d, exec c s = .next { s with dev := d } ∧ d.commit = s.dev.commit ∧ d.shadow = s.dev.shadow ∧
      (∀ j, j ≠ F.TRN_COMMIT_STATUS_LAST_TAG.key → j ≠ eventKey E.TRN_COMMIT_REFUSED → j ≠ eventKey E.MBX_EVT_LOST → d.reg j = s.dev.reg j) ∧
      d.get F.TRN_COMMIT_STATUS_REFUSED = 1 ∧ d.get F.TRN_COMMIT_STATUS_LAST_REASON = reason % 16 ∧
      d.get F.TRN_COMMIT_STATUS_LAST_RESULT = reasonStatus reason % 256)) ∧
  (∀ (s : State) (c : MsgCtx) (slot tag op : Nat), tag < 256 → slot < 8 → slot < s.dev.commit.slots.length →
    (s.dev.clk.ct < 16368 → ((s.dev.slot slot).st = .next ∨ (s.dev.slot slot).st = .at) →
      (∃ d, exec (.cancel none slot tag) s = .next { s with dev := d } ∧ (d.slot slot).st = .free ∧
        (∀ j, j ≠ slot → d.slot j = s.dev.slot j) ∧ d.get F.TRN_COMMIT_STATUS_LAST_RESULT = 0 ∧ d.get F.TRN_COMMIT_STATUS_LAST_TAG = tag ∧
        (∀ j, j ≠ F.TRN_COMMIT_STATUS_LAST_TAG.key → d.reg j = s.dev.reg j) ∧ d.shadow = s.dev.shadow ∧ d.commit.dirty = s.dev.commit.dirty) ∧
      (Accepted 0x0103 c [toWord slot] s →
        ∃ d, exec (.cancel (some c) slot tag) s = .next (answer 0x0103 c 0 [pack32 [(26, 24, slot)], 0, 0] (withDev s d)) ∧ (d.slot slot).st = .free ∧
          (∀ j, j ≠ slot → d.slot j = s.dev.slot j) ∧ d.get F.TRN_COMMIT_STATUS_LAST_RESULT = 0 ∧ d.get F.TRN_COMMIT_STATUS_LAST_TAG = 0 ∧
          (∀ j, j ≠ F.TRN_COMMIT_STATUS_LAST_TAG.key → d.reg j = s.dev.reg j) ∧ d.shadow = s.dev.shadow ∧ d.commit.dirty = s.dev.commit.dirty)) ∧
    (((s.dev.slot slot).st = .due ∨ (s.dev.slot slot).st = .now) →
      ∃ d, exec (.cancel none slot tag) s = .next { s with dev := d } ∧ d.commit = (if s.dev.clk.ct < 16368 then s.dev else guardMark s.dev).commit ∧
        (d.slot slot) = (s.dev.slot slot) ∧ d.get F.TRN_COMMIT_STATUS_LAST_RESULT = 2 ∧ d.get F.TRN_COMMIT_STATUS_LAST_SLOT = slot) ∧
    ((s.dev.slot slot).st = .free →
      ∃ d, exec (.cancel none slot tag) s = .next { s with dev := d } ∧ d.slot slot = s.dev.slot slot ∧ d.get F.TRN_COMMIT_STATUS_LAST_RESULT = 5) ∧
    (∃ d, exec (.discard none tag) s = .next { s with dev := d } ∧ d.commit = { s.dev.commit with dirty := [] } ∧
        d.get F.TRN_STATUS_DIRTY_OVF = 0 ∧ (∀ k, k ∈ s.dev.shadow.map (·.1) → d.shadowReg k = s.dev.pendingValue k) ∧
        (∀ j, j ≠ F.TRN_COMMIT_STATUS_LAST_TAG.key → j ≠ F.TRN_STATUS_DIRTY_OVF.key → d.reg j = s.dev.reg j) ∧
        d.get F.TRN_COMMIT_STATUS_LAST_TAG = tag) ∧
    (Accepted 0x0104 c [] s → (∀ o, s.dev.mbx.openSet = some o → o.1 = ownerOf c) →
      ∃ d, exec (.discard (some c) tag) s = .next (answer 0x0104 c 0 [] (withDev s d)) ∧ d.commit = { s.dev.commit with dirty := [] } ∧
        d.get F.TRN_STATUS_DIRTY_OVF = 0 ∧ (∀ k, k ∈ s.dev.shadow.map (·.1) → d.shadowReg k = s.dev.pendingValue k) ∧
        (∀ j, j ≠ F.TRN_COMMIT_STATUS_LAST_TAG.key → j ≠ F.TRN_STATUS_DIRTY_OVF.key → d.reg j = s.dev.reg j) ∧ d.mbx.openSet = none) ∧
    (∃ d, exec (.commitCtrlBadOp op tag slot) s = .next { s with dev := d } ∧ d.commit = s.dev.commit ∧ d.shadow = s.dev.shadow ∧
        d.get F.TRN_COMMIT_STATUS_LAST_RESULT = 5 ∧ d.get F.TRN_COMMIT_STATUS_LAST_TAG = tag ∧
        (∀ j, j ≠ F.TRN_COMMIT_STATUS_LAST_TAG.key → d.reg j = s.dev.reg j)))

/-- A set that writes any field of an absent unit is refused whole (R36): with no other word lost before it, a seal of any kind gives
ABSENT_UNIT and UNSUPPORTED, takes no slot, and leaves the shadow, the dirty set and every active register but COMMIT_STATUS. -/
def Obligations.SetsWithAbsentUnitsAreRefused : Prop :=
  ∀ (s : State) (tag k : Nat) (c : Instr), tag < 256 → (c = .sealNow tag ∨ c = .sealNext tag ∨ c = .sealAt tag) →
    s.dev.is F.TRN_STATUS_DIRTY_OVF = false → s.dev.commit.dirty.length ≤ 512 → k ∈ s.dev.commit.dirty → s.dev.absentKey k = true →
    ∃ d, exec c s = .next (withDev s d) ∧ d.commit = s.dev.commit ∧ d.shadow = s.dev.shadow ∧ d.get F.TRN_COMMIT_STATUS_LAST_REASON = 3 ∧
      d.get F.TRN_COMMIT_STATUS_LAST_RESULT = 4 ∧ d.get F.TRN_COMMIT_STATUS_REFUSED = 1 ∧
      (∀ j, j ≠ F.TRN_COMMIT_STATUS_LAST_TAG.key → j ≠ eventKey E.TRN_COMMIT_REFUSED → j ≠ eventKey E.MBX_EVT_LOST → d.reg j = s.dev.reg j)

/-- REGISTER_WRITE (R2, R14, R15, R372, R477): a 32-bit write that reaches a register with no SH bit, no counter and no command of its own
sets its W1S bits where 1 is written, clears its W1C bits where 1 is written, writes its RW bits and keeps every other bit, and changes
nothing else. An offset outside the register space is reported as DECODE, one that the non-secure world may not write as a
violation of the world map, another width than 32 as ACCESS_SIZE; none of these writes a register of its target.
Completes: registerWrite.

The model's choices that this rests on: log entry 21. -/
def Obligations.WritesThatMissTheirRegister : Prop :=
  ∀ (s : State) (secure : Bool) (width off : Nat) (v : Word),
    (∀ r, off < 0x130000 → (secure = true ∨ s.dev.secureAt (0x10000000 + off) true = false) → s.dev.absentKey off = false →
      dmaKey off s.dev = some off → off ≠ R.CMP_JOB_CMD → commandWrite off v s.dev = none → regRow off = some r → r.sh = 0 → r.cnt = false →
      ∃ d, exec (.registerWrite secure 32 off v) s = .next (withDev s d) ∧
        (∀ b, b < 32 → bit (d.reg off) b = (if r.w1s.testBit b && bit v b then true else if r.w1c.testBit b && bit v b then false
          else if r.rw.testBit b then bit v b else bit (s.dev.reg off) b)) ∧
        (∀ k, k ≠ off → d.reg k = s.dev.reg k) ∧ d = { s.dev with regs := d.regs }) ∧
    (0x130000 ≤ off → exec (.registerWrite secure width off v) s =
      .next { s with dev := report 0x170 0x05 2 (if secure then 2 else 1) (0x10000000 + off) none s.dev }) ∧
    (off < 0x130000 → secure = false → s.dev.secureAt (0x10000000 + off) true = true →
      exec (.registerWrite secure width off v) s = .next { s with dev := report 0x1B0 0x14 2 1 (0x10000000 + off) none (raise E.SEC_VIOLATION [] (count1 (R.SEC_COUNT 0) s.dev)) }) ∧
    (off < 0x130000 → (secure = true ∨ s.dev.secureAt (0x10000000 + off) true = false) → width ≠ 32 →
      exec (.registerWrite secure width off v) s =
      .next { s with dev := report 0x170 0x06 2 (if secure then 2 else 1) (0x10000000 + off) none s.dev })

/-- Reserved offsets of the TQ and the CMP block: they read as zero, and writes to them are ignored (R250, R269). -/
def Obligations.ReservedOffsetsReadZero : Prop :=
  ∀ (s : State) (off : Nat) (v : Word), (off / 65536 = 8 ∨ off / 65536 = 9) → regRow off = none →
    readReg off s.dev = (0, s.dev) ∧ exec (.registerWrite true 32 off v) s = .next s

/-- Reads with a side effect, of the turn number, of secure time and of the mark (R15, R66, R234): the word shown is the low half,
and the high half is latched; nothing else changes. Completes: turnLoRead, stLoRead, markLoRead.

Table windows (R67, R103, R156, R214, R224, R455): each access shows its word and moves its entry on. TXTS_FINE pops the head
of its timestamp queue; TABLE_DATA moves ENTRY on; LIN_DATA writes an entry of the bank not in use; ADJ_DATA writes a word of an
unprotected bank; DESC_SEL selects a descriptor; POP_HI pops the head of the fault queue into the latches, or shows zero.
Completes: txtsFineRead, tableDataRead, linDataAccess, adjDataAccess, descSelWrite, fltPop.

The model's choices that this rests on: log entries 24, 36, 103. -/
def Obligations.ReadWindows : Prop :=
  (∀ s : State,
    exec .turnLoRead s = .next (withDev s ({ s.dev with
      rdata := [BitVec.ofNat 32 s.dev.clk.turn], latches := kset s.dev.latches R.TRN_TURN_HI (BitVec.ofNat 32 (s.dev.clk.turn / 2 ^ 32)) })) ∧
    exec .stLoRead s = .next (withDev s ({ s.dev with
      rdata := [BitVec.ofNat 32 s.dev.time.st], latches := kset s.dev.latches R.TIME_ST_HI (BitVec.ofNat 32 (s.dev.time.st / 2 ^ 32)) })) ∧
    exec .markLoRead s = .next (withDev s ({ s.dev with
      rdata := [BitVec.ofNat 32 (s.dev.tq.mark.getD 0)],
      latches := kset s.dev.latches R.TQ_MARK_HI (BitVec.ofNat 32 (s.dev.tq.mark.getD 0 / 2 ^ 32)) }))) ∧
  (∀ (s : State) (w v : Word) (q id : Nat) (t : Stamp) (r : List (Nat × Stamp)) (m : Word64 × Word) (rest : List (Word64 × Word)),
    (s.dev.time.txts.getD q [] = (id, t) :: r → exec (.txtsFineRead q) s = .next (withDev s ({ s.dev with
      rdata := [BitVec.ofNat 32 (t.ct * 2048 + t.fb)], time := { s.dev.time with txts := s.dev.time.txts.set q r } }))) ∧
    (s.dev.time.txts.getD q [] = [] → exec (.txtsFineRead q) s = .next (withDev s ({ s.dev with rdata := [0] }))) ∧
    (s.dev.get F.TDC_TABLE_SEL_KIND = 0 → s.dev.get F.TDC_TABLE_SEL_UNIT ≤ 131 → s.dev.get F.TDC_TABLE_SEL_CHAIN ≤ 4 →
      s.dev.get F.TDC_TABLE_SEL_ENTRY < 320 →
      ∃ d, exec .tableDataRead s = .next (withDev s d) ∧
        d.rdata = [match ((s.dev.unit (s.dev.get F.TDC_TABLE_SEL_UNIT)).chain (s.dev.get F.TDC_TABLE_SEL_CHAIN)).tbl with
          | some t => pack32 [(31, 31, 1), (19, 0, t.getD (s.dev.get F.TDC_TABLE_SEL_ENTRY) 0)]
          | none => 0] ∧
        d.get F.TDC_TABLE_SEL_ENTRY = (s.dev.get F.TDC_TABLE_SEL_ENTRY + 1) % 512 ∧
        (∀ j, j ≠ F.TDC_TABLE_SEL_ENTRY.key → d.reg j = s.dev.reg j) ∧ d.tdc = s.dev.tdc) ∧
    (∃ d, exec (.linDataAccess none) s = .next (withDev s d) ∧
      d.rdata = [if s.dev.get F.SE_LIN_SEL_ENTRY < linSize (s.dev.get F.SE_LIN_SEL_KIND) then BitVec.ofNat 32 (kget s.dev.se.lin
        (linKey (s.dev.get F.SE_LIN_SEL_BANK) (s.dev.get F.SE_LIN_SEL_KIND) (s.dev.get F.SE_LIN_SEL_CHANNEL) (s.dev.get F.SE_LIN_SEL_ENTRY)) 0) else 0] ∧
      d.se = s.dev.se ∧ d.get F.SE_LIN_SEL_ENTRY = (s.dev.get F.SE_LIN_SEL_ENTRY + 1) % 128) ∧
    (s.dev.get F.SE_LIN_SEL_ENTRY < linSize (s.dev.get F.SE_LIN_SEL_KIND) → s.dev.get F.SE_LIN_SEL_BANK ≠ s.dev.get F.SE_CFG_LIN_BANK →
      bits w 15 0 ≠ 0 →
      (let k := linKey (s.dev.get F.SE_LIN_SEL_BANK) (s.dev.get F.SE_LIN_SEL_KIND) (s.dev.get F.SE_LIN_SEL_CHANNEL) (s.dev.get F.SE_LIN_SEL_ENTRY)
      ∃ d, exec (.linDataAccess (some w)) s = .next { s with dev := d } ∧
        d.se = { s.dev.se with lin := kset s.dev.se.lin k (bits w 15 0) } ∧
        d.get F.SE_LIN_SEL_ENTRY = (s.dev.get F.SE_LIN_SEL_ENTRY + 1) % 128 ∧ (∀ j, j ≠ F.SE_LIN_SEL_ENTRY.key → d.reg j = s.dev.reg j))) ∧
    (s.dev.get F.CAS_ADJ_SEL_PIXEL < 576 → adjProtected (s.dev.get F.CAS_ADJ_SEL_BANK) s.dev = false → s.dev.get F.CAS_ADJ_SEL_WORD = 1 →
      ∃ d, exec (.adjDataAccess (some v)) s = .next { s with dev := d } ∧
        d.cas = { s.dev.cas with adj := kset s.dev.cas.adj (s.dev.get F.CAS_ADJ_SEL_BANK * 2048 + s.dev.get F.CAS_ADJ_SEL_PIXEL * 2 + 1) (v &&& 0x3FFFFFFF) } ∧
        (∀ j, j ≠ F.CAS_ADJ_SEL_WORD.key → d.reg j = s.dev.reg j)) ∧
    (s.dev.get F.CAS_ADJ_SEL_PIXEL < 576 → ∃ d, exec (.adjDataAccess none) s = .next (withDev s d) ∧
      d.rdata = [s.dev.adjWord (s.dev.get F.CAS_ADJ_SEL_BANK) (s.dev.get F.CAS_ADJ_SEL_PIXEL) (s.dev.get F.CAS_ADJ_SEL_WORD)] ∧ d.cas = s.dev.cas ∧
      (∀ j, j ≠ F.CAS_ADJ_SEL_WORD.key → d.reg j = s.dev.reg j)) ∧
    (∃ d, exec (.descSelWrite v) s = .next { s with dev := d } ∧ d.get F.TQ_DESC_SEL_INDEX = bits v 14 0 ∧
      (∀ j, j < 4 → d.reg (R.TQ_DESC_DATA j) = descWord (bits v 14 0) j s.dev) ∧ d.tq = s.dev.tq) ∧
    (s.dev.flt.q = m :: rest → exec (.fltPop false) s = .next (withDev s ({ s.dev with
      rdata := [BitVec.ofNat 32 (m.1.toNat / 2 ^ 32)], flt := { s.dev.flt with q := rest, latch := m } }))) ∧
    (s.dev.flt.q = [] → exec (.fltPop false) s = .next (withDev s ({ s.dev with
      rdata := [0], flt := { s.dev.flt with latch := (0, 0) } }))))

/-- An idle budgeted resource (R42): BUDGET_GRANT gives a burst to the next activity in round-robin order that has a request and an
allowance; BURST_COMPLETE takes what the burst held from its allowance, the excess becoming debt, and grants those ct to the activity's
work; firmware chunks that wait for their pips are written then. A burst held 32 ct is aborted and reported, its work undone.
Completes: budgetGrant, burstComplete, budgetBurst.

The model's choices that this rests on: log entries 18, 19. -/
def Obligations.BudgetBursts : Prop :=
  ∀ (s : State) (r a held : Nat) (x : Burst), r < 3 → r < s.dev.bud.burst.length →
    (s.dev.bud.burst.getD r none = none →
      (∀ b, b < 7 → ((s.dev.budAct r b).want = 0 ∨ (s.dev.budAct r b).allow ≠ 0)) →
      (robinOrder (s.dev.bud.last.getD r 6)).find? (fun b =>
        (s.dev.budAct r b).want != 0 && (s.dev.budAct r b).allow != 0 && s.dev.budgetPips r b != 0) = some a →
      exec (.budgetGrant r) s = .next (withDev s ({ s.dev with bud := { s.dev.bud with
        burst := s.dev.bud.burst.set r (some { act := a, ct := s.dev.clk.ct }), last := s.dev.bud.last.set r a } }))) ∧
    (s.dev.bud.burst.getD r none = some x → x.act = a → x.left = none → held < 32 →
      ∃ d, exec (.burstComplete r held) s = .next (fwDrain (withDev s d)) ∧ (s.dev.sec.chunks = [] → fwDrain (withDev s d) = withDev s d) ∧
        d.bud.burst.getD r none = none ∧
        (d.budAct r a).used = (s.dev.budAct r a).used + held ∧ (d.budAct r a).allow = (s.dev.budAct r a).allow - held ∧
        (d.budAct r a).debt = (s.dev.budAct r a).debt + (held - (s.dev.budAct r a).allow) ∧
        (d.budAct r a).got = (s.dev.budAct r a).got + held ∧ (d.budAct r a).want = (s.dev.budAct r a).want - held ∧ d.regs = s.dev.regs ∧
        (∀ b, b ≠ a → b < 8 → a < 8 → d.budAct r b = s.dev.budAct r b)) ∧
    (s.dev.bud.burst.getD r none = some x → x.act = a → x.left = none →
      ∃ d, d.bud.burst.getD r none = none ∧ (d.budAct r a).debt = (s.dev.budAct r a).debt + (32 - (s.dev.budAct r a).allow) ∧
        (d.budAct r a).got = (s.dev.budAct r a).got ∧
        exec (.budgetBurst r) s = .next { s with dev := report 0x1C0 0x0D 7 0 (r * 16 + a) none d } ∧
        (s.dev.sec.chunks = [] → exec (.burstComplete r (32 + held)) s = .next { s with dev := report 0x1C0 0x0D 7 0 (r * 16 + a) none d }))

/-- Messages that read (R321, R324, R419, and the chapters R321 names): an accepted request changes nothing but its mailbox, where
the response stands with status OK and the words listed; a queue that is not held returns GONE, a count or index outside its
range BAD_ARG. GET_FEATURES gives the version of the running Horef image. Completes: ping, getFeatures, getEventLog, getSlots,
getCapture, getTime, getQueues, monRead, telemList, getQueue, getPort, getUnit, getChannel.

The model's choices that this rests on: log entries 115, 120, 127. -/
def Obligations.MessagesThatRead : Prop :=
  ∀ (s : State) (c : MsgCtx) (w : List Word) (h : List Byte),
    (Accepted 0x0004 c w s → exec (.ping c w) s = .next (answer 0x0004 c 0 w s)) ∧
    (Accepted 0x0002 c w s → s.dev.runHeader 2 = some h → exec (.getFeatures c w) s = .next (answer 0x0002 c 0
      [s.dev.reg R.PWR_FEATURES, pack32 [(31, 16, s.dev.chipId), (15, 12, s.dev.get F.PWR_STATUS_MODE), (11, 11, b2n s.dev.isConc)],
        toWord (hdrWord h 8)] s)) ∧
    (Accepted 0x0005 c w s → exec (.getEventLog c w) s = .next (answer 0x0005 c 0 (eventLog w s.dev) s)) ∧
    (Accepted 0x0105 c w s → exec (.getSlots c w) s = .next (answer 0x0105 c 0 (slotWords s.dev) s)) ∧
    (Accepted 0x0402 c w s → exec (.getCapture c w) s = .next (answer 0x0402 c 0 (captureWords s.dev) s)) ∧
    (Accepted 0x0501 c w s → exec (.getTime c w) s = .next (answer 0x0501 c 0 (timeWords s.dev) s)) ∧
    (Accepted 0x0607 c w s → exec (.getQueues c w) s = .next (answer 0x0607 c 0 (queuesWords s.dev) s)) ∧
    (Accepted 0x0803 c w s → exec (.monRead c w) s = .next (answer 0x0803 c 0 (monReadWords w s.dev) s)) ∧
    (Accepted 0x0D03 c w s → exec (.telemList c w) s = .next (answer 0x0D03 c 0 (telemListWords s.dev) s)) ∧
    (Accepted 0x0604 c w s → (let t := bits (wordAt w 0) 15 0 * 2 ^ 32 + (wordAt w 1).toNat
      exec (.getQueue c w) s = .next (match s.dev.holding t with
        | some _ => answer 0x0604 c 0 ((List.range 4).map (fun j => descWord (t % 32768) j s.dev)) s
        | none => answer 0x0604 c 8 [] s))) ∧
    (Accepted 0x0702 c w s → bits (wordAt w 0) 3 0 < 12 → s.dev.absentKey (R.LNK_PORT_CFG (bits (wordAt w 0) 3 0)) = false →
      (let p := bits (wordAt w 0) 3 0
      exec (.getPort c w) s = .next (answer 0x0702 c 0 ([readPlain (R.LNK_PORT_STATUS p) s.dev, readPlain (R.LNK_PEER_CAP p) s.dev] ++
        (List.range (portLanes p)).flatMap (fun i => [readPlain (R.LNK_LANE_STATUS (laneOf p i)) s.dev, readPlain (R.LNK_LANE_EYE (laneOf p i)) s.dev])) s))) ∧
    (Accepted 0x0302 c w s → (let first := bits (wordAt w 0) 15 8; let n := bits (wordAt w 0) 5 0
      exec (.getUnit c w) s = .next (if n = 0 ∨ 40 < n ∨ 132 < first + n then answer 0x0302 c 5 [] s
        else answer 0x0302 c 0 ((List.range n).flatMap (fun j => [readPlain (R.TDC_UNIT_STATUS (first + j)) s.dev,
          readPlain (R.TDC_UNIT_AGE (first + j)) s.dev, readPlain (R.TDC_UNIT_QUAL (first + j)) s.dev])) s))) ∧
    (Accepted 0x0202 c w s → bits (wordAt w 0) 31 27 = 3 → bits (wordAt w 0) 26 23 = 0 → bits (wordAt w 0) 6 0 ≠ 0 →
      bits (wordAt w 0) 13 8 + bits (wordAt w 0) 6 0 ≤ 64 → exec (.getChannel c w) s = .next (answer 0x0202 c 0
        ((List.range (bits (wordAt w 0) 6 0)).map (fun j => readPlain (0x30500 + 4 * (bits (wordAt w 0) 13 8 + j)) s.dev)) s))

/-- Configuring messages that hold the set open (R314 to R316; KIND 0 of the commit block): with no set in the way, the message's
words go into the shadow by register writes, the set is open under the message's mailbox, nothing is sealed, and the commit
response carries the tag (R43, R87, R323, R328, R337, R470). Completes: setMode, setBudget, setChannel, setTestPulse, setReaction, poke.

SEAL with KIND NEXT by the owner of the open set (R28, R314, R316, R317): the set is sealed as a seal of TRN, the set closes, and
the response gives the slot, the tag and the turn at which it applies. Completes: seal.

The model's choices that this rests on: log entries 117, 118, 127. -/
def Obligations.ConfiguringMessages : Prop :=
  (∀ (s : State) (c : MsgCtx) (w : List Word), cbOk w = true → cbKind w = 0 → setBusy (ownerOf c) s.dev = false →
    (let opened (t : State) : State := { t with dev := t.dev.setMbx { t.dev.mbx with openSet := some (ownerOf c, 0) } }
    (Accepted 0x0101 c w s → exec (.setMode c w) s =
      .next (answer 0x0101 c 0 (commitNone (cbTag w) 0) (opened (writeReg R.PWR_MODE_CTRL (wordAt w 2) s)))) ∧
    (Accepted 0x0106 c w s → (∀ e ∈ w.drop 2, bits e 31 30 ≠ 3 ∧ bits e 29 27 ≠ 7) → exec (.setBudget c w) s =
      .next (answer 0x0106 c 0 (commitNone (cbTag w) 0) (opened ((w.drop 2).foldl (fun t e =>
        writeReg (R.TRN_BUDGET (bits e 31 30) (bits e 29 27)) (toWord (bits e 9 0)) t) s)))) ∧
    (Accepted 0x0201 c w s → (planChannel w).status = 0 → exec (.setChannel c w) s =
      .next (answer 0x0201 c 0 (commitNone (cbTag w) 0) (opened ((planChannel w).writes.foldl (fun t x => cfgWrite x t) s)))) ∧
    (Accepted 0x0203 c w s → exec (.setTestPulse c w) s =
      .next (answer 0x0203 c 0 (commitNone (cbTag w) 0) (opened (writeReg R.AFE_TP_POS (wordAt w 4) (writeReg R.AFE_TP_START_HI (wordAt w 2)
        (writeReg R.AFE_TP_START_LO (wordAt w 3) (writeReg R.AFE_TP_CTRL (wordAt w 5) s))))))) ∧
    (Accepted 0x0A03 c w s → (∀ e ∈ w.drop 2, (faultKind (bits e 31 26)).isSome = true ∧ bits e 7 0 ≠ 0) → exec (.setReaction c w) s =
      .next (answer 0x0A03 c 0 (commitNone (cbTag w) 0) (opened ((w.drop 2).foldl (fun t e => writeReg (R.FLT_REACT (bits e 31 26))
        (pack32 [(20, 16, bits e 25 21), (12, 8, bits e 20 16), (7, 0, bits e 7 0)]) t) s)))) ∧
    (Accepted 0x0C02 c w s → (∀ p ∈ wordPairs (w.drop 2), offsetStatus (bits p.1 23 0) true s.dev = 0) → exec (.poke c w) s =
      .next (answer 0x0C02 c 0 (commitNone (cbTag w) 0) (opened ((wordPairs (w.drop 2)).foldl (fun t p => writeReg (bits p.1 23 0) p.2 t) s)))))) ∧
  (∀ (s : State) (c : MsgCtx) (w : List Word) (age : Nat), Accepted 0x0102 c w s → cbOk w = true → cbKind w = 2 →
    s.dev.mbx.openSet = some (ownerOf c, age) →
    (let d0 := s.dev.setMbx { s.dev.mbx with openSet := some (ownerOf c, 0) }
    let r := sealSet .next (cbTag w) d0
    r.1.status = 0 → exec (.seal c w) s = .next (answer 0x0102 c 0
      [pack32 [(31, 31, b2n r.1.deferred), (26, 24, r.1.slot), (23, 16, cbTag w), (15, 12, 0)], toWord (r.1.apply / 2 ^ 32), toWord r.1.apply]
      { s with dev := r.2.setMbx { r.2.mbx with openSet := none } })))

/-- Requests that are turned away (R2, R305, R313, R321, R322): nothing changes but the mailbox, whose response carries the status;
a request with the identifier of EVENT is one of them: BAD_ARG is its own effect, since Horef alone sends EVENT (R318, R319).
Completes: event.

A response stands in its mailbox (R301, R303, R306): the words are in the mailbox RAM from word 0 on, the mailbox is EXECUTING
with DOORBELL_OUT set, and no register but the RAM words, MBX_STATE and DOORBELL_OUT, and nothing else of the block, changes, but that
the marks of the bytes written go (R380). A flip mask armed for the mailbox RAM is taken by the write (R393).

The model's choices that this rests on: log entries 84, 115, 116, 117, 122, 127. -/
def Obligations.DenialsAndResponses : Prop :=
  (∀ (s : State) (id : Nat) (c : MsgCtx) (w : List Word), s.dev.horefRuns = true → s.dev.sec.halted = false → c.mbx < 8 →
    (accessStatus id c s.dev ≠ 0 →
      direct id c w s = answer id c (accessStatus id c s.dev) (if hasCommitResponse id then commitNone (if isConfiguring id then cbTag w else 0) 0 else []) s) ∧
    exec (.event c w) s = .next (answer 0x0001 c 5 [] s) ∧
    (6 ≤ c.mbx → paySpec id ≠ none → s.dev.is F.PWR_STATUS_RECOVERY = false → accessStatus id c s.dev = 3) ∧
    (needsSignature id = true → c.signed = false → s.dev.is F.PWR_STATUS_RECOVERY = false → accessStatus id c s.dev = 3)) ∧
  (∀ (m : Nat) (ws : List Word) (d : Dev), m < 8 → ws.length ≤ 128 →
    (d.is F.MEM_FLIP_CTRL_ARM = false → ∃ r, respond m ws d = { d with regs := (respond m ws d).regs, ram := r } ∧
      (∀ u, u < 4 * ws.length → kget r.faulty (unitKey 3 (512 * m + u)) 0 = 0 ∧ unitKey 3 (512 * m + u) ∉ r.poison) ∧
      (∀ j, j < ws.length → (respond m ws d).reg (ramKey m j) = wordAt ws j) ∧
      (∀ k, k ≠ R.MBX_STATE → k ≠ R.MBX_DOORBELL_OUT → (∀ j, j < ws.length → k ≠ ramKey m j) → (respond m ws d).reg k = d.reg k)) ∧
    (respond m ws d).mbxState m = 2 ∧ bit ((respond m ws d).reg R.MBX_DOORBELL_OUT) m = true ∧
    (ws ≠ [] → d.is F.MEM_FLIP_CTRL_ARM = true → d.get F.MEM_FLIP_CTRL_FAMILY = 3 → d.is F.MEM_FLIP_CTRL_ADDR_MATCH = false →
      (respond m ws d).is F.MEM_FLIP_CTRL_ARM = false))

/-- A request arrives over I²C, over VL_1 or from the control core (R300, R301, R308): an empty mailbox takes its words and becomes REQUEST on
its path, last in order; over I²C a mailbox in REQUEST or EXECUTING keeps its request, and the refusal is counted in BUSY_REPLIES; one in
RESPONSE that holds the response to this very request sends it again. A write of fewer than two words, to a pointer that is no mailbox of
the target, or with the target off, changes nothing. (With a flip mask armed the words may take it, R393.)
Completes: mailboxRequest, i2cMessageWrite.

RESPONSE_SEND (R302, R303): a complete response leaves on the path of its request, the port if it still has an ACTIVE lane; the
mailbox then holds it in RESPONSE, or is EMPTY after a BUSY; without DOORBELL_OUT nothing happens. One whose words fail the memory
check is written anew from Horef's copy and sent all the same (R385). Completes: responseSend.

The model's choices that this rests on: log entries 84, 122, 123, 124. -/
def Obligations.RequestsComeAndResponsesGo : Prop :=
  (∀ (s : State) (m : Nat) (ws : List Word) (bytes : List Byte), wordsOfBytes bytes = ws → hdrMbx (wordAt ws 1) = m →
    ((s.dev.i2cOn = false ∨ 6 ≤ m ∨ ws.length < 2) → exec (.i2cMessageWrite m bytes) s = .next s ∧ exec (.mailboxRequest .i2c ws) s = .next s) ∧
    (s.dev.i2cOn = true → m < 6 → 2 ≤ ws.length → ws.length ≤ 128 → s.dev.mbxState m = 0 → s.dev.is F.MEM_FLIP_CTRL_ARM = false →
      ∃ d, exec (.i2cMessageWrite m bytes) s = .next { s with dev := d } ∧ exec (.mailboxRequest .i2c ws) s = .next { s with dev := d } ∧
        d.mbxState m = 1 ∧ d.mbxPath m = 2 ∧ bit (d.reg R.MBX_DOORBELL_IN) m = true ∧ (∀ j, j < ws.length → d.reg (ramKey m j) = wordAt ws j) ∧
        d.mbx = { s.dev.mbx with order := s.dev.mbx.order ++ [m], got := kset s.dev.mbx.got m ws.length } ∧
        d.commit = s.dev.commit ∧ d.clk = s.dev.clk ∧ d.tq = s.dev.tq) ∧
    (∀ (pt : Path) (v : Nat), (pt = .core ∧ v = 3 ∧ 6 ≤ m ∨
        (∃ q, q < 2 ∧ pt = .vl1 q ∧ v = q ∧ m < 6 ∧ hdrChip (wordAt ws 1) = s.dev.chipId ∧ s.dev.chipId ≠ 0)) →
      s.dev.horefRuns = true → 2 ≤ ws.length → ws.length ≤ 128 → s.dev.mbxState m = 0 → s.dev.is F.MEM_FLIP_CTRL_ARM = false →
      ∃ d, exec (.mailboxRequest pt ws) s = .next { s with dev := d } ∧
        d.mbxState m = 1 ∧ d.mbxPath m = v ∧ bit (d.reg R.MBX_DOORBELL_IN) m = true ∧ (∀ j, j < ws.length → d.reg (ramKey m j) = wordAt ws j) ∧
        d.mbx = { s.dev.mbx with order := s.dev.mbx.order ++ [m], got := kset s.dev.mbx.got m ws.length } ∧
        d.commit = s.dev.commit ∧ d.clk = s.dev.clk ∧ d.tq = s.dev.tq) ∧
    (s.dev.i2cOn = true → m < 6 → 2 ≤ ws.length → (s.dev.mbxState m = 1 ∨ s.dev.mbxState m = 2) →
      exec (.i2cMessageWrite m bytes) s = .next { s with dev := count1 (R.MBX_COUNT 1) s.dev } ∧
      exec (.mailboxRequest .i2c ws) s = .next { s with dev := count1 (R.MBX_COUNT 1) s.dev })) ∧
  (∀ (s : State) (m : Nat), m < 8 →
    (bit (s.dev.reg R.MBX_DOORBELL_OUT) m = false → exec (.responseSend m) s = .next s) ∧
    (bit (s.dev.reg R.MBX_DOORBELL_OUT) m = true → m ∉ s.dev.mbx.remains → (∀ f ∈ s.dev.mbx.forward, f.1 ≠ m) →
      (let ws := heldWords m s.dev
      ((mbxCheck m ws.length s.dev).1 = true → s.dev.mbxPath m < 2 → ∃ d, exec (.responseSend m) s = .next { s with dev := d } ∧ ∃ o ∈ d.out, o.words = ws) ∧
      (mbxCheck m ws.length s.dev = (false, s.dev) → ∃ d, exec (.responseSend m) s = .next { s with dev := d } ∧ bit (d.reg R.MBX_DOORBELL_OUT) m = false ∧
        d.mbxState m = (if hdrStatus (wordAt ws 1) = 1 then 0 else 3) ∧
        (2 ≤ s.dev.mbxPath m → d.out = s.dev.out) ∧
        (s.dev.mbxPath m < 2 → ∃ id, d.out = s.dev.out ++
          [{ dst := if s.dev.portUp (s.dev.mbxPath m) then .up (s.dev.mbxPath m) else .active, words := ws, stampId := id }]) ∧
        d.mbx.order = s.dev.mbx.order ∧ d.commit = s.dev.commit ∧
        (∀ k, k ≠ R.MBX_STATE → k ≠ R.MBX_DOORBELL_OUT → d.reg k = s.dev.reg k)))))

/-- Horef takes the oldest request and answers it (R302, R305, R385): it leaves the order, and one response is formed from its header and
stands in its mailbox; a request whose words fail the memory check returns BAD_ARG, and so does one whose header is wrong, which also
raises BAD_HEADER. An unsigned request of the catalogue with a good header is served by its message, and status and words of that are its
response: a PING that may run returns its payload. Nothing is taken while a request executes, while the core is halted or in a mode in
which Horef does not run. Completes: requestExecute.

The model's choices that this rests on: log entries 84, 115, 122. -/
def Obligations.RequestIsAnswered : Prop :=
  ∀ (s : State) (m : Nat) (r : List Nat),
    ((s.dev.horefRuns = false ∨ s.dev.sec.halted = true ∨ s.dev.executing = true ∨ s.dev.mbx.order = []) → exec .requestExecute s = .next s) ∧
    (s.dev.horefRuns = true → s.dev.sec.halted = false → s.dev.executing = false → s.dev.mbx.order = m :: r →
      (let d0 := setBell R.MBX_DOORBELL_IN m false (setMbxState m 2 (s.dev.setMbx { s.dev.mbx with order := r }))
      let w0 := d0.reg (ramKey m 0)
      let w1 := d0.reg (ramKey m 1)
      let ws := ramWords m (2 + min 126 (hdrLen w0)) d0
      (hdrId w0 < 0x8000 →
        ∃ (u : State) (st : Nat) (out : List Word),
          exec .requestExecute s = .next { u with dev := respond m (responseTo w0 w1 st out u.dev) u.dev }) ∧
      ((mbxCheck m ws.length d0).1 = true →
        (let e := (mbxCheck m ws.length d0).2
        exec .requestExecute s = .next { s with dev := respond m (responseTo w0 w1 5 [] e) e })) ∧
      (mbxCheck m ws.length d0 = (false, d0) → headerBad (d0.mbxPath m) (kget s.dev.mbx.got m 0) w0 w1 = true → wordAt ws 0 = w0 → wordAt ws 1 = w1 →
        (let e := raise E.MBX_BAD_HEADER [] (count1 (R.MBX_COUNT 3) d0)
        exec .requestExecute s = .next { s with dev := respond m (responseTo w0 w1 5 [] e) e })) ∧
      (mbxCheck m ws.length d0 = (false, d0) → headerBad (d0.mbxPath m) (kget s.dev.mbx.got m 0) w0 w1 = false → wordAt ws 0 = w0 → wordAt ws 1 = w1 →
        hdrSig w1 = false → (d0.mbxPath m = 2 → hdrChip w1 = s.dev.chipId ∨ hdrChip w1 = 0 ∨ hdrChip w1 = 0xFFFF) → hdrId w0 < 0x8000 →
        (let c := ctxOf m w0 w1 (ws.drop 2)
        let r := serve (hdrId w0) c (ws.drop 2) { s with dev := d0 }
        exec .requestExecute s = .next { r.1 with dev := respond m (responseTo w0 w1 r.2.1 r.2.2 r.1.dev) r.1.dev } ∧
        (hdrId w0 = 4 → accessStatus 4 c d0 = 0 →
          exec .requestExecute s = .next { s with dev := respond m (responseTo w0 w1 0 (ws.drop 2) d0) d0 })))))

/-- User firmware (R331, R332): a message of MSG_ID 0x8000 or above goes to its handler and its mailbox is EXECUTING; it is
UNSUPPORTED without a handler. When the handler returns its response stands in the mailbox; after 500 µs BUSY is sent on its
behalf, and the late response is held unsent. Completes: userMessage, handlerReturn, handlerTimeout.

The model's choices that this rests on: log entries 114, 126, 127. -/
def Obligations.UserHandlers : Prop :=
  ∀ (s : State) (c : MsgCtx) (id m status : Nat) (w : List Word) (h : Handler), s.dev.horefRuns = true → s.dev.sec.halted = false →
    c.mbx < 8 → w.length ≤ 126 → id < 0x8000 →
    (s.dev.handles (0x8000 + id) = false → exec (.userMessage c (0x8000 + id) w) s = .next (answer (0x8000 + id) c 4 [] s)) ∧
    (s.dev.handles (0x8000 + id) = true → c.mbx < 6 → s.dev.mbx.handlers = [] →
      exec (.userMessage c (0x8000 + id) w) s = .next (withDev s (setMbxState c.mbx 2 (s.dev.setMbx { s.dev.mbx with handlers :=
        [{ mbx := c.mbx, id := 0x8000 + id, seq := c.seq, hdrMbx := c.mbx, stamp := c.stamp, dirty := s.dev.commit.dirty }] })))) ∧
    (s.dev.mbx.handlers = [h] → h.mbx = m → h.late = false → s.dev.commit.dirty = h.dirty →
      exec (.handlerReturn m status w) s = .next (withDev s (respond m (responseWords s.dev.chipId h.id h.seq h.hdrMbx h.stamp status w)
        (s.dev.setMbx { s.dev.mbx with handlers := [] }))) ∧
      exec (.handlerTimeout m) s = .next (withDev s (sendPath (s.dev.mbxPath m)
        (responseWords s.dev.chipId h.id h.seq h.hdrMbx h.stamp 1 []) (s.dev.setMbx { s.dev.mbx with handlers := [{ h with late := true }] })))) ∧
    (s.dev.mbx.handlers = [h] → h.mbx = m → h.late = true → s.dev.commit.dirty = h.dirty → status ≠ 1 →
      exec (.handlerReturn m status w) s = .next (withDev s (setMbxState m 3 (mbxPut m 0
        (responseWords s.dev.chipId h.id h.seq h.hdrMbx h.stamp status w) (s.dev.setMbx { s.dev.mbx with handlers := [] })))))

/-- What Horef does in time, and what I²C reads show (R308, R316, R319, R330): an open set of 4 096 turns is discarded and
SET_EXPIRED raised; an interval without a further raise ends silently, one with raises sends one message that carries their
count; a due record is read and emitted once its pip is granted; I²C reads show the response, the ready mask, or the oldest event
message, which leaves the queue. Completes: openSetExpire, eventIntervalEnd, telemRecord, i2cResponseRead, i2cReadyRead,
i2cEventPop.

The model's choices that this rests on: log entries 10, 11, 40, 121, 123. -/
def Obligations.HorefTimesAndI2cReads : Prop :=
  ∀ (s : State) (owner age block b m id : Nat) (x : EvtInterval) (t : TelemRec) (ev : List Word) (rest : List (List Word)),
    (s.dev.mbx.openSet = some (owner, age) → 4096 ≤ age → exec .openSetExpire s = .next (withDev s (
      raise E.MBX_SET_EXPIRED [] ((discardShadow s.dev).setMbx { s.dev.mbx with openSet := none })))) ∧
    (s.dev.mbx.openSet = some (owner, age) → age < 4096 → exec .openSetExpire s = .next s) ∧
    (s.dev.ev.open_ = [x] → x.evt = block * 32 + b → 256 ≤ x.age → x.count = 0 →
      exec (.eventIntervalEnd block b) s = .next { s with dev := { s.dev with ev := { s.dev.ev with open_ := [] } } }) ∧
    (s.dev.ev.open_ = [x] → x.evt = block * 32 + b → 256 ≤ x.age → x.count ≠ 0 → s.dev.ev.i2c.length < 64 →
      (let e := sendEvent (block * 32 + b) x.count x.first x.firstLt x.detail { s.dev with ev := { s.dev.ev with open_ := [] } }
      let i2 : EvtInterval := { evt := block * 32 + b, count := 0, first := e.now, firstLt := 0, detail := [] }
      exec (.eventIntervalEnd block b) s = .next { s with dev := count1 (R.MBX_COUNT 4) { e with ev := { e.ev with open_ := [i2] } } })) ∧
    (s.dev.mbx.telem = [t] → t.id = id → t.waiting = true → t.toMbx = false → 16 ≤ (s.dev.budAct 0 2).got →
      (let e := (s.dev.setBudAct 0 2 { s.dev.budAct 0 2 with got := (s.dev.budAct 0 2).got - 16 }).setMbx { s.dev.mbx with telem := [{ t with waiting := false }] }
      let pay := pairWords (t.offsets.map (fun o => readPlain o e))
      exec (.telemRecord id) s = .next (withDev s ({ e with fifos := kset e.fifos 132 (kget e.fifos 132 [] ++
        [{ t := s.dev.now, src := 132, words := pack64 [(63, 60, 9), (57, 54, pay.length), (53, 40, t.id), (39, 0, s.dev.now.t40)] :: pay }]) })))) ∧
    (s.dev.mbx.telem = [t] → t.id = id → t.waiting = true → (s.dev.budAct 0 2).got < 16 →
      exec (.telemRecord id) s = .next (withDev s (s.dev.setBudAct 0 2 { s.dev.budAct 0 2 with
        want := max (s.dev.budAct 0 2).want (16 - (s.dev.budAct 0 2).got) }))) ∧
    (s.dev.i2cOn = true → m < 6 → s.dev.mbxState m = 3 → exec (.i2cResponseRead m) s = .next { s with dev := { s.dev with rdata := heldWords m s.dev } }) ∧
    (s.dev.i2cOn = true → exec .i2cReadyRead s = .next (withDev s ({ s.dev with rdata := [BitVec.ofNat 32 (
      ((List.range 6).filter (fun j => s.dev.mbxState j == 3 && s.dev.mbxPath j == 2)).foldl (fun a j => a + 2 ^ j) 0 +
        128 * (if s.dev.ev.i2c = [] then 0 else 1))] }))) ∧
    (s.dev.i2cOn = true → s.dev.ev.i2c = ev :: rest →
      exec .i2cEventPop s = .next { s with dev := { s.dev with rdata := ev, ev := { s.dev.ev with i2c := rest } } })

/-- Messages that configure Horef itself or reach registers one by one (R13, R103, R326 to R329): SET_CHIP_ID takes an ID that is not 0 or
0xFFFF; TELEM_DEFINE keeps a record and PERIOD 0 removes it; PEEK returns the words of readable registers; GET_TABLE returns COUNT
table words from the entry selected; PORT_FORWARD prepares its inner message, target 0xFFFF and FWD set, for an open port.
Completes: setChipId, telemDefine, peek, getTable, portForward.

The model's choices that this rests on: log entries 119, 120, 121, 125. -/
def Obligations.MessagesOfHorefItself : Prop :=
  ∀ (s : State) (c : MsgCtx) (w : List Word),
    (Accepted 0x0003 c w s → bits (wordAt w 0) 15 0 ≠ 0 → bits (wordAt w 0) 15 0 ≠ 0xFFFF →
      exec (.setChipId c w) s = .next (answer 0x0003 c 0 [] { s with dev := announceCaps { s.dev with chipId := bits (wordAt w 0) 15 0 } })) ∧
    (Accepted 0x0003 c w s → (bits (wordAt w 0) 15 0 = 0 ∨ bits (wordAt w 0) 15 0 = 0xFFFF) → exec (.setChipId c w) s = .next (answer 0x0003 c 5 [] s)) ∧
    (Accepted 0x0D01 c w s → bits (wordAt w 0) 13 0 ≠ 0x3FFF → bits (wordAt w 1) 15 0 = 0 →
      exec (.telemDefine c w) s = .next (answer 0x0D01 c 0 [] { s with dev := s.dev.setMbx { s.dev.mbx with
        telem := s.dev.mbx.telem.filter (fun r => r.id != bits (wordAt w 0) 13 0) } })) ∧
    (Accepted 0x0D01 c w s → bits (wordAt w 0) 13 0 ≠ 0x3FFF → bits (wordAt w 2) 15 0 < bits (wordAt w 1) 15 0 → w.drop 4 ≠ [] →
      (∀ o ∈ w.drop 4, offsetStatus (bits o 23 0) false s.dev = 0) → s.dev.mbx.telem = [] →
      exec (.telemDefine c w) s = .next (answer 0x0D01 c 0 [] { s with dev := s.dev.setMbx { s.dev.mbx with
        telem := [{ id := bits (wordAt w 0) 13 0, period := bits (wordAt w 1) 15 0, phase := bits (wordAt w 2) 15 0, toMbx := bit (wordAt w 3) 0, offsets := (w.drop 4).map (fun o => bits o 23 0) }] } })) ∧
    (Accepted 0x0C01 c w s → (let off := bits (wordAt w 0) 23 0; let n := bits (wordAt w 1) 6 0
      off % 4 = 0 → n ≠ 0 → n ≤ 124 → off + 4 * n ≤ 0x130000 → (∀ j, j < n → s.dev.secureAt (regBase + off + 4 * j) false = false) →
      exec (.peek c w) s = .next (answer 0x0C01 c 0 (peekReads n off s.dev).1 { s with dev := (peekReads n off s.dev).2 }))) ∧
    (Accepted 0x0303 c w s → (let w0 := wordAt w 0
      bits w0 6 0 ≠ 0 → bits w0 6 0 ≤ 120 → bits w0 29 22 < 132 → bits w0 21 19 < 5 →
      (let d := (((s.dev.put F.TDC_TABLE_SEL_KIND (bits w0 31 30)).put F.TDC_TABLE_SEL_UNIT (bits w0 29 22)).put F.TDC_TABLE_SEL_CHAIN
        (bits w0 21 19)).put F.TDC_TABLE_SEL_ENTRY (bits w0 18 10)
      exec (.getTable c w) s = .next (answer 0x0303 c 0 (tableReads (bits w0 6 0) d).1 { s with dev := (tableReads (bits w0 6 0) d).2 })))) ∧
    (Accepted 0x0601 c w s → (let j := bits (wordAt w 0) 3 0; let inner := w.drop 1
      hdrLen (wordAt inner 0) ≤ 123 → inner.length = hdrLen (wordAt inner 0) + 2 → j < s.dev.get F.PWR_FEATURES_DN_PORTS → s.dev.isConc = true →
      s.dev.portOpen j = true →
      exec (.portForward c w) s = .next (answer 0x0601 c 0 [] { s with dev := s.dev.setMbx { s.dev.mbx with forward := s.dev.mbx.forward ++ [(c.mbx,
        { dst := .down j, words := inner.set 1 (setBits (setBits (wordAt inner 1) 31 16 0xFFFF) 11 11 1) })] } })))

/-- Rows with two forms, a message and register writes (R302 to R322): the form as a message is the execution of that message with the row's
operands as its payload.

The model's choices that this rests on: log entry 127. -/
def Obligations.MessageFormsAreMessages : Prop :=
  ∀ (s : State) (c : MsgCtx) (w : List Word) (n f l len : Nat) (lo hi : Word),
    exec (.tdcFullCal (some c)) s = .next (direct 0x0301 c [] s) ∧
    exec (.swTrigger (some c) lo hi) s = .next (direct 0x0401 c [lo, hi] s) ∧
    exec (.markSet (some c) n) s = .next (direct 0x0602 c (1 :: hiLo (n % turnMod)) s) ∧
    exec (.markClear (some c)) s = .next (direct 0x0602 c [2, 0, 0] s) ∧
    exec (.giveUp (some c) f) s = .next (direct 0x0605 c [toWord (f % 4)] s) ∧
    exec (.linkRetrain (some c) n) s = .next (direct 0x0701 c [pack32 [(19, 16, n), (2, 0, 1)]] s) ∧
    exec (.linkRestart (some c) n) s = .next (direct 0x0701 c [pack32 [(19, 16, n), (2, 0, 2)]] s) ∧
    exec (.prbsStart (some c) l len) s = .next (direct 0x0701 c [pack32 [(27, 24, len), (12, 8, l), (2, 0, 3)]] s) ∧
    exec (.prbsStop (some c) l) s = .next (direct 0x0701 c [pack32 [(12, 8, l), (2, 0, 4)]] s) ∧
    exec (.monInject (some c) w) s = .next (direct 0x0801 c w s) ∧
    exec (.guardLoadGpb (some c) w) s = .next (direct 0x0901 c w s) ∧
    exec (.guardConfirm (some c) w) s = .next (direct 0x0902 c w s) ∧
    exec (.guardClear (some c) w) s = .next (direct 0x0903 c w s)

/-- Routing (R13, R220, R221, R309): a message received on VL_1 leaves the receive queue; one for this Burjor is delivered; one for
another on a leaf is answered ID_MISMATCH and counted; one for a routed target below goes down its port; a message from below goes
upward, tagged with its port, where the port may relay it. Completes: vl1MessageRoute, downstreamMessageRelay.

The model's choices that this rests on: log entries 64, 124, 125, 147. -/
def Obligations.MessagesAreRouted : Prop :=
  ∀ (s : State) (p j t : Nat) (ws : List Word) (r : List (List Word)), p < 2 → j < 8 → 2 ≤ ws.length →
    (let taken (q : Nat) : Dev := s.dev.setPort q { s.dev.port q with msgs := r }
    ((s.dev.port p).msgs = [] → exec (.vl1MessageRoute p) s = .next s) ∧
    ((s.dev.port p).msgs = ws :: r → s.dev.horefRuns = true → hdrChip (wordAt ws 1) = s.dev.chipId → s.dev.chipId ≠ 0 → hdrMbx (wordAt ws 1) < 6 →
      exec (.vl1MessageRoute p) s = .next { s with dev := arrive p (hdrMbx (wordAt ws 1)) ws (taken p) }) ∧
    ((s.dev.port p).msgs = ws :: r → s.dev.horefRuns = true → hdrChip (wordAt ws 1) ≠ s.dev.chipId → hdrChip (wordAt ws 1) ≠ 0xFFFF →
      s.dev.isConc = false →
      exec (.vl1MessageRoute p) s = .next { s with dev := replyHeader p (wordAt ws 0) (wordAt ws 1) 9 (count1 (R.MBX_COUNT 6) (taken p)) }) ∧
    ((s.dev.port p).msgs = ws :: r → s.dev.horefRuns = true → hdrChip (wordAt ws 1) ≠ s.dev.chipId → hdrChip (wordAt ws 1) ≠ 0xFFFF →
      s.dev.isConc = true → routeOf (hdrChip (wordAt ws 1)) (taken p) = some t →
      exec (.vl1MessageRoute p) s = .next { s with dev := sendDownstream t ws (taken p) }) ∧
    ((s.dev.port (2 + j)).msgs = [] → exec (.downstreamMessageRelay j) s = .next s) ∧
    ((s.dev.port (2 + j)).msgs = ws :: r → ((taken (2 + j)).portOpen j = true ∨ (taken (2 + j)).portState j = 5 ∧ hdrRsp (wordAt ws 1) = true) →
      (s.dev.out.filter (fun o => o.relay == some j)).length < 8 →
      exec (.downstreamMessageRelay j) s = .next (withDev s ({ taken (2 + j) with
        out := s.dev.out ++ [{ dst := .active, words := ws, relay := some j }] }))) ∧
    ((s.dev.port (2 + j)).msgs = ws :: r → (taken (2 + j)).portOpen j = false → (taken (2 + j)).portState j ≠ 5 →
      exec (.downstreamMessageRelay j) s = .next (withDev s (taken (2 + j)))) ∧
    ((s.dev.port (2 + j)).msgs = ws :: r → (taken (2 + j)).portOpen j = true → 8 ≤ (s.dev.out.filter (fun o => o.relay == some j)).length →
      exec (.downstreamMessageRelay j) s = .next (withDev s (count1 (R.CAS_COUNT 3) (taken (2 + j))))))

/-- BEACON_RECEIVE, STEER_APPLY, ST_TICK and ST_PERSIST (R46 to R54, R66): a beacon with a wrong CRC is only counted; a good one of a
time-carrying port whose exchange has succeeded gives θ in OFFSET, and in state LOCKED the AT source's θ within the jump limit goes
to the servo while one beyond it is refused; STEER takes the new word at ct 256; ST moves on by one second, and its record is kept once
its MRAM pip is granted, and asks for the pip until then. Completes: beaconReceive, steerApply, stTick, stPersist.

The servo (R52): whatever θ and gains, the steering word stays within 200 ppm, 219 902 325; it is clamped only at that bound, and
while it is clamped the integrator does not move further in the direction of the clamp.

The model's choices that this rests on: log entries 26, 28, 30, 136. -/
def Obligations.BeaconsAndSteering : Prop :=
  (∀ (s : State) (p : Nat) (chars : List Byte) (k : List Nat) (t2 : Int), p < 2 →
    (crc8 (chars.take 9) ≠ (chars.getD 9 0).toNat →
      exec (.beaconReceive p chars .none k) s = .next { s with dev := count1 (R.TIME_COUNT p) s.dev }) ∧
    (let n := bytesNat (chars.take 6)
    let lag := bytesNat (chars.drop 7 |>.take 2) % 8192
    let t := s.dev.tport p
    let diff := t2 - (s.dev.reg (R.TIME_PORT_CAL p 1)).toNat - (n * 2 ^ 25 + lag : Nat)
    let u : TPort := { t with seen := true, validRun := t.validRun + 1, missRun := 0, master := (chars.getD 6 0).toNat / 8, diff := some diff }
    let d1 := s.dev.setTport p u
    let th := thetaOf d1 p diff
    let d2 := (d1.setTport p { u with theta := some th }).setLive (R.TIME_OFFSET p) (toWord (ofSigned 32 th))
    chars.length = 10 → crc8 (chars.take 9) = (chars.getD 9 0).toNat → lag < 5120 → s.dev.get (F.LNK_LANE_STATUS_STAGE (16 + p)) = 5 →
      unitInitial (130 + p) s.dev = false → edgeStamp (130 + p) s.dev.clk.turn s.dev.clk.ct k s.dev = some t2 →
      s.dev.is (upField p) = true → s.dev.is (delayValidField p) = true → p < s.dev.time.ports.length → s.dev.atSrc = p → s.dev.atState = 2 →
      s.dev.turnValid = true →
      ((th.natAbs : Int) ≤ s.dev.jumpLimit →
        exec (.beaconReceive p chars .none k) s = .next { s with dev := servoUpdate th (d2.put F.TIME_STATUS_JUMP_HOLD 0) }) ∧
      (s.dev.jumpLimit < (th.natAbs : Int) → exec (.beaconReceive p chars .none k) s = .next { s with dev := jumpRefuse d2 })) ∧
    (∀ v, s.dev.time.newSteer = some v → ∃ d, exec .steerApply s = .next { s with dev := d } ∧ d.clk = { s.dev.clk with ct := 256 } ∧
      d.liveReg R.TIME_STEER = toWord (ofSigned 32 v) ∧ d.regs = s.dev.regs ∧ d.time = { s.dev.time with newSteer := none }) ∧
    exec .stTick s = .next { s with dev := { s.dev with time := { s.dev.time with st := (s.dev.time.st + 1) % 2 ^ 48, stCycles := 0 } } } ∧
    (16 ≤ (s.dev.budAct 2 6).got →
      ∃ d, exec .stPersist s = .next { s with dev := d } ∧ d.time = { s.dev.time with stMram := s.dev.time.st } ∧ d.clk = s.dev.clk ∧
        (d.budAct 2 6).got = (s.dev.budAct 2 6).got - 16) ∧
    ((s.dev.budAct 2 6).got < 16 → exec .stPersist s = .next (withDev s (s.dev.setBudAct 2 6 { s.dev.budAct 2 6 with
      want := max (s.dev.budAct 2 6).want (16 - (s.dev.budAct 2 6).got) })))) ∧
  (∀ (kp ki : Nat) (theta : Int) (v : Servo),
    (let r := servoStep kp ki theta v
    (-219902325 : Int) ≤ r.1.steer ∧ r.1.steer ≤ 219902325 ∧
      (r.2 = true → (r.1.steer = 219902325 ∧ r.1.i ≤ v.i) ∨ (r.1.steer = -219902325 ∧ v.i ≤ r.1.i)) ∧
      r.1.fast = v.fast ∧ r.1.lockRun = v.lockRun))

/-- The delay exchange (R50, R51): a Delay_Req leaves at ct 8 192 of an exchange turn with the next sequenceId and opens an exchange;
a good Delay_Resp for it closes it, and d joins the values held, newest first and at most 64, with DELAY_VALID; one that has not
come within 4 turns is counted and dropped. Completes: delayReqSend, delayRespReceive, exchangeTimeout.

TIME_STEP and the stretched interval (R55, R56, R58, R325): a request in range for a turn at least two ahead becomes the pending step,
STEP_PENDING set and MODE shown; a second is BUSY; a pending step that is not yet due is cancelled, one that is due is LATE; at the end
of a stretched interval one chip-level GAP of cause STEP_STRETCH is emitted. Completes: timeStepExplicit, timeStepAdopt, timeStepCancel,
stepStretchEnd.

The model's choices that this rests on: log entries 20, 29, 31, 137. -/
def Obligations.DelayExchangeAndTimeSteps : Prop :=
  (∀ (s : State) (p t3fb : Nat) (chars : List Byte) (e : Exchange) (r : List Exchange) (diff : Int), p < 2 → p < s.dev.time.ports.length →
    (exchangeTurn s.dev = true → s.dev.get (F.LNK_LANE_STATUS_STAGE (16 + p)) = 5 → s.dev.is F.TIME_CTRL_EXCH_TXTS = false →
      ∃ d, exec (.delayReqSend p t3fb) s = .next { s with dev := d } ∧ d.clk = { s.dev.clk with ct := 8192 } ∧ d.regs = s.dev.regs ∧
        (d.tport p).nextSeq = ((s.dev.tport p).nextSeq + 1) % 65536 ∧
        (∃ x, (d.tport p).exch = (s.dev.tport p).exch ++ [x] ∧ x.seq = (s.dev.tport p).nextSeq ∧ x.turn = s.dev.clk.bounds ∧
          x.t3c = ((s.dev.clk.turn * 16384 + 8192) * 2048 + t3fb : Nat) + ((s.dev.reg (R.TIME_PORT_CAL p 0)).toNat : Int) ∧
          x.diff = (s.dev.tport p).diff) ∧
        (∃ q, d.time.sent = s.dev.time.sent ++ [q] ∧ q.port = p ∧ q.domain = s.dev.get F.TIME_CTRL_DOMAIN ∧ q.chip = s.dev.chipId ∧
          q.portNumber = p + 1 ∧ q.seq = (s.dev.tport p).nextSeq ∧
          q.chars = delayReqFrame q.domain q.chip q.portNumber q.seq)) ∧
    (let n := chars.length - 4
    let m := chars.take n
    34 ≤ n → m.getD 1 0 = 0x12 → crc32c m = bytesNat (chars.drop n) → bytesNat (m.drop 4 |>.take 1) = s.dev.get F.TIME_CTRL_DOMAIN → (m.getD 0 0).toNat % 16 = 9 →
      (s.dev.tport p).exch = [e] → e.seq = bytesNat (m.drop 30 |>.take 2) → e.diff = some diff → s.dev.is (upField p) = true →
      (let t4 := roundDiv (((bytesNat (m.drop 34 |>.take 6) * 1000000000 + bytesNat (m.drop 40 |>.take 4)) * 65536 : Nat) +
        signedOf 64 (bytesNat (m.drop 8 |>.take 8))) 50
      ∃ d, exec (.delayRespReceive p chars .none) s = .next { s with dev := d } ∧ (d.tport p).exch = [] ∧
        (d.tport p).ds = (diff + (t4 - e.t3c)) :: (s.dev.tport p).ds.take 63 ∧ d.get (delayValidField p) = 1 ∧ d.clk = s.dev.clk)) ∧
    ((s.dev.tport p).exch = e :: r → e.turn + 4 ≤ s.dev.clk.bounds →
      exec (.exchangeTimeout p) s = .next (withDev s (count1 (R.TIME_COUNT (4 + p)) (s.dev.setTport p { s.dev.tport p with exch := r })))) ∧
    ((s.dev.tport p).exch = e :: r → s.dev.clk.bounds < e.turn + 4 → exec (.exchangeTimeout p) s = .next s)) ∧
  (∀ (s : State) (c : MsgCtx) (n p : Nat) (delta : Int) (x : PendingStep), n < 2 ^ 48 → p < 2 → -(2 ^ 31 * 33554432) ≤ delta → delta ≤ (2 ^ 31 - 1) * 33554432 + 32767 →
    (let we : List Word := 0 :: hiLo n ++ hiLo (ofSigned 64 delta)
    let wa : List Word := toWord (1 + p) :: hiLo n ++ [0, 0]
    (Accepted 0x0502 c we s → s.dev.turnValid = true → s.dev.clk.turn + 2 ≤ n → n ≤ s.dev.clk.turn + 32767 → s.dev.time.step = none →
      exec (.timeStepExplicit c n delta) s = .next (answer 0x0502 c 0 [] (withDev s { ((s.dev.put F.TIME_STATUS_STEP_PENDING 1).put F.TIME_STEP_STATUS_MODE 0) with
        time := { s.dev.time with step := some { mode := .explicit, n := n, delta := some delta } } }))) ∧
    (Accepted 0x0502 c wa s → s.dev.turnValid = true → s.dev.clk.turn + 2 ≤ n → n ≤ s.dev.clk.turn + 32767 → s.dev.time.step = none →
      exec (.timeStepAdopt c p n) s = .next (answer 0x0502 c 0 [] (withDev s { ((s.dev.put F.TIME_STATUS_STEP_PENDING 1).put F.TIME_STEP_STATUS_MODE (1 + p)) with
        time := { s.dev.time with step := some { mode := .adopt p, n := n, delta := none } } }))) ∧
    (Accepted 0x0502 c we s → s.dev.turnValid = true → s.dev.clk.turn + 2 ≤ n → n ≤ s.dev.clk.turn + 32767 → s.dev.time.step = some x →
      exec (.timeStepExplicit c n delta) s = .next (answer 0x0502 c 1 [] s))) ∧
    (Accepted 0x0502 c [3, 0, 0, 0, 0] s → s.dev.time.step = some x → x.due = false → s.dev.clk.ct < 16368 →
      exec (.timeStepCancel c) s = .next (answer 0x0502 c 0 [] (withDev s { (s.dev.put F.TIME_STATUS_STEP_PENDING 0) with
        time := { s.dev.time with step := none } }))) ∧
    (Accepted 0x0502 c [3, 0, 0, 0, 0] s → s.dev.time.step = some x → x.due = true → s.dev.clk.ct < 16368 → exec (.timeStepCancel c) s = .next (answer 0x0502 c 2 [] s)) ∧
    (Accepted 0x0502 c [3, 0, 0, 0, 0] s → s.dev.time.step = some x → (x.due = true ∨ x.n = (s.dev.clk.turn + 1) % 2 ^ 48) → 16368 ≤ s.dev.clk.ct →
      exec (.timeStepCancel c) s = .next (answer 0x0502 c 2 [] (withDev s (guardMark s.dev)))) ∧
    (s.dev.clk.stepped = true → s.dev.clk.stepF < 0 → s.dev.clk.stretchDone = false →
      ∃ w, exec .stepStretchEnd s = .next (withDev s { s.dev with
        clk := { s.dev.clk with ct := s.dev.clk.lastCt, stretchLost := 0, stretchDone := true }
        fifos := kset s.dev.fifos 130 (kget s.dev.fifos 130 [] ++ [{ t := { turn := s.dev.clk.turn, ct := 16383, fb := 2047 }, src := 130, words := w }]) }) ∧
      wbits (w.headD 0) 63 60 = 5 ∧ wbits (w.headD 0) 50 48 = 4) ∧
    ((s.dev.clk.stepped = false ∨ s.dev.clk.stretchDone = true) → exec .stepStretchEnd s = .next s))

/-- Blanking and the test pulser (R83, R86, R87, R132): BLANKING_END frees the comparators of its channel and touches no other; a launch
whose turn, mode and tick allow it stands at the schedule's tick, counts in TP_COUNT, injects the charge of every enabled channel and
offers TEST to every channel; a schedule that has no occurrence here launches nothing. Completes: blankingEnd, testPulseLaunch.

Comparator edges (R80, R83, R85, R97, R115, R132): in the stretched time an edge of a channel that is on is lost; an edge that no chain
resolves, or whose channel was off or blanked at its time, does nothing; what governs an edge is the configuration of its time before
SKEW. An edge not within 2 097 fb after the last of its kind goes, with SKEW, to the engines and the pairing of its unit and,
when leading, to the triggers of its channel; one within 2 097 fb goes to the pairing alone; a trailing edge that no chain resolves
makes the open pulse narrow. Completes: comparatorEdge.

The model's choices that this rests on: log entries 33, 42, 43, 132, 138. -/
def Obligations.TestPulsesAndEdges : Prop :=
  (∀ (s : State) (ch : Nat),
    (∃ d, exec (.blankingEnd ch) s = .next (withDev s d) ∧ (∀ n, d.blanked ch n = false) ∧
      (∀ n, n ≠ ch → d.afeCh n = s.dev.afeCh n) ∧ d.regs = s.dev.regs ∧ d.live = s.dev.live ∧ d.ev = s.dev.ev) ∧
    (s.dev.tpOccurs s.dev.clk.turn = false → exec .testPulseLaunch s = .next s) ∧
    (let pos := s.dev.get F.AFE_TP_POS_CT
    let inj := ((List.range 64).filter (fun n => s.dev.is (F.AFE_CH_CFG_TP_EN n) && s.dev.is (F.AFE_CH_CFG_EN n))).map (fun n =>
      (n, pulseCharge (s.dev.get (F.AFE_CH_CFG_TP_RANGE n)) ((s.dev.scanOf 3 n).getD (s.dev.get (F.AFE_CH_CFG_TP_AMP n)))))
    let t : Int := ((s.dev.clk.turn * 16384 + pos) * 2048 : Nat)
    s.dev.tpOccurs s.dev.clk.turn = true → tpMode s.dev.mode = true → s.dev.ctOccurs pos = true → s.dev.afe.tpFired = false →
      exec .testPulseLaunch s = .next (withDev s (trigEvent 4 t (offerAll { src := 4, t := t, gov := s.dev.clk.turn, noLocal := true, tdc := false, cls := none, force := false }
        (count1 (R.AFE_COUNT 0) { s.dev with
          clk := { s.dev.clk with ct := pos }
          afe := { s.dev.afe with injected := inj, tpDone := true, tpFired := true } })))))) ∧
  (∀ (s : State) (ch ct : Nat) (high trailing : Bool) (k : List Nat) (raw : Int), ch < 64 →
    (16384 ≤ ct → s.dev.comparatorOn ch s.dev.clk.turn (s.dev.clk.ctBase + ct : Nat) = true → exec (.comparatorEdge ch high trailing ct k) s =
      .next (withDev s { s.dev with clk := { s.dev.clk with stretchLost := s.dev.clk.stretchLost + 1 } })) ∧
    (16384 ≤ ct → s.dev.comparatorOn ch s.dev.clk.turn (s.dev.clk.ctBase + ct : Nat) = false →
      exec (.comparatorEdge ch high trailing ct k) s = .next s) ∧
    (let u := 2 * ch + b2n high
    ct < 16384 →
    (edgeStamp u s.dev.clk.turn ct k s.dev = none →
      (trailing = false → exec (.comparatorEdge ch high trailing ct k) s = .next s) ∧
      (trailing = true → s.dev.comparatorOn ch s.dev.clk.turn (s.dev.clk.ctBase + ct : Nat) = true → ∀ p, (s.dev.unit u).pulse = some p → p.trail = none →
        exec (.comparatorEdge ch high trailing ct k) s = .next (withDev s (setPulse u (some { p with trailLost := true }) s.dev)))) ∧
    (let turn := turnOfFb raw
    let t := raw + s.dev.skewAt turn ch
    let uncal := calState u s.dev != 2
    edgeStamp u s.dev.clk.turn ct k s.dev = some raw →
      (s.dev.comparatorOn ch turn (s.dev.periodOf raw) = false → exec (.comparatorEdge ch high trailing ct k) s = .next s) ∧
      (s.dev.comparatorOn ch turn (s.dev.periodOf raw) = true →
      ((∀ y, (s.dev.unit u).lastLead = some y → t < y ∨ y + 2097 < t) →
        (let d1 := leadEdge u turn t uncal (freqEdge u false t uncal s.dev)
        exec (.comparatorEdge ch high false ct k) s = .next (withDev s (scanEdge ch high (offerTrigger ch
          { src := b2n high, t := t, gov := turn, noLocal := false, tdc := true, cls := none, force := false } (noteEdge (b2n high) ch t turn d1)))))) ∧
      ((∃ y, (s.dev.unit u).lastLead = some y ∧ y ≤ t ∧ t ≤ y + 2097) →
        exec (.comparatorEdge ch high false ct k) s = .next (withDev s (leadEdge u turn t uncal s.dev))) ∧
      ((∀ y, (s.dev.unit u).lastTrail = some y → t < y ∨ y + 2097 < t) →
        exec (.comparatorEdge ch high true ct k) s = .next (withDev s (trailEdge u turn t uncal (freqEdge u true t uncal s.dev)))) ∧
      ((∃ y, (s.dev.unit u).lastTrail = some y ∧ y ≤ t ∧ t ≤ y + 2097) →
        exec (.comparatorEdge ch high true ct k) s = .next (withDev s (trailEdge u turn t uncal s.dev)))))))

/-- The pairing of edges (R115, R116, R117): in a unit at rest a leading edge opens a pulse where the unit pairs, and an edge within
2 097 fb of the last is merged and counted; a pulse that closes with its trailing edge more than 786 fb behind leaves as one HIT
with its TOT, a narrower one or one whose trailing edge is lost as one EDGE item and is counted NARROW; an EDGES pulse sends its
leading edge once; a pulse that nothing ends within 256 ct leaves as a HIT with TOT 4 095; a pulse of a time without items ends with
none. Completes: pulseClose, longPulseTimeout.

The model's choices that this rests on: log entries 32, 33, 34. -/
def Obligations.PulsesPair : Prop :=
  ∀ (s : State) (u turn : Nat) (t : Int) (uncal : Bool) (p : OpenPulse),
    ((s.dev.unit u).pulse = none → (∀ y, (s.dev.unit u).lastLead = some y → t < y ∨ y + 2097 < t) → (pairCfg u turn s.dev).1 = true →
      ∃ q : OpenPulse, ((leadEdge u turn t uncal s.dev).unit u) = { s.dev.unit u with lastLead := some t, pulse := some q } ∧
        q.lead = t ∧ q.shift = 0 ∧ q.trail = none ∧ q.trailLost = false ∧ q.edges = (pairCfg u turn s.dev).2.1 ∧ q.emits = s.dev.itemsAt turn) ∧
    ((s.dev.unit u).pulse = none → exec (.pulseClose u) s = .next s ∧ exec (.longPulseTimeout u) s = .next s) ∧
    ((s.dev.unit u).pulse = some p → p.edges = false → p.longDone = false →
      (∀ tr, p.trail = some tr → 786 < tr - (p.lead + p.shift) → p.emits = true →
        exec (.pulseClose u) s = .next (withDev s (stagePush u (hitItem u (totOf p tr) p.uncal (stampFb p.lead)) (setPulse u none s.dev)))) ∧
      (((∃ tr, p.trail = some tr ∧ tr - (p.lead + p.shift) ≤ 786) ∨ (p.trail = none ∧ p.trailLost = true)) → p.emits = true →
        exec (.pulseClose u) s = .next (withDev s (stagePush u (edgeItem u false true false p.uncal (stampFb p.lead)) (count1 (R.TDC_COUNT u 1) (setPulse u none s.dev))))) ∧
      (∀ tr, p.trail = some tr → 786 < tr - (p.lead + p.shift) → p.emits = false →
        exec (.pulseClose u) s = .next (withDev s (setPulse u none s.dev))) ∧
      (p.trail = none → p.trailLost = false → exec (.pulseClose u) s = .next s) ∧
      (p.trail = none → p.trailLost = false → p.emits = true →
        exec (.longPulseTimeout u) s = .next (withDev s (stagePush u (hitItem u 0xFFF p.uncal (stampFb p.lead))
          (count1 (R.TDC_COUNT u 3) (setPulse u (some { p with longDone := true }) s.dev)))))) ∧
    ((s.dev.unit u).pulse = some p → p.edges = true → p.emits = true → p.leadSent = false →
      exec (.pulseClose u) s = .next (withDev s (stagePush u (edgeItem u false false false p.uncal (stampFb p.lead)) (setPulse u (some { p with leadSent := true }) s.dev))))

/-- A dice run on chain q of a running unit (R99, R101, R104, R106): COLLECT ends with the histogram of 320 bins and the overrun
count; INTEGRATE, once its two pips are granted, forms the table; ALIGN leaves the spread and goes to CHECK; a chain that is in
another phase, out of use or powered down takes none of them; a run that fails the checks counts CAL_FAIL and goes back to
COLLECT, or with ROT_LOG2 = 0 to FAILED. Completes: diceCollectDone, diceIntegrateDone, diceAlignDone, diceCheck.

The model's choices that this rests on: log entries 8, 35, 133, 141. -/
def Obligations.DiceRuns : Prop :=
  ∀ (s : State) (u q n : Nat) (hist : List Nat) (dist : List Int) (c : Chain), (s.dev.unit u).chain q = c →
    (let put (c : Chain) (d : Dev) : Dev := d.setUnit u ((s.dev.unit u).setChain q c)
    (s.dev.outOfUse (.chain u q) = true ∨ s.dev.unitRuns u = false ∨ c.phase = .idle → exec (.diceCollectDone u q hist) s = .next s ∧
      exec (.diceIntegrateDone u q) s = .next s ∧ exec (.diceAlignDone u q dist) s = .next s ∧ exec (.diceCheck u q) s = .next s) ∧
    (s.dev.outOfUse (.chain u q) = false → s.dev.unitRuns u = true →
      (c.phase = .collect → exec (.diceCollectDone u q hist) s =
        .next (withDev s (put { c with hist := some (hist.take 320), overrun := hist.getD 320 0, phase := .integrate } s.dev))) ∧
      (c.phase = .integrate → 32 ≤ (s.dev.budAct 0 1).got → exec (.diceIntegrateDone u q) s =
        .next (withDev s (put { c with new := some (diceTable (c.hist.getD []), 0), phase := .align }
          (s.dev.setBudAct 0 1 { s.dev.budAct 0 1 with got := (s.dev.budAct 0 1).got - 32 })))) ∧
      (c.phase = .integrate → (s.dev.budAct 0 1).got < 32 → exec (.diceIntegrateDone u q) s =
        .next (withDev s (s.dev.setBudAct 0 1 { s.dev.budAct 0 1 with want := max (s.dev.budAct 0 1).want (32 - (s.dev.budAct 0 1).got) }))) ∧
      (c.phase = .align → ∃ d e, exec (.diceAlignDone u q dist) s = .next (withDev s (put e d)) ∧ e.phase = .check ∧ e.spread.1 = dist.length ∧
        e.new.map (·.1) = c.new.map (·.1) ∧ e.tbl = c.tbl ∧ e.service = c.service ∧ d.regs = s.dev.regs ∧ d.ev = s.dev.ev) ∧
      (let h := c.hist.getD []
      let limits : Prop := c.overrun = 0 ∧ maxBin h ≤ s.dev.get F.TDC_QUAL_CFG_MAX_BIN_FB * 128 ∧
        c.spread.2 ≤ (s.dev.get F.TDC_QUAL_CFG_ALIGN_RMS_FB * 64 * c.spread.1) ^ 2 ∧
        (driftApplies c s.dev = true → tableDrift h (c.tbl.getD []) ((c.new.map (·.1)).getD []) ≤ s.dev.get F.TDC_QUAL_CFG_DRIFT_LIMIT * 256)
      c.phase = .check → ∃ (d : Dev) (x : TUnit), x.chains = (s.dev.unit u).chains ∧ d.regs = s.dev.regs ∧ d.ev = s.dev.ev ∧
        (limits → exec (.diceCheck u q) s = .next (withDev s (d.setUnit u (x.setChain q { c with phase := .ready, failRun := 0, newAge := 0 })))) ∧
        (¬ limits → exec (.diceCheck u q) s = .next (withDev s (diceFail u q (d.setUnit u x)))))) ∧
    (c.failRun = 0 → n = (if s.dev.get F.TDC_CTRL_ROT_LOG2 == 0 && !(s.dev.unit u).initial then 1 else 0) →
      diceFail u q s.dev = count1 (R.TDC_COUNT u 4) (put { c with failRun := 1, new := none, phase := if n = 1 then .failed else .collect } s.dev)))

/-- Full and initial calibration (R109, R111, R112, R114): TDC_FULL_CAL is OK in CALIBRATE and TEST while none runs, and then waits for
the boundary, BUSY while one runs and DENIED in any other mode, by message and by TDC_CMD alike; INITIAL_CAL_DONE sets INIT_DONE once
no unit that runs is left in its initial calibration, and nothing before. Completes: tdcFullCal, initialCalDone.

The model's choices that this rests on: log entry 133. -/
def Obligations.Calibrations : Prop :=
  ∀ (s : State) (c : MsgCtx),
    (let st := if s.dev.mode ≠ .calibrate ∧ s.dev.mode ≠ .test then 3 else if s.dev.get F.TDC_STATUS_FULL_RUNNING = 1 then 1 else 0
    let d0 := s.dev.put F.TDC_CMD_STATUS_RESULT st
    let d := if st = 0 then { d0.put F.TDC_STATUS_FULL_RUNNING 1 with tdc := { s.dev.tdc with fullReq := true } } else d0
    exec (.tdcFullCal none) s = .next (withDev s d) ∧
    (Accepted 0x0301 c [] s → exec (.tdcFullCal (some c)) s = .next (answer 0x0301 c st [] (withDev s d)))) ∧
    ((s.dev.get F.TDC_STATUS_INIT_DONE = 1 ∨ s.dev.tdc.fullReq = true) → exec .initialCalDone s = .next s) ∧
    (s.dev.get F.TDC_STATUS_INIT_DONE = 0 → s.dev.tdc.fullReq = false → s.dev.mode ≠ .test →
      (∀ u ∈ allUnits, (s.dev.unit u).initial = true → (s.dev.unit u).off = true ∨ s.dev.healthy u = []) →
      exec .initialCalDone s = .next (withDev s (judgeCal ((s.dev.put F.TDC_STATUS_INIT_DONE 1).put F.TDC_STATUS_FULL_RUNNING 0))))

/-- Auxiliary inputs and gates (R58, R119, R120, R121, R122): in the stretched time an edge of an enabled input is lost; an edge that no chain
resolves, or of a time at which its input is off and no pulse is open, does nothing else; one on TRIG_IN that a chain resolves and that does not
merge goes to the engines and the pairing of its unit and, when leading, offers TRIG_IN to every channel; one on FREQ_IN goes to the engines; one
that merges is counted and goes to neither. GATE_IN that does not change does nothing; one that goes high opens the gate of the one engine with
an EXTERNAL gate and arms an EXT_TURN engine, one that goes low closes the gate opened as EXTERNAL. FREQ_RESULT takes the oldest closed
gate of its engine: a counting gate gives one COUNT item with the number of edges, a period gate with fewer than two edges an EMPTY one, an
interval gate counts its waiting edges as UNPAIRED; none is waiting where no gate has closed.
Completes: trigInEdge, freqInEdge, gateInEdge, freqResult.

The model's choices that this rests on: log entries 33, 41, 154. -/
def Obligations.AuxiliaryInputsAndGates : Prop :=
  ∀ (s : State) (ct e : Nat) (k : List Nat) (trailing level : Bool) (t : Int) (g : Gate) (rest : List Gate), e < 4 →
    (16384 ≤ ct → s.dev.isAt s.dev.clk.turn F.TDC_AUX_CFG_TRIG_EN = true →
      exec (.trigInEdge trailing ct k) s = .next (withDev s { s.dev with clk := { s.dev.clk with stretchLost := s.dev.clk.stretchLost + 1 } })) ∧
    (16384 ≤ ct → s.dev.isAt s.dev.clk.turn F.TDC_AUX_CFG_FREQ_EN = true →
      exec (.freqInEdge trailing ct k) s = .next (withDev s { s.dev with clk := { s.dev.clk with stretchLost := s.dev.clk.stretchLost + 1 } })) ∧
    (ct < 16384 → edgeStamp auxTrig s.dev.clk.turn ct k s.dev = none →
      exec (.trigInEdge false ct k) s = .next s ∧ exec (.trigInEdge true ct k) s = .next (withDev s (trailUnresolved auxTrig s.dev))) ∧
    (ct < 16384 → edgeStamp auxFreq s.dev.clk.turn ct k s.dev = none → exec (.freqInEdge false ct k) s = .next s) ∧
    (ct < 16384 → edgeStamp auxTrig s.dev.clk.turn ct k s.dev = some t →
      (let uncal := calState auxTrig s.dev != 2
      let turn := turnOfFb t
      (s.dev.isAt turn F.TDC_AUX_CFG_TRIG_EN = false → (s.dev.unit auxTrig).pulse = none → exec (.trigInEdge trailing ct k) s = .next s) ∧
      (s.dev.isAt turn F.TDC_AUX_CFG_TRIG_EN = true →
        ((∀ y, (s.dev.unit auxTrig).lastTrail = some y → t < y ∨ y + 2097 < t) → exec (.trigInEdge true ct k) s =
          .next (withDev s (trailEdge auxTrig turn t uncal (freqEdge auxTrig true t uncal s.dev)))) ∧
        ((∀ y, (s.dev.unit auxTrig).lastLead = some y → t < y ∨ y + 2097 < t) → exec (.trigInEdge false ct k) s =
          .next (withDev s (offerAll { src := 3, t := t, gov := turn, noLocal := false, tdc := false, cls := none, force := false }
            (leadEdge auxTrig turn t uncal (freqEdge auxTrig false t uncal s.dev))))) ∧
        ((∃ y, (s.dev.unit auxTrig).lastTrail = some y ∧ y ≤ t ∧ t ≤ y + 2097) →
          exec (.trigInEdge true ct k) s = .next (withDev s (trailEdge auxTrig turn t uncal s.dev))) ∧
        ((∃ y, (s.dev.unit auxTrig).lastLead = some y ∧ y ≤ t ∧ t ≤ y + 2097) →
          exec (.trigInEdge false ct k) s = .next (withDev s (leadEdge auxTrig turn t uncal s.dev)))))) ∧
    (ct < 16384 → edgeStamp auxFreq s.dev.clk.turn ct k s.dev = some t →
      (let uncal := calState auxFreq s.dev != 2
      let seen (d : Dev) : Dev := d.setUnit auxFreq (if trailing then { d.unit auxFreq with lastTrail := some t } else { d.unit auxFreq with lastLead := some t })
      let last := if trailing then (s.dev.unit auxFreq).lastTrail else (s.dev.unit auxFreq).lastLead
      (s.dev.isAt (turnOfFb t) F.TDC_AUX_CFG_FREQ_EN = false → (s.dev.unit auxFreq).pulse = none → exec (.freqInEdge trailing ct k) s = .next s) ∧
      (s.dev.isAt (turnOfFb t) F.TDC_AUX_CFG_FREQ_EN = true → (∀ y, last = some y → t < y ∨ y + 2097 < t) →
        ∃ d, exec (.freqInEdge trailing ct k) s = .next (withDev s (seen d)) ∧ d = freqEdge auxFreq trailing t uncal s.dev) ∧
      (s.dev.isAt (turnOfFb t) F.TDC_AUX_CFG_FREQ_EN = true → (∃ y, last = some y ∧ y ≤ t ∧ t ≤ y + 2097) →
        exec (.freqInEdge trailing ct k) s = .next (withDev s (count1 (R.TDC_COUNT auxFreq 0) (seen s.dev)))))) ∧
    (s.dev.tdc.gateIn = level → exec (.gateInEdge level) s = .next s) ∧
    (s.dev.tdc.gateIn = false → (∀ j, j < 4 → ∀ g ∈ s.dev.gatesOf j, g.closed.isSome = true) →
      (let d := { s.dev with tdc := { s.dev.tdc with gateIn := true } }
      ((∀ j, j < 4 → (s.dev.get (F.TDC_FR_GATE_GMODE j) = 1 ↔ j = e) ∧ s.dev.get (F.TDC_FR_GATE_GMODE j) ≠ 2) →
        exec (.gateInEdge true) s = .next (withDev s (openGate e (s.dev.now.fbs : Nat) d))) ∧
      ((∀ j, j < 4 → (s.dev.get (F.TDC_FR_GATE_GMODE j) = 2 ↔ j = e) ∧ s.dev.get (F.TDC_FR_GATE_GMODE j) ≠ 1) →
        exec (.gateInEdge true) s = .next (withDev s (d.setArm e (false, true)))))) ∧
    (s.dev.tdc.gateIn = true → (∀ j, j < 4 → j ≠ e → ∀ g ∈ s.dev.gatesOf j, g.closed.isSome = true) → s.dev.gatesOf e = [g] →
      g.closed = none → g.gmode = 1 → (s.dev.now.fbs : Int) ≤ g.full → exec (.gateInEdge false) s =
        .next (withDev s (closeGate e (s.dev.now.fbs : Nat) 0 false { s.dev with tdc := { s.dev.tdc with gateIn := false } }))) ∧
    ((s.dev.gatesOf e = [] ∨ (s.dev.gatesOf e = g :: rest ∧ g.closed = none ∧ (s.dev.now.fbs : Int) ≤ g.full)) → exec (.freqResult e) s = .next s) ∧
    (s.dev.gatesOf e = g :: rest → g.closed = some t → (∀ h ∈ rest, h.closed.isSome = true) →
      (g.kind = 1 → g.opened < t →
        ∃ d f, exec (.freqResult e) s = .next (withDev s (freqItem e 1 (g.flags + 32 * b2n g.uncal) g.n (stampFb t) f 0 f 0 d)) ∧
          d.gatesOf e = rest ∧ d.regs = s.dev.regs ∧ d.fifos = s.dev.fifos ∧
          ((g.n * microHzFb : Nat) : Int) / (t - g.opened) ≤ f ∧ (f : Int) ≤ ((g.n * microHzFb : Nat) : Int) / (t - g.opened) + 1) ∧
      (g.kind = 0 → g.n < 2 → exec (.freqResult e) s =
        .next (withDev s (freqItem e 0 (g.flags + 32 * b2n g.uncal + 16) g.n (stampFb t) 0 0 0 0 (s.dev.setGates e rest)))) ∧
      (g.kind = 2 → exec (.freqResult e) s = .next (withDev s (countUnpaired e (g.starts.length + g.stops.length) (s.dev.setGates e rest)))))

/-- States of a channel's ADCs and trim (R126, R127, R131, R133): WARMUP_DONE runs a channel that has written W samples and leaves any
other as it is; RECUT_COMPLETE runs a recut channel without old segments whose ring is full, or switches it off with its ADCs; a
trim keeps its estimates till its pip is granted and waits for its turn; a LEVEL_CROSSING from below to at or above THR of an armed source, or
of one that was below THR - 8 since its last crossing, offers LEVEL at its interpolated time and disarms the source; any other pair of
samples does nothing. Completes: warmupDone, recutComplete, itrimUpdate, levelCrossing.

The model's choices that this rests on: log entries 47, 133, 154. -/
def Obligations.ChannelStates : Prop :=
  ∀ (s : State) (n j : Nat) (est : List Int) (a b low : Int),
    (let c := s.dev.capCh n
    let w := (s.dev.geomAt s.dev.clk.turn).1
    (c.st = .warmup → c.validFrom + w ≤ s.dev.nowSample → exec (.warmupDone n) s = .next (withDev s (judgeRecut (s.dev.setCapCh n { c with st := .run })))) ∧
    ((c.st ≠ .warmup ∨ s.dev.nowSample < c.validFrom + w) → exec (.warmupDone n) s = .next s) ∧
    (c.st = .recut → c.segs = [] → c.adcOn = true → c.recutFrom + w ≤ s.dev.nowSample → c.validFrom + w ≤ s.dev.nowSample →
      exec (.recutComplete n) s = .next (withDev s (judgeRecut (s.dev.setCapCh n { c with st := .run })))) ∧
    (c.st = .recut → c.segs = [] → c.adcOn = false → exec (.recutComplete n) s = .next (withDev s (judgeRecut (s.dev.setCapCh n { c with st := .off })))) ∧
    ((c.st ≠ .recut ∨ c.segs ≠ []) → exec (.recutComplete n) s = .next s) ∧
    ((s.dev.cap.trimNext.2 = true ∨ trimTarget s.dev.cap.trimNext.1 s.dev ≠ some n) → exec (.itrimUpdate n est) s = .next s) ∧
    (s.dev.cap.trimNext.2 = false → trimTarget s.dev.cap.trimNext.1 s.dev = some n →
      (let own := c.est.getD est
      let d := s.dev.setCapCh n { c with est := some own }
      let x := s.dev.budAct 0 1
      (16 ≤ x.got → exec (.itrimUpdate n est) s = .next (withDev s (trimApply n own (d.setBudAct 0 1 { x with got := x.got - 16 })))) ∧
      (x.got < 16 → exec (.itrimUpdate n est) s = .next (withDev s (d.setBudAct 0 1 { x with want := max x.want (16 - x.got) }))))) ∧
    (let thr : Int := (s.dev.get (F.CAP_CH_CFG_LEVEL_THR n) * 4096 : Nat)
    ((c.adcOn = false ∨ c.st = .off ∨ 65536 ≤ j ∨ thr ≤ a ∨ b < thr ∨ (c.armed = false ∧ thr - 32768 ≤ low)) →
      exec (.levelCrossing n j (a, b) low) s = .next s) ∧
    (c.adcOn = true → c.st ≠ .off → j < 65536 → a < thr → thr ≤ b → (c.armed = true ∨ low < thr - 32768) →
      (let t : Int := (s.dev.clk.turn * 2 ^ 25 : Nat) + ((j : Int) - 1) * 512 + roundDiv ((thr - a) * 512) (b - a).toNat - ((2 ^ s.dev.get F.CAP_CFG_LEVEL_FILT - 1) * 256 : Nat)
      exec (.levelCrossing n j (a, b) low) s = .next (withDev s (offerTrigger n
        { src := 2, t := t, gov := turnOfFb t, noLocal := false, tdc := false, cls := none, force := false }
        (noteEdge 2 n t (turnOfFb t) (s.dev.setCapCh n { c with armed := false }))))))))

/-- Triggers and segments (R85, R126, R132, R134, R139, R140, R143): what offering a trigger to a channel in RUN does: a source that is not
enabled, or not accepted in the mode, of the turn that governs it, or a time at which the ADCs were off, changes nothing; a record within 8
ct takes the trigger in and counts it; with no record within 8 ct and a free segment the lowest free index is claimed WAITING with the
trigger's time and source, and counted; with none free the trigger is lost with cause 0. COPY_START copies the segment that waits longest
once its last sample is written, and abandons it with cause 1 when it is about to be overwritten. Completes: copyStart.

A copy that is done (R125, R128, R140, R142, R153): without a segment being copied nothing is stored; else the segment is READY with
the codes of its record, those of a sub-converter that is out of use replaced by the mean of their neighbours in the acquisition memory,
each word that failed parity reported and its samples poisoned, and an idle engine of its group chooses; with no such word and all
sub-converters in use the codes are those of its samples. Completes: copyDone.

The model's choices that this rests on: log entries 38, 45, 50, 132. -/
def Obligations.SegmentsAndCopies : Prop :=
  (∀ (s : State) (n i : Nat) (x : Trig) (g : Segment), 
    ((srcMode (s.dev.modeAt x.gov) x.src = false ∨ srcEnabled n x.src x.gov s.dev = false ∨ (s.dev.capCh n).powered (sampleOf (s.dev.present x.t)) = false) →
      offerTrigger n x s.dev = s.dev) ∧
    (let turn := x.gov
    let c := s.dev.capCh n
    let geom := s.dev.geomAt turn
    let pre := s.dev.getAt turn F.CAP_REC_PRE
    srcMode (s.dev.modeAt turn) x.src = true → srcEnabled n x.src turn s.dev = true → c.powered (sampleOf (s.dev.present x.t)) = true →
      c.st = .run → s.dev.se.off.contains (n / 8) = false → (∀ h ∈ c.segs, 8 * 2048 ≤ (s.dev.present x.t - s.dev.present h.t).natAbs) → c.validFrom ≤ sampleOf (s.dev.present x.t) - pre →
      ((∀ h ∈ c.segs, h.j ≠ i) → i < segCount geom.1 geom.2 → (∀ k, k < i → ∃ h ∈ c.segs, h.j = k) → x.src < 6 →
        ∃ y : Segment, y.j = i ∧ y.st = .waiting ∧ y.t = x.t ∧ y.gov = turn ∧ y.noLocal = x.noLocal ∧ y.pre = pre ∧ y.post = s.dev.getAt turn F.CAP_REC_POST ∧ y.srcs = 2 ^ x.src ∧
          offerTrigger n x s.dev = trigEvent 1 x.t (emitGaps (fun y => y.ch == some n) (count1 (R.CAP_CH_COUNT n 0) (s.dev.setCapCh n { c with segs := c.segs ++ [y] })))) ∧
      ((∀ k, k < segCount geom.1 geom.2 → ∃ h ∈ c.segs, h.j = k) → offerTrigger n x s.dev = loseTrigger (some n) 0 x.t s.dev)) ∧
    (let c := s.dev.capCh n
    srcMode (s.dev.modeAt x.gov) x.src = true → srcEnabled n x.src x.gov s.dev = true → c.powered (sampleOf (s.dev.present x.t)) = true → x.src < 6 →
      c.segs = [g] → (s.dev.present x.t - s.dev.present g.t).natAbs < 8 * 2048 →
      offerTrigger n x s.dev = count1 (R.CAP_CH_COUNT n 4) (s.dev.setCapCh n { c with segs := [mergeTrig g x] })) ∧
    (let c := s.dev.capCh n
    let ts := sampleOf (s.dev.present g.t)
    ((∃ h ∈ c.segs, h.st = .copying) ∨ (∀ h ∈ c.segs, h.st ≠ .waiting) → exec (.copyStart n) s = .next s) ∧
    ((∀ h ∈ c.segs, h.st ≠ .copying) → nextWaiting c.segs = some i → c.segs[i]? = some g →
      ((s.dev.nowSample : Int) < ts + g.post → exec (.copyStart n) s = .next s) ∧
      (ts + g.post ≤ (s.dev.nowSample : Int) → (s.dev.nowSample : Int) - (ts - g.pre) ≤ (g.w : Int) - 32 →
        exec (.copyStart n) s = .next (withDev s (s.dev.setCapCh n { c with segs := listMod c.segs i (fun g => { g with st := .copying }) }))) ∧
      (ts + g.post ≤ (s.dev.nowSample : Int) → (g.w : Int) - 32 < (s.dev.nowSample : Int) - (ts - g.pre) →
        exec (.copyStart n) s = .next (withDev s (loseTrigger (some n) 1 g.t (s.dev.setCapCh n { c with segs := c.segs.eraseIdx i }))))))) ∧
  (∀ (s : State) (n i : Nat) (hg lg : List Int) (bad : List Nat) (g : Segment),
    (let c := s.dev.capCh n
    let first := sampleOf g.t - g.pre
    let code (h : Bool) (l : List Int) (i : Int) : Nat :=
      sampleCode h n ((first + i) / 65536 % (turnMod : Int)).toNat (l.getD (if i < 0 then g.len else if i < g.len then i.toNat else g.len + 1) 0) s.dev
    let codes (h : Bool) (mask : Nat) (l : List Int) : List Nat := (List.range g.len).map (interpolated mask first (code h l))
    let interp (mask : Nat) : Bool := hasReplaced mask first g.len
    ((∀ h ∈ c.segs, h.st ≠ .copying) → exec (.copyDone n hg lg bad) s = .next (withDev s (engineChoose (n / 8) s.dev))) ∧
    (c.segs.findIdx (fun g => g.st == .copying) = i → c.segs[i]? = some g →
      (let p := segmentParity n g bad s.dev
      exec (.copyDone n hg lg bad) s = .next (withDev s (engineChoose (n / 8) (p.2.setCapCh n { c with segs := listMod c.segs i (fun g =>
        { g with st := .ready, hg := codes true (adcMask n 0 s.dev) hg, lg := codes false (adcMask n 1 s.dev) lg, bad := p.1
                 interp := interp (adcMask n 0 s.dev) || interp (adcMask n 1 s.dev), readyCt := p.2.nowCt }) }))))) ∧
    (g.bad = [] → segmentParity n g [] s.dev = ([], s.dev)) ∧
    (∀ h l, codes h 0 l = (List.range g.len).map (fun j => sampleCode h n ((first + (j : Nat)) / 65536 % (turnMod : Int)).toNat (l.getD j 0) s.dev))))

/-- Accepts, software triggers, primitives and TRIG_OUT (R132, R136, R138, R146, R148, R149, R293): an ACCEPT on a lane that is not ACTIVE
is not seen, one with a bad CRC is counted in MSG_CRC and discarded, a good one is decoded; of the held accepts the one of the earliest tick
is handled as timely; a SW_TRIGGER waits for the pip boundary in a mode that takes it, with its mask, and fires nothing in another, where the
message is DENIED; no primitive is formed in a mode without them, and a concentrator gives its own bitmap to its cluster trigger; TRIG_OUT
goes high for the first waiting event and low at its end. Completes: acceptReceive, acceptHoldRelease, swTrigger, primitiveForm,
trigOutPulseStart, trigOutPulseEnd.

The model's choices that this rests on: log entries 45, 64, 77, 130. -/
def Obligations.AcceptsAndTriggerPins : Prop :=
  ∀ (s : State) (c : MsgCtx) (p turn pip : Nat) (lo hi : Word) (body : List Word) (a b : Accept) (t : Int), p < 2 →
    (s.dev.get (F.LNK_LANE_STATUS_STAGE (4 * p)) ≠ 5 → exec (.acceptReceive p body true .none) s = .next s) ∧
    (s.dev.get (F.LNK_LANE_STATUS_STAGE (4 * p)) = 5 →
      exec (.acceptReceive p body false .none) s = .next (withDev s (count1 (R.LNK_LANE_COUNT (4 * p) 3) s.dev)) ∧
      (vl0Good body = true → vl0Kind body = 2 → exec (.acceptReceive p body true .none) s = .next (withDev s (acceptDecoded (acceptBody body s.dev) s.dev)))) ∧
    (s.dev.cap.holds = [] → exec .acceptHoldRelease s = .next s) ∧
    (s.dev.cap.holds = [a] → exec .acceptHoldRelease s = .next (withDev s (acceptTimely a { s.dev with cap := { s.dev.cap with holds := [] } }))) ∧
    (s.dev.cap.holds = [a, b] → a ≠ b →
      (s.dev.tickBefore b a = true → exec .acceptHoldRelease s = .next (withDev s (acceptTimely b { s.dev with cap := { s.dev.cap with holds := [a] } }))) ∧
      (s.dev.tickBefore b a = false → exec .acceptHoldRelease s = .next (withDev s (acceptTimely a { s.dev with cap := { s.dev.cap with holds := [b] } })))) ∧
    (srcMode s.dev.mode 5 = true → (let d := (s.dev.setReg R.CAP_SW_MASK_LO lo).setReg R.CAP_SW_MASK_HI hi
      let d := { d with cap := { s.dev.cap with swPend := true } }
      exec (.swTrigger none lo hi) s = .next (withDev s d) ∧
      (Accepted 0x0401 c [lo, hi] s → exec (.swTrigger (some c) lo hi) s = .next (answer 0x0401 c 0 [] (withDev s d))))) ∧
    (srcMode s.dev.mode 5 = false → exec (.swTrigger none lo hi) s =
      .next (withDev s ((s.dev.setReg R.CAP_SW_MASK_LO lo).setReg R.CAP_SW_MASK_HI hi))) ∧
    (srcMode s.dev.mode 5 = false → Accepted 0x0401 c [lo, hi] s → exec (.swTrigger (some c) lo hi) s = .next (answer 0x0401 c 3 [] s)) ∧
    (primForms turn s.dev = false → exec (.primitiveForm turn pip) s = .next s) ∧
    (primForms turn s.dev = true → s.dev.isConc = true → (let b := primBitmap turn pip s.dev
      exec (.primitiveForm turn pip) s = .next (withDev s { s.dev with
        cap := { s.dev.cap with maps := kset s.dev.cap.maps (tickNo turn pip) b }
        cas := { s.dev.cas with prims := kset s.dev.cas.prims (16 * tickNo turn pip + 8) b } }))) ∧
    (primForms turn s.dev = true → s.dev.isConc = false → exec (.primitiveForm turn pip) s = .next (withDev s (primLeaf turn pip s.dev))) ∧
    (s.dev.cap.trigEvents = [t] → exec .trigOutPulseStart s =
      .next (withDev s { s.dev with cap := { s.dev.cap with trigOut := true, trigLast := t, trigEvents := [] } })) ∧
    (s.dev.cap.trigEvents = [] → exec .trigOutPulseStart s = .next s) ∧
    exec .trigOutPulseEnd s = .next (withDev s { s.dev with cap := { s.dev.cap with trigOut := false } })

/-- The slice engines (R142, R152 to R155, R159, R166): SLICE_BOUNDARY stands at a multiple of 2 048 ct and every engine chooses; an engine
that runs, is out of use or finds no record that fits stays as it is; the record of a running engine is reduced, reported once for each
failed residue check and each word that failed parity, and written; an engine that waits goes on writing; a new GAIN lands once its pip is
granted, in the automatic mode alone. Completes: sliceBoundary, recordDone, seFifoRoom, gainRatioUpdate.

The model's choices that this rests on: log entries 49, 50. -/
def Obligations.SliceEngines : Prop :=
  ∀ (s : State) (k n j fails : Nat) (bad : List Nat) (g : Segment) (v : Nat),
    (exec .sliceBoundary s = .next (withDev s ((List.range 8).foldl (fun d k => engineChoose k d)
      { s.dev with clk := { s.dev.clk with ct := min 14336 ((s.dev.clk.ct + 2047) / 2048 * 2048) } }))) ∧
    (((s.dev.engine k).run.isSome = true ∨ s.dev.se.off.contains k = true ∨ (∀ m, m / 8 = k → pickSegment s.dev m = none)) →
      engineChoose k s.dev = s.dev) ∧
    (s.dev.clk.ct < 2048 → k < 8 → (s.dev.engine k).run = none → s.dev.se.off.contains k = false → s.dev.underTest (.engine k) = false → pickSegment s.dev (8 * k) = some g →
      ∃ d, engineChoose k s.dev = d ∧ d.clk = s.dev.clk ∧
        (d.capCh (8 * k)).segs = (s.dev.capCh (8 * k)).segs.map (fun h => if h.j == g.j then { h with st := .reading } else h) ∧
        nbits (d.get F.SE_STATUS_BUSY) k k = 1 ∧ d.live = s.dev.live) ∧
    ((s.dev.engine k).run = none → exec (.recordDone k (fails, bad)) s = .next s ∧ exec (.seFifoRoom k) s = .next s) ∧
    ((s.dev.engine k).run = some (n, j) → (s.dev.engine k).items = [] → exec (.seFifoRoom k) s = .next s) ∧
    ((s.dev.engine k).run = some (n, j) → (s.dev.engine k).items = [] → (s.dev.capCh n).segs.find? (fun g => g.j == j) = some g →
      (let put (poison : Bool) (d : Dev) : Dev := engineWrite k n j (reduceRecord n g poison d).1 (reduceRecord n g poison d).2
      (g.bad = [] → exec (.recordDone k (0, [])) s = .next (withDev s (put false s.dev))) ∧
      (let d := report (0x120 + k) 0x0B 7 0x07 0 (some (.engine k)) (report (0x120 + k) 0x0B 7 0x07 0 (some (.engine k)) s.dev)
      g.bad = [] → exec (.recordDone k (fails + 2, [])) s = .next (withDev s (put true d))) ∧
      (let p := segmentParity n g bad s.dev
      exec (.recordDone k (0, bad)) s = .next (withDev s (engineWrite k n j (reduceRecord n { g with bad := p.1 } false p.2).1
        (reduceRecord n { g with bad := p.1 } false p.2).2))))) ∧
    ((s.dev.engine k).run = some (n, j) → (s.dev.engine k).items ≠ [] → exec (.seFifoRoom k) s = .next (withDev s (engineWrite k n j (s.dev.engine k).items s.dev))) ∧
    ((s.dev.gainSums n).next = none ∨ s.dev.is (F.SE_CH_GAIN_GR_MODE n) = true → exec (.gainRatioUpdate n) s = .next s) ∧
    ((s.dev.gainSums n).next = some v → s.dev.is (F.SE_CH_GAIN_GR_MODE n) = false → v < 2 ^ 17 → 16 ≤ (s.dev.budAct 0 1).got →
      ∃ d, exec (.gainRatioUpdate n) s = .next (withDev s d) ∧ d.get (F.SE_GAIN_STATUS_GAIN n) = v ∧ d.get (F.SE_GAIN_STATUS_GR_STATE n) = 1 ∧
        (d.gainSums n).next = none ∧ d.live = s.dev.live ∧ d.shadow = s.dev.shadow)

/-- The collector (R171, R173, R174, R184, R197, R198): with no group under way and no frame to close, the entry with the smallest key
stays while it waits, and otherwise leaves its FIFO, with the ct it was stalled counted and an overflow noted in the own frame (R262), and goes where its fate says; the next item of a
group that has started follows it; a LOST entry leaves the table of losses; the drain starts at ct 15 360; FRAME_TAIL_EMIT waits for a
started group and otherwise closes the frame whose turn is over, once. An item whose time lies in a turn without a frame is dropped.
Completes: collectorEmit, collectorDrainStart, frameTailEmit.

The model's choices that this rests on: log entries 37, 38, 53, 54, 61. -/
def Obligations.CollectorEmitsInKeyOrder : Prop :=
  ∀ (s : State) (i j src stall : Nat) (ov : Bool) (e : Entry) (fate : ItemFate) (h : Option (Nat × List Word64)),
    -- the ct of the stall counted, and an overflow of the compressor's input FIFO noted in an own frame that is to be recoded
    (let stalled (d : Dev) : Dev := if stall = 0 then d else count (R.COL_COUNT 4) stall d
    let note (d : Dev) : Dev := if ov then { stalled d with col := { (stalled d).col with
        build := (stalled d).col.build.map (fun b => { b with overflow := b.overflow || (b.own && b.recode) }) } } else stalled d
    (s.dev.col.group = none → s.dev.col.closing = none →
      (smallest ((examined s.dev).filter (fun x => !awaitsOwnFrame x.2 s.dev)) = some (some i, e) →
        (entryFate e s.dev = none → exec (.collectorEmit ⟨0, stall, ov⟩) s = .next s) ∧
        (entryFate e s.dev = some fate → 129 ≤ e.src ∨ e.err = 0 → exec (.collectorEmit ⟨0, stall, ov⟩) s = .next (withDev s (deliver fate e (note { s.dev with
          fifos := kset s.dev.fifos e.src ((kget s.dev.fifos e.src []).eraseIdx i)
          col := { s.dev.col with group := if e.more then some (e.src, i, fate) else none } }))))) ∧
      (smallest ((examined s.dev).filter (fun x => !awaitsOwnFrame x.2 s.dev)) = some (none, e) → entryFate e s.dev = some fate →
        exec (.collectorEmit ⟨0, stall, ov⟩) s = .next (withDev s (deliver fate e (note { s.dev with lost := kdel s.dev.lost e.src })))) ∧
      ((examined s.dev).filter (fun x => !awaitsOwnFrame x.2 s.dev) = [] → exec (.collectorEmit ⟨0, stall, ov⟩) s = .next s)) ∧
    (s.dev.col.group = some (src, i, fate) → nextCont ((kget s.dev.fifos src []).drop i) i = some (j, e) → 129 ≤ e.src ∨ e.err = 0 →
      exec (.collectorEmit ⟨0, stall, ov⟩) s = .next (withDev s (deliver fate e (note { s.dev with
        fifos := kset s.dev.fifos src ((kget s.dev.fifos src []).eraseIdx j)
        col := { s.dev.col with group := if e.more then some (src, j, fate) else none } }))))) ∧
    (s.dev.framed e.t.turn = false → e.t.turn ≤ s.dev.clk.turn → entryFate e s.dev = some .noFrame ∧ deliver .noFrame e s.dev = s.dev) ∧
    (s.dev.col.build = none → s.dev.cap.gaps = [] → exec .collectorDrainStart s = .next (withDev s { s.dev with clk := { s.dev.clk with ct := max s.dev.clk.ct 15360 } })) ∧
    (s.dev.col.build.isSome = true → s.dev.cap.gaps = [] → ∃ d, exec .collectorDrainStart s = .next (withDev s d) ∧ d.get F.COL_STATUS_DRAINING = 1 ∧ d.clk.ct = max s.dev.clk.ct 15360) ∧
    ((s.dev.col.group.isSome = true ∨ s.dev.col.closing = none) → exec .frameTailEmit s = .next s) ∧
    (s.dev.col.group = none → s.dev.col.closing = some h →
      exec .frameTailEmit s = .next (withDev s (openFrame h (closeFrame { s.dev with col := { s.dev.col with closing := none } }))))

/-- Primitives, summaries and accepts on the way (R213 to R219, R293): a PRIMITIVE on a port that is not ATTACHED is ignored, one that is
too late is counted, a timely one joins the bitmap of its tick; a SUMMARY is received and dropped, for nothing uses one that comes from
below; a leaf evaluates no rules; a concentrator does, with CT_EN: each rule that fires is counted and the lowest decides the ACCEPT that
falls due, and none without it; a SUMMARY of its tick leaves while the port has credit; a decided ACCEPT is counted, sent on every port and
decoded; an array ACCEPT on the ACTIVE port that was relayed within 64 ticks is dropped, a fresh one is decoded and relayed on every port; a
delayed one leaves once its port sends no other. Completes: primitiveReceive, summaryReceive, clusterEvaluate, clusterAcceptSend,
arrayAcceptReceive, acceptDelayedSend.

The model's choices that this rests on: log entries 64, 66, 67. -/
def Obligations.PrimitivesAndAccepts : Prop :=
  ∀ (s : State) (j p turn pip map rules i : Nat) (body : List Word) (a : DueAccept) (r : List DueAccept) (m : Nat × List Word) (l : List Nat), j < 8 → p < 2 →
    (s.dev.get (F.LNK_LANE_STATUS_STAGE (8 + j)) = 5 → vl0Good body = true →
      (vl0Kind body = 4 → exec (.summaryReceive j body true .none) s = .next s) ∧
      (vl0Kind body = 1 → s.dev.portState j ≠ 3 → exec (.primitiveReceive j body true .none) s = .next s) ∧
      (let turn := extendTurn s.dev.clk.turn (bits (wordAt body 0) 27 13)
      let tick := tickNo turn (bits (wordAt body 0) 12 3)
      let due := s.dev.periodOf ((tick * 32768 : Nat) : Int) + (s.dev.getAt turn F.CAS_TRIG_CFG_D_CT : Nat) - 32
      vl0Kind body = 1 → s.dev.portState j = 3 →
        (due < (s.dev.nowCt : Int) → exec (.primitiveReceive j body true .none) s = .next (withDev s (raiseOnce E.CAS_PRIM_LATE [] (count1 (R.CAS_PORT_COUNT j 6) s.dev)))) ∧
        ((s.dev.nowCt : Int) ≤ due → ∃ d, exec (.primitiveReceive j body true .none) s = .next (withDev s d) ∧
          kget d.cas.prims (16 * tick + s.dev.pairSlot j) 0 =
            kget s.dev.cas.prims (16 * tick + s.dev.pairSlot j) 0 ||| ((wordAt body 1).toNat * 2 ^ 32 + (wordAt body 2).toNat) ∧
          d.regs = s.dev.regs ∧ d.live = s.dev.live ∧ d.ev = s.dev.ev))) ∧
    ((s.dev.isConc = false ∨ primMode (s.dev.modeAt turn) = false) → exec (.clusterEvaluate turn pip) s = .next s) ∧
    (s.dev.isConc = true → primMode (s.dev.modeAt turn) = true → s.dev.getAt turn F.CAS_CFG_UP_PRIM = 0 →
      (let p := tickNo turn pip
      let map := clusterMap turn p s.dev
      let d1 := { s.dev with cas := { s.dev.cas with
        maps := kset (s.dev.cas.maps.filter (fun x => p < x.1 + 8)) p map
        prims := s.dev.cas.prims.filter (fun x => p < x.1 / 16), coarse := s.dev.cas.coarse.filter (fun t => p < t + 8) } }
      let res := (List.range 4).map (fun r => ruleStep turn p r d1)
      let fired := (List.range 4).filter (fun r => (res.getD r (false, 0, false)).1)
      let supp := (res.filter (fun x => x.2.2)).length
      let d2 := fired.foldl (fun d r => count1 (R.CAS_COUNT (6 + r)) d) { d1 with cas := { d1.cas with hold := res.map (fun x => x.2.1) } }
      let d3 := if supp = 0 then d2 else count (R.CAS_COUNT 2) supp d2
      (s.dev.isAt turn F.CAS_TRIG_CFG_CT_EN = false → exec (.clusterEvaluate turn pip) s = .next (withDev s d1)) ∧
      (s.dev.isAt turn F.CAS_TRIG_CFG_CT_EN = true → fired = [] → exec (.clusterEvaluate turn pip) s = .next (withDev s d3)) ∧
      (s.dev.isAt turn F.CAS_TRIG_CFG_CT_EN = true → fired = i :: l → exec (.clusterEvaluate turn pip) s = .next (withDev s { d3 with cas := { d3.cas with
        due := d3.cas.due ++ [{ turn := turn, pip := pip, cls := d3.getAt turn (F.CAS_RULE_CLASS i), coarse := ruleCoarse turn p i d3 }] } })))) ∧
    (s.dev.cas.held.span = 0 → s.dev.getAt turn F.CAS_TRIG_CFG_UP_MULT ≤ popcount map 576 → 16 ≤ s.dev.bucketFill s.dev.primPort →
      (let b := s.dev.primPort
      let slots := ((List.range 9).filter (fun s => nbits map (64 * s + 63) (64 * s) != 0)).foldl (fun a s => a + 2 ^ s) 0
      let d := (s.dev.setBucket b (s.dev.bucketFill b)).setBucket b (s.dev.bucketFill b - 16)
      s.dev.cas.held.slots = 0 → s.dev.cas.held.mult = 0 → s.dev.cas.held.rules = 0 → s.dev.get (F.LNK_LANE_STATUS_STAGE (4 * b)) = 5 →
        summaryForm turn pip map rules s.dev = count1 (R.CAS_COUNT 5) { d with
          cas := { d.cas with held := {} }
          outShort := d.outShort ++ [{ port := b, body :=
            [pack32 [(31, 29, 4), (28, 28, 0), (27, 13, turn % 32768), (12, 3, pip), (2, 0, 0)], pack32 [(31, 23, slots), (22, 13, popcount map 576), (12, 9, rules)], 0] }] })) ∧
    (s.dev.get (F.LNK_LANE_STATUS_STAGE (4 * p)) = 5 → vl0Good body = true → vl0Kind body = 3 → s.dev.isConc = true →
      (let key := bits (wordAt body 0) 24 0 + bits (wordAt body 0) 28 26 * 2 ^ 25
      let tick := s.dev.nowCt / 16
      let recent := s.dev.cas.relayed.filter (fun x => tick ≤ x.1 + 64)
      (s.dev.upState p ≠ 1 → exec (.arrayAcceptReceive p body true .none) s = .next s) ∧
      (s.dev.upState p = 1 → (∃ x ∈ recent, x.2 = key) →
        exec (.arrayAcceptReceive p body true .none) s = .next (withDev s { s.dev with cas := { s.dev.cas with relayed := recent } })) ∧
      (s.dev.upState p = 1 → (∀ x ∈ recent, x.2 ≠ key) → s.dev.mode ≠ .boot → s.dev.mode ≠ .test → s.dev.mode ≠ .dormant →
        (∀ a, s.dev.cas.due.head? = some a → (s.dev.nowCt : Int) < a.leaves s.dev) →
        (let d := acceptDecoded (acceptBody body s.dev) { s.dev with cas := { s.dev.cas with relayed := recent ++ [(tick, key)] } }
        exec (.arrayAcceptReceive p body true .none) s =
          .next (withDev s ((List.range 8).foldl (fun d j => sendDown false body j d) (count1 (R.CAS_COUNT 1) d))))))) ∧
    (s.dev.cas.due = [] → exec .clusterAcceptSend s = .next s) ∧
    (s.dev.cas.due = a :: r → exec .clusterAcceptSend s = .next (withDev s (acceptDecoded { array := false, cls := a.cls, turn := a.turn, pip := a.pip }
      ((List.range 8).foldl (fun d j => sendDown true (acceptWords 2 a.cls a.coarse a.turn a.pip s.dev.chipId) j d)
        (count1 (R.CAS_COUNT 0) { s.dev with cas := { s.dev.cas with due := r } }))))) ∧
    (a.leaves s.dev ≤ (s.dev.nowCt : Int) → s.dev.cas.due = [a] → dueAccepts 1 s.dev = clusterAcceptSend s.dev) ∧
    (s.dev.cas.delayed = [m] → m.1 = j →
      ((∀ x ∈ s.dev.outShort, x.port ≠ 2 + j) → exec (.acceptDelayedSend j) s = .next (withDev s { s.dev with
        outShort := s.dev.outShort ++ [{ port := 2 + j, body := m.2 }]
        cas := { s.dev.cas with delayed := [] } })) ∧
      ((∃ x ∈ s.dev.outShort, x.port = 2 + j) → exec (.acceptDelayedSend j) s = .next s))

/-- Frames from below (R209, R210, R212, R262): a TURN_HEAD that passes its checks lets the frame go on, one that fails, or a first item that
is none, discards it with its counter, and a frame without its three words waits; a whole frame is spliced as it is, or goes behind the
others into its recoding pipe where that is chosen and its checks hold; the oldest in the pipe comes out recoded, or raw after an overflow,
and is spliced, unless its turn has closed or its chip has been spliced meanwhile; the own closed frame is spliced into the OPEN queue of
its turn, and given up where that is gone. Completes: frameHeadReceive, frameTailReceive, recodeDone, ownFrameSplice.

A frame leaves (R231, R236, R239, R240, R246): a port that sends, or that has nothing to send, starts nothing; the lowest turn that waits
goes out first: a first send makes its queue SENT and INFLIGHT through that port, a replay leaves with REPLAY set, a refused turn leaves as
its stub; when the last word has left, the queue is no longer INFLIGHT, unless the other port sends it, and its wait for TURN_ACK begins;
of a stub nothing is left to do. Completes: frameSendStart, frameSendDone.

The model's choices that this rests on: log entries 52, 53, 62, 65, 68, 84, 149, 150. -/
def Obligations.FramesFromBelowAndOut : Prop :=
  (∀ (s : State) (j i : Nat) (ov : Bool) (r : RxFrame) (pipe : List RxFrame) (items : List (List Word64)) (o : OwnFrame) (rest : List OwnFrame), j < 8 →
    (let gone := s.dev.setCasPort j { s.dev.casPort j with rx := none }
    ((s.dev.casPort j).rx = none → exec (.frameHeadReceive j) s = .next s ∧ exec (.frameTailReceive j) s = .next s) ∧
    ((s.dev.casPort j).rx = some r → r.stage = .head →
      (r.words.length < 3 → exec (.frameHeadReceive j) s = .next s ∧ exec (.frameTailReceive j) s = .next s) ∧
      (3 ≤ r.words.length → wbits (r.words.headD 0) 63 60 ≠ 0xC →
        exec (.frameHeadReceive j) s = .next (withDev s (count1 (R.CAS_PORT_COUNT j 4) (dropPages (r.pages ++ r.pages2) gone)))) ∧
      (3 ≤ r.words.length → wbits (r.words.headD 0) 63 60 = 0xC →
        (headFails j (r.words.headD 0) (r.words.getD 1 0) s.dev = none →
          exec (.frameHeadReceive j) s = .next (withDev s (s.dev.setCasPort j { s.dev.casPort j with rx := some { r with stage := .body } }))) ∧
        (headFails j (r.words.headD 0) (r.words.getD 1 0) s.dev = some i →
          (let d := count1 (R.CAS_PORT_COUNT j i) (dropPages (r.pages ++ r.pages2) gone)
          exec (.frameHeadReceive j) s = .next (withDev s (if i = 3 then raiseOnce E.CAS_LATE_FRAME [] d else d)))))) ∧
    ((s.dev.casPort j).rx = some r → r.stage = .body → wholeFrame r.words = none → exec (.frameTailReceive j) s = .next s) ∧
    ((s.dev.casPort j).rx = some r → r.stage = .body → wholeFrame r.words = some items →
      ((r.recode = false ∨ frameGood items = false ∨ itemType (items.getD 1 []) = 0xA) →
        exec (.frameTailReceive j) s = .next (withDev s (spliceRx j (items.flatMap id) (!frameGood items) false r.pages (dropPages r.pages2 gone)))) ∧
      (r.recode = true → frameGood items = true → itemType (items.getD 1 []) ≠ 0xA →
        exec (.frameTailReceive j) s = .next (withDev s (gone.setCasPort j { gone.casPort j with
          pipe := (gone.casPort j).pipe ++ [{ r with done := items.flatMap id }] })))) ∧
    ((s.dev.casPort j).pipe = [] → exec (.recodeDone j ov) s = .next s) ∧
    ((s.dev.casPort j).pipe = r :: pipe →
      (let d := s.dev.setCasPort j { s.dev.casPort j with pipe := pipe }
      (closedOrDuplicate (r.done.headD 0) (r.done.getD 1 0) d = some i → exec (.recodeDone j ov) s = .next (withDev s
        (let e := count1 (R.CAS_PORT_COUNT j i) (dropPages r.pages (dropPages r.pages2 d))
        if i = 3 then raiseOnce E.CAS_LATE_FRAME [] e else e))) ∧
      (closedOrDuplicate (r.done.headD 0) (r.done.getD 1 0) d = none →
        exec (.recodeDone j true) s = .next (withDev s (spliceRx j r.done false false r.pages
          (raiseOnce E.CMP_NO_RECODE [] (count1 (R.CMP_COUNT 4) (dropPages r.pages2 d))))) ∧
        (let x := recodeChoice false r.short r.done r.pages r.pages2 d
        exec (.recodeDone j false) s = .next (withDev s (spliceRx j x.1.1 false x.1.2.1 x.1.2.2 x.2)))))) ∧
    (s.dev.col.ownDone = [] → exec .ownFrameSplice s = .next s) ∧
    (s.dev.col.ownDone = o :: rest →
      (let d := { s.dev with col := { s.dev.col with ownDone := rest } }
      (d.queueOpen o.turn = false → exec .ownFrameSplice s = .next (withDev s (dropPages (o.pages ++ o.pages2) d))) ∧
      (d.queueOpen o.turn = true → o.recode = false →
        exec .ownFrameSplice s = .next (withDev s (spliceSub 255 d.chipId o.turn o.words false false o.pages d))) ∧
      (d.queueOpen o.turn = true → o.recode = true → o.overflow = true → exec .ownFrameSplice s = .next (withDev s
        (let e := raiseOnce E.CMP_NO_RECODE [] (count1 (R.CMP_COUNT 4) (dropPages o.pages2 d))
        spliceSub 255 e.chipId o.turn o.words false false o.pages e))) ∧
      (let x := recodeChoice false o.short o.words o.pages o.pages2 d
      d.queueOpen o.turn = true → o.recode = true → o.overflow = false →
        exec .ownFrameSplice s = .next (withDev s (spliceSub 255 x.2.chipId o.turn x.1.1 false x.1.2.1 x.1.2.2 x.2))))))) ∧
  (∀ (s : State) (p t : Nat) (x : TQueue) (job : SendJob), p < 2 →
    (((s.dev.upPort p).job.isSome = true ∨ nextSend p s.dev = none) → exec (.frameSendStart p) s = .next s) ∧
    ((s.dev.upPort p).job = none → nextSend p s.dev = some (t, .first) → s.dev.holding t = some x →
      (let f := frameToSend x false s.dev
      exec (.frameSendStart p) s = .next (withDev s (startJob p t .first f.1.1 (count1 (R.TQ_COUNT (sendCounter 0 f.1.2)) (f.2.putDesc (qIndex t)
        { f.1.2 with st := .sent, sentOnce := true, viaUB := p == 1, inflight := true, lastSend := some f.2.clk.bounds })))))) ∧
    ((s.dev.upPort p).job = none → nextSend p s.dev = some (t, .replay) → s.dev.holding t = some x → x.st = .sent →
      (let f := frameToSend x true (s.dev.setUpPort p { s.dev.upPort p with replay := (s.dev.upPort p).replay.filter (· != t) })
      exec (.frameSendStart p) s = .next (withDev s (startJob p t .replay f.1.1 (count1 (R.TQ_COUNT (sendCounter 1 f.1.2)) (f.2.putDesc (qIndex t)
        { f.1.2 with inflight := true, viaUB := p == 1 })))))) ∧
    (s.dev.ram.faulty = [] → x.bad = [] → frameToSend x false s.dev = ((x.words, x), s.dev) ∧ frameToSend x true s.dev = ((asReplay x.words, x), s.dev) ∧
      ∀ i, sendCounter i x = i) ∧
    ((s.dev.upPort p).job = none → nextSend p s.dev = some (t, .stub) →
      exec (.frameSendStart p) s = .next (withDev s (startJob p t .stub (stubFrame t false s.dev) { s.dev with tq := { s.dev.tq with refusals := dropRefusal t s.dev.tq.refusals } }))) ∧
    ((s.dev.upPort p).job = none → exec (.frameSendDone p) s = .next s) ∧
    ((s.dev.upPort p).job = some job → job.left ≠ [] → exec (.frameSendDone p) s = .next s) ∧
    ((s.dev.upPort p).job = some job → job.left = [] →
      (let d := s.dev.setUpPort p { s.dev.upPort p with job := none }
      ((job.kind = .stub ∨ job.kind = .gone ∨ s.dev.holding job.turn = none) → exec (.frameSendDone p) s = .next (withDev s d)) ∧
      (job.kind ≠ .stub → job.kind ≠ .gone → s.dev.holding job.turn = some x →
        exec (.frameSendDone p) s = .next (withDev s (d.putDesc (qIndex job.turn)
          { x with inflight := s.dev.sendsFrame (1 - p) job.turn, lastSend := some s.dev.clk.bounds }))))))

/-- Acknowledgements, verdicts and give-ups (R226 to R230, R243, R293): a link control body on a lane index 0 that is ACTIVE acts on each turn
it covers; TURN_ACK of a SENT turn releases it, of any other is counted; ACCEPT and REJECT record the verdict of a turn that waits for one,
else they are counted; GIVE_UP is a trigger on its port; without TURN_ACK for ACK_WAIT turns a SENT turn is released and counted, and
a closed turn without verdict takes the default action at VERDICT_LIMIT; pages are reclaimed below 256 free; four turns without
credit are a trigger too. A released turn is FREE, or HELD while RETAIN or the mark keeps it, and no port replays it.
Completes: turnAckReceive, verdictAcceptReceive, verdictRejectReceive, giveUpReceive, ackTimeout, verdictTimeout, reclaim, creditTimeout.

Marks, rewinds and forced give-ups (R225, R234, R238, R239, R243, R267), by message and by registers alike: SET_MARK within 32 767 turns
waits for the boundary and is BAD_ARG beyond, CLEAR always waits; a REWIND of closed turns is queued, BAD_ARG outside its range, BUSY
behind four others, and a COUNT of 0 stands for 32 768; the next rewound turn leaves once its pips are granted and nothing else waits on
the port, and is INFLIGHT through it; one that is not held leaves as a GONE stub; FORCE 1 gives up UA, 2 UB, 0 nothing.
Completes: markSet, markClear, rewind, rewindSend, giveUp.

The model's choices that this rests on: log entries 20, 69, 70, 84, 149, 150. -/
def Obligations.QueueStates : Prop :=
  (∀ (s : State) (p t since : Nat) (body : List Word) (x : TQueue), p < 2 → body.length = 2 → s.dev.get (F.LNK_LANE_STATUS_STAGE (4 * p)) = 5 →
    (let b : Word64 := BitVec.ofNat 64 ((wordAt body 0).toNat * 2 ^ 32 + (wordAt body 1).toNat)
    (wbits b 63 60 = 1 → exec (.turnAckReceive p body true .none) s = .next (withDev s ((bodyTurns b).foldl (fun d t => ackTurn t d) s.dev))) ∧
    (wbits b 63 60 = 2 → exec (.verdictAcceptReceive p body true .none) s = .next (withDev s ((bodyTurns b).foldl (fun d t => verdictTurn 1 t d) s.dev))) ∧
    (wbits b 63 60 = 3 → exec (.verdictRejectReceive p body true .none) s = .next (withDev s ((bodyTurns b).foldl (fun d t => verdictTurn 2 t d) s.dev))) ∧
    (wbits b 63 60 = 4 → exec (.giveUpReceive p body true .none) s = .next (withDev s (portGiveUp p s.dev))) ∧
    (wbits b 63 60 = 0 → exec (.turnAckReceive p body true .none) s = .next s) ∧
    exec (.turnAckReceive p body false .none) s = .next (withDev s (count1 (R.LNK_LANE_COUNT (4 * p) 3) s.dev))) ∧
    (s.dev.holding t = some x → x.st = .sent → x.turn = t →
      ackTurn t s.dev = releaseSent (qIndex t) x { s.dev with tq := { s.dev.tq with newestAck := some (max (s.dev.tq.newestAck.getD t) t) } } ∧
      (x.lastSend = some since → x.inflight = false →
        (since + s.dev.get F.TQ_CFG_ACK_WAIT ≤ s.dev.clk.bounds →
          exec (.ackTimeout t) s = .next (withDev s (releaseSent (qIndex t) x (count1 (R.TQ_COUNT 4) s.dev)))) ∧
        (s.dev.clk.bounds < since + s.dev.get F.TQ_CFG_ACK_WAIT → exec (.ackTimeout t) s = .next s))) ∧
    (x.turn = t → (∀ u ∈ (releaseSent (qIndex t) x s.dev).tq.up, t ∉ u.replay) ∧
      ((s.dev.is F.TQ_CFG_RETAIN = true ∨ s.dev.pinned t = true) → (releaseSent (qIndex t) x s.dev).queue (qIndex t) = some { x with st := .held }) ∧
      (s.dev.is F.TQ_CFG_RETAIN = false → s.dev.pinned t = false → (releaseSent (qIndex t) x s.dev).queue (qIndex t) = none)) ∧
    (s.dev.holding t = none → ackTurn t s.dev = count1 (R.TQ_COUNT 5) s.dev ∧ (∀ v, verdictTurn v t s.dev = count1 (R.TQ_COUNT 6) s.dev) ∧
      exec (.ackTimeout t) s = .next s ∧ exec (.verdictTimeout t) s = .next s) ∧
    (s.dev.holding t = some x → s.dev.verdictPolicy = true → x.st = .closed → x.verdict = 0 →
      verdictTurn 1 t s.dev = s.dev.putDesc (qIndex t) { x with verdict := 1 } ∧
      (s.dev.pinned x.turn = false → verdictTurn 2 t s.dev = freeQueue (qIndex t) s.dev) ∧
      (s.dev.clk.bounds < x.closedAt + s.dev.get F.TQ_LIMITS_VERDICT_LIMIT → exec (.verdictTimeout t) s = .next s) ∧
      (x.closedAt + s.dev.get F.TQ_LIMITS_VERDICT_LIMIT ≤ s.dev.clk.bounds → s.dev.is F.TQ_CFG_VERDICT_DEFAULT = true →
        exec (.verdictTimeout t) s = .next (withDev s ((raiseOnce E.TQ_DEFAULT_ACTION [] (count1 (R.TQ_COUNT 8) s.dev)).putDesc (qIndex t) { x with verdict := 1 })))) ∧
    (256 ≤ s.dev.freePages → exec .reclaim s = .next s) ∧
    (s.dev.freePages < 256 → exec .reclaim s = .next (withDev s (reclaimFrom s.dev.candidates s.dev).1)) ∧
    ((s.dev.upPort p).waitTurns < 4 → exec (.creditTimeout p) s = .next s) ∧
    (4 ≤ (s.dev.upPort p).waitTurns → exec (.creditTimeout p) s = .next (withDev s (portGiveUp p s.dev)))) ∧
  (∀ (s : State) (c : MsgCtx) (n k f p : Nat) (r : RewindReq) (rest : List RewindReq) (x : TQueue), n < 2 ^ 48 → f < 4 → p < 2 → k < 65536 →
    (let near := s.dev.clk.turn ≤ n + 32767 ∧ n ≤ s.dev.clk.turn + 32767
    (near → Accepted 0x0602 c (1 :: hiLo n) s → exec (.markSet (some c) n) s =
      .next (answer 0x0602 c 0 [] (withDev s { s.dev.put F.TQ_MARK_STATUS_RESULT 0 with tq := { s.dev.tq with markNext := some (some n) } }))) ∧
    (¬ near → Accepted 0x0602 c (1 :: hiLo n) s → exec (.markSet (some c) n) s = .next (answer 0x0602 c 5 [] (withDev s (s.dev.put F.TQ_MARK_STATUS_RESULT 5)))) ∧
    ∃ d, exec (.markSet none n) s = .next (withDev s d) ∧ d.clk = s.dev.clk ∧
      (near → d.tq = { s.dev.tq with markNext := some (some n) } ∧ d.get F.TQ_MARK_STATUS_RESULT = 0) ∧
      (¬ near → d.tq = s.dev.tq ∧ d.get F.TQ_MARK_STATUS_RESULT = 5)) ∧
    exec (.markClear none) s = .next (withDev s { s.dev.put F.TQ_MARK_STATUS_RESULT 0 with tq := { s.dev.tq with markNext := some none } }) ∧
    (Accepted 0x0602 c [2, 0, 0] s → exec (.markClear (some c)) s =
      .next (answer 0x0602 c 0 [] (withDev s { s.dev.put F.TQ_MARK_STATUS_RESULT 0 with tq := { s.dev.tq with markNext := some none } }))) ∧
    (let turns := if k = 0 then 32768 else k
    let ok := turns ≤ 32768 ∧ s.dev.clk.turn ≤ n + 32767 ∧ ∃ m, s.dev.tq.newestClosed = some m ∧ n + turns ≤ m + 1
    (Accepted 0x0603 c (hiLo n ++ [toWord k]) s →
      (ok → s.dev.tq.rewinds.length < 4 → exec (.rewind (some c) n k) s = .next (answer 0x0603 c 0 [] (withDev s
        { s.dev.put F.TQ_REWIND_STATUS_RESULT 0 with tq := { s.dev.tq with rewinds := s.dev.tq.rewinds ++ [{ next := n, left := turns }] } }))) ∧
      (ok → 4 ≤ s.dev.tq.rewinds.length → exec (.rewind (some c) n k) s = .next (answer 0x0603 c 1 [] (withDev s (s.dev.put F.TQ_REWIND_STATUS_RESULT 1)))) ∧
      (¬ ok → exec (.rewind (some c) n k) s = .next (answer 0x0603 c 5 [] (withDev s (s.dev.put F.TQ_REWIND_STATUS_RESULT 5))))) ∧
    ∃ d, exec (.rewind none n k) s = .next (withDev s d) ∧ d.clk = s.dev.clk ∧
      (ok → s.dev.tq.rewinds.length < 4 →
        d.tq = { s.dev.tq with rewinds := s.dev.tq.rewinds ++ [{ next := n, left := turns }] } ∧ d.get F.TQ_REWIND_STATUS_RESULT = 0) ∧
      (ok → 4 ≤ s.dev.tq.rewinds.length → d.tq = s.dev.tq ∧ d.get F.TQ_REWIND_STATUS_RESULT = 1) ∧
      (¬ ok → d.tq = s.dev.tq ∧ d.get F.TQ_REWIND_STATUS_RESULT = 5)) ∧
    (s.dev.tq.rewinds = [] → exec .rewindSend s = .next s) ∧
    (s.dev.tq.rewinds = r :: rest → s.dev.carriesTurn 0 r.next = false → s.dev.carriesTurn 1 r.next = false → exec .rewindSend s = .next s) ∧
    (s.dev.tq.rewinds = r :: rest → s.dev.carriesTurn 0 r.next = true → ((s.dev.upPort 0).job.isSome = true ∨ (nextSend 0 s.dev).isSome = true) →
      exec .rewindSend s = .next s) ∧
    (s.dev.tq.rewinds = r :: rest → s.dev.carriesTurn 0 r.next = true → (s.dev.upPort 0).job = none → nextSend 0 s.dev = none →
      s.dev.holding r.next = none → r.left = 1 →
      exec .rewindSend s = .next (withDev s (startJob 0 r.next .gone (stubFrame r.next true s.dev) (count1 (R.TQ_COUNT 3)
        { s.dev.put F.TQ_REWIND_STATUS_CURRENT r.next with tq := { s.dev.tq with rewinds := rest } })))) ∧
    (s.dev.tq.rewinds = r :: rest → s.dev.carriesTurn 0 r.next = true → (s.dev.upPort 0).job = none → nextSend 0 s.dev = none →
      s.dev.holding r.next = some x → x.st ≠ .open_ →
      (let a := if s.dev.reservoir then 0 else 1
      let cost := 16 * rewindPips (8 * x.words.length) s.dev
      ((s.dev.budAct a 5).got < cost → exec .rewindSend s = .next (withDev s (s.dev.setBudAct a 5 { s.dev.budAct a 5 with
        want := max (s.dev.budAct a 5).want (cost - (s.dev.budAct a 5).got) }))) ∧
      (cost ≤ (s.dev.budAct a 5).got → s.dev.ram.faulty = [] → x.bad = [] → 0 < s.dev.tq.up.length →
        ∃ (d : Dev) (j : SendJob), exec .rewindSend s = .next (withDev s d) ∧ (d.upPort 0).job = some j ∧ j.turn = r.next ∧ j.kind = .rewind ∧
          j.verify = s.dev.is F.CMP_CFG_RW_VERIFY ∧
          j.left = (if s.dev.is F.CMP_CFG_RW_VERIFY then (verifyFrame s.dev.jobCap (asReplay x.words)).1 else asReplay x.words) ∧
          d.tq.rewinds = (if r.left ≤ 1 then rest else { next := turnAdd r.next 1, left := r.left - 1 } :: rest) ∧
          d.queue (qIndex r.next) = some { x with inflight := true, sentOnce := true, viaUB := false }))) ∧
    exec (.giveUp none f) s = .next (withDev s (forceGiveUp f s.dev)) ∧
    (Accepted 0x0605 c [toWord f] s → exec (.giveUp (some c) f) s = .next (answer 0x0605 c 0 [] (withDev s (forceGiveUp f s.dev)))) ∧
    ((s.dev.upState p = 1 ∨ s.dev.upState p = 2) → (s.dev.upPort p).gaveUp = none → p < s.dev.tq.up.length →
      (forceGiveUp (1 + p) s.dev).upPort p = { s.dev.upPort p with hit := true, gaveUp := some s.dev.clk.bounds }) ∧
    forceGiveUp 0 s.dev = s.dev)

/-- Decompression jobs (R264 to R266), by DECOMPRESS and by JOB_CMD, where t is the machine once the JOB registers are written: JOB_START
from IDLE clears the three progress counts and runs, and is BUSY in any other state; JOB_RESUME of a stopped job starts its output anew and
runs, past the failing block with SKIP, of a running one is BUSY; JOB_ABORT stops a running job with ABORTED and returns a stopped one to
IDLE. The message is DENIED where it names a secure address and UNSUPPORTED where it needs an SDRAM that does not work (R7).
Completes: jobStart, jobResume, jobAbort.

A block of a job (R264 to R266): none is read while no job runs; what a RESUME with SKIP left is passed over first; a job whose input is
used up is DONE and IDLE; a read that fails stops the job with its result; a block that fails its checks stops it with FORMAT, EXPANSION or
SPACE; one that decodes into the space left, its pages open to the decompressor, is stored behind the output so far and counted, or kept
with CRC_FAIL; each of them waits until the budget grants the words read and written. Completes: jobBlockDone.

The model's choices that this rests on: log entries 90, 151. -/
def Obligations.Decompression : Prop :=
  (∀ (s : State) (c : MsgCtx) (w : List Word) (skip : Bool) (src dst : Nat),
    ((putRegs (forRegs jobRegs w) s).dev.absentKey R.CMP_JOB_CMD = false →
    (let t := putRegs (forRegs jobRegs w) s
    let d := t.dev
    (d.jobState = 0 → ∃ e, exec (.jobStart none w) s = .next (withDev t e) ∧ e.jobState = 1 ∧ e.get F.CMP_JOB_STATUS_RESULT = 0 ∧ e.get F.CMP_JOB_STATUS_CMD_RESULT = 0 ∧
      e.reg R.CMP_JOB_IN_DONE = 0 ∧ e.reg R.CMP_JOB_OUT_DONE = 0 ∧ e.reg R.CMP_JOB_BLOCKS = 0 ∧ e.live = d.live ∧ e.ev = d.ev) ∧
    (d.jobState ≠ 0 → exec (.jobStart none w) s = .next (withDev t (d.put F.CMP_JOB_STATUS_CMD_RESULT 1))) ∧
    (d.jobState = 1 → exec (.jobResume none w skip) s = .next (withDev t (d.put F.CMP_JOB_STATUS_CMD_RESULT 1))) ∧
    (d.jobState = 0 → exec (.jobResume none w skip) s = .next (withDev t (d.put F.CMP_JOB_STATUS_CMD_RESULT 0))) ∧
    (d.jobState = 2 → exec (.jobResume none w skip) s = .next (withDev t
      ((({ d with tq := { d.tq with skip := skip } }.setReg R.CMP_JOB_OUT_DONE 0).put F.CMP_JOB_STATUS_CMD_RESULT 0).put F.CMP_JOB_STATUS_STATE 1))) ∧
    (d.jobState = 1 → exec (.jobAbort none w) s = .next (withDev t (jobStop 6 (d.put F.CMP_JOB_STATUS_CMD_RESULT 0)))) ∧
    (d.jobState = 2 → exec (.jobAbort none w) s =
      .next (withDev t (((d.put F.CMP_JOB_STATUS_CMD_RESULT 0).put F.CMP_JOB_STATUS_RESULT 6).put F.CMP_JOB_STATUS_STATE 0))) ∧
    (d.jobState = 0 → exec (.jobAbort none w) s = .next (withDev t (d.put F.CMP_JOB_STATUS_CMD_RESULT 0))))) ∧
    (let d := s.dev
    let secure := d.rangeSecure src (wordAt w 2).toNat false = true ∨ d.rangeSecure dst (wordAt w 5).toNat true = true
    let missing := d.sdramMissing src (wordAt w 2).toNat = true ∨ d.sdramMissing dst (wordAt w 5).toNat = true
    w.length = 7 → src = bits (wordAt w 0) 7 0 * 2 ^ 32 + (wordAt w 1).toNat / 8 * 8 → dst = bits (wordAt w 3) 7 0 * 2 ^ 32 + (wordAt w 4).toNat / 8 * 8 →
      (∀ k ∈ [1, 2 + 4 * b2n skip, 3], Accepted 0x0606 c (jobPayload w k) s) →
      (secure → exec (.jobStart (some c) w) s = .next (answer 0x0606 c 3 [] s) ∧ exec (.jobResume (some c) w skip) s = .next (answer 0x0606 c 3 [] s) ∧
        exec (.jobAbort (some c) w) s = .next (answer 0x0606 c 3 [] s)) ∧
      (¬ secure → missing → exec (.jobStart (some c) w) s = .next (answer 0x0606 c 4 [] s) ∧
        exec (.jobResume (some c) w skip) s = .next (answer 0x0606 c 4 [] s) ∧ exec (.jobAbort (some c) w) s = .next (answer 0x0606 c 4 [] s)) ∧
      (¬ secure → ¬ missing →
        (d.jobState = 0 → ∃ e, exec (.jobStart (some c) w) s = .next (answer 0x0606 c 0 [] (withDev s e)) ∧ e.jobState = 1 ∧ e.jobIn = src ∧ e.jobOut = dst ∧
          e.jobLen = (wordAt w 2).toNat / 8 * 8 ∧ e.jobSpace = (wordAt w 5).toNat / 8 * 8 ∧ e.jobInDone = 0 ∧ e.jobOutDone = 0 ∧ e.live = d.live ∧ e.ev = d.ev) ∧
        (d.jobState ≠ 0 → exec (.jobStart (some c) w) s = .next (answer 0x0606 c 1 [] (withDev s (d.put F.CMP_JOB_STATUS_CMD_RESULT 1)))) ∧
        (d.jobState = 2 → ∃ e, exec (.jobResume (some c) w skip) s = .next (answer 0x0606 c 0 [] (withDev s e)) ∧ e.jobState = 1 ∧ e.jobIn = src ∧ e.jobOut = dst ∧
          e.jobInDone = d.jobInDone ∧ e.jobOutDone = 0 ∧ e.tq = { d.tq with skip := skip } ∧ e.live = d.live ∧ e.ev = d.ev) ∧
        (d.jobState = 1 → exec (.jobResume (some c) w skip) s = .next (answer 0x0606 c 1 [] (withDev s (d.put F.CMP_JOB_STATUS_CMD_RESULT 1)))) ∧
        (d.jobState = 1 → exec (.jobAbort (some c) w) s = .next (answer 0x0606 c 0 [] (withDev s (jobStop 6 (d.put F.CMP_JOB_STATUS_CMD_RESULT 0))))) ∧
        (d.jobState = 2 → exec (.jobAbort (some c) w) s = .next (answer 0x0606 c 0 [] (withDev s
          (((d.put F.CMP_JOB_STATUS_CMD_RESULT 0).put F.CMP_JOB_STATUS_RESULT 6).put F.CMP_JOB_STATUS_STATE 0)))) ∧
        (d.jobState = 0 → exec (.jobAbort (some c) w) s = .next (answer 0x0606 c 0 [] (withDev s (d.put F.CMP_JOB_STATUS_CMD_RESULT 0))) ∧
          exec (.jobResume (some c) w skip) s = .next (answer 0x0606 c 0 [] (withDev s (d.put F.CMP_JOB_STATUS_CMD_RESULT 0))))))) ∧
  (∀ (s : State) (corr unc : List Nat) (x next raw : Nat) (full : Bool) (fail : Option BlockFail) (d d1 d2 : Dev) (items out : List (List Word64)),
    (s.dev.jobState ≠ 1 → exec (.jobBlockDone corr unc) s = .next s) ∧
    (let src := s.dev.jobIn + s.dev.jobInDone
    let stop := s.dev.jobIn + s.dev.jobLen
    let fuel := s.dev.jobLen / 8 + 1
    let reads := jobNeeds src (next - src) 0 0 s.dev
    s.dev.jobState = 1 →
      (s.dev.tq.skip = true → passBlock s.mem stop fuel src false s.dev = next →
        (takeAll 4 reads s.dev = (false, d1) → exec (.jobBlockDone corr unc) s = .next (withDev s d1)) ∧
        (takeAll 4 reads s.dev = (true, d1) → exec (.jobBlockDone corr unc) s = .next (jobBlock corr unc (withDev s (count1 (R.CMP_COUNT 7)
          ({ d1 with tq := { d1.tq with skip := false } }.setReg R.CMP_JOB_IN_DONE (toWord (next - d1.jobIn)))))))) ∧
      (s.dev.tq.skip = false →
        (s.dev.jobLen ≤ s.dev.jobInDone → exec (.jobBlockDone corr unc) s = .next (withDev s (jobStop 0 s.dev))) ∧
        (readBlock s.mem corr unc stop fuel src [] s.dev = (.end_ next, d) →
          (takeAll 4 reads s.dev = (false, d1) → exec (.jobBlockDone corr unc) s = .next (withDev s d1)) ∧
          (takeAll 4 reads s.dev = (true, d1) → exec (.jobBlockDone corr unc) s = .next (withDev s (jobStop 0 { d with bud := d1.bud })))) ∧
        (readBlock s.mem corr unc stop fuel src [] s.dev = (.stop x next, d) →
          (takeAll 4 reads s.dev = (false, d1) → exec (.jobBlockDone corr unc) s = .next (withDev s d1)) ∧
          (takeAll 4 reads s.dev = (true, d1) → exec (.jobBlockDone corr unc) s = .next (withDev s (jobStop x { d with bud := d1.bud })))) ∧
        (readBlock s.mem corr unc stop fuel src [] s.dev = (.block items next, d) → decodeBlock d.jobCap (d.jobSpace - d.jobOutDone) (blockBytes items) = (out, raw, full, fail) →
          (let bytes := if full = true ∨ (fail ≠ none ∧ fail ≠ some .crcFail) then [] else storedBytes out
          let dst := d.jobOut + d.jobOutDone
          let e := { d with bud := d1.bud }
          let pages := (List.range ((dst + bytes.length - 1) / 4096 - dst / 4096 + 1)).map (fun i => max dst ((dst / 4096 + i) * 4096))
          (takeAll 4 (jobNeeds src (next - src) dst bytes.length s.dev) s.dev = (false, d1) → exec (.jobBlockDone corr unc) s = .next (withDev s d1)) ∧
          (takeAll 4 (jobNeeds src (next - src) dst bytes.length s.dev) s.dev = (true, d1) →
            ((blockFraming items = false ∨ fail = some .format) → exec (.jobBlockDone corr unc) s = .next (withDev s (jobStop 4 e))) ∧
            (blockFraming items = true → fail = some .expansion → exec (.jobBlockDone corr unc) s = .next (withDev s (jobStop 2 e))) ∧
            (blockFraming items = true → fail = none → full = true → exec (.jobBlockDone corr unc) s = .next (withDev s (jobStop 1 e))) ∧
            (blockFraming items = true → (fail = none ∨ fail = some .crcFail) → full = false →
              (pages.foldl (fun (acc : Bool × Dev) a => if acc.1 then jobAccess a true acc.2 else acc) (true, e) = (false, d2) →
                exec (.jobBlockDone corr unc) s = .next (withDev s (jobStop 7 d2))) ∧
              (pages.foldl (fun (acc : Bool × Dev) a => if acc.1 then jobAccess a true acc.2 else acc) (true, e) = (true, d2) →
                (let t := writePages (bytes.length + 1) dst bytes (withDev s d2)
                let e := t.dev
                let e3 := ((e.setReg R.CMP_JOB_IN_DONE (toWord (next - e.jobIn))).setReg R.CMP_JOB_OUT_DONE (toWord (e.jobOutDone + raw))).setReg
                  R.CMP_JOB_BLOCKS (e.reg R.CMP_JOB_BLOCKS + 1)
                (fail = some .crcFail → exec (.jobBlockDone corr unc) s = .next (withDev t (jobStop 3 e))) ∧
                (fail = none → stop ≤ next → exec (.jobBlockDone corr unc) s = .next (withDev t (jobStop 0 e3))) ∧
                (fail = none → next < stop → exec (.jobBlockDone corr unc) s = .next (withDev t e3)))))))))))

/-- Bring-up of a lane (R274 to R281, R296): each command acts in its own stage and leaves a lane in any other stage, or under a loopback
test, as it is: two good probes lead from DETECT to TRAIN; training that had its characters and calm windows leads to LOCK with the
adaptation words; symbol lock sets both lock bits, and with it LOCK ends in EXCHANGE; a timeout is a failed attempt; a retry wakes an idle
lane; a link at the lowest rate fails; a FAILED lane restarts cold. Completes: laneDetectProbe, laneTrainDone, laneTrainTimeout, symbolLock,
laneLockDone, laneLockTimeout, laneRetry, linkFail, laneFailedRestart, exchangeFailTick.

An ACTIVE lane (R278, R282, R284, R287, R295): lost lock is counted, reported and retrained; a training sequence retrains; LP_DEEP is
entered from LOCK, EXCHANGE and ACTIVE and left through a retrain whose TS carry LP_EXIT; a capability set with a character error is only
counted, one whose CRC fails is ignored, one in EXCHANGE may end it, and one in ACTIVE with another LANES, RATE or PORT asks for a retrain.
In any other stage none of them changes anything. A retrain leads to TRAIN and takes the port down. Completes: lockLoss, tsReceiveActive,
lpDeepEntryReceive, lpDeepWake, capabilityReceive.

The model's choices that this rests on: log entries 72, 74, 75, 77, 133, 146, 152, 155. -/
def Obligations.Lanes : Prop :=
  (∀ (s : State) (l chars calm : Nat) (found : Bool) (adapt : List Nat), l < 18 →
    (let d := s.dev
    let st := d.stage l
    let need := if (d.lane l).warm then 2 ^ 14 else 2 ^ 17
    ((st ≠ 1 ∨ d.is (F.LNK_LANE_STATUS_PRBS_BUSY l) = true) → exec (.laneDetectProbe l found) s = .next s) ∧
    ((st ≠ 2 ∨ (d.lane l).idle = true ∨ d.is (F.LNK_LANE_STATUS_PRBS_BUSY l) = true) →
      exec (.laneTrainDone l ⟨adapt, chars, calm⟩) s = .next s ∧ exec (.laneTrainTimeout l) s = .next s) ∧
    ((chars < need ∨ calm < 4) → exec (.laneTrainDone l ⟨adapt, chars, calm⟩) s = .next s) ∧
    ((st ≠ 3 ∨ d.is (F.LNK_LANE_STATUS_PRBS_BUSY l) = true) →
      exec (.symbolLock l) s = .next s ∧ exec (.laneLockDone l) s = .next s ∧ exec (.laneLockTimeout l) s = .next s) ∧
    ((st ≠ 2 ∨ (d.lane l).idle = false ∨ d.is (F.LNK_LANE_STATUS_PRBS_BUSY l) = true) → exec (.laneRetry l) s = .next s) ∧
    (d.is (F.LNK_LANE_STATUS_PRBS_BUSY l) = false →
      (st = 1 → exec (.laneDetectProbe l false) s = .next (withDev s ((d.put (F.LNK_LANE_STATUS_RX_DETECTED l) 0).setLane l { d.lane l with probe := false }))) ∧
      (st = 1 → (d.lane l).probe = false → exec (.laneDetectProbe l true) s = .next (withDev s (d.setLane l { d.lane l with probe := true }))) ∧
      (st = 1 → (d.lane l).probe = true → exec (.laneDetectProbe l true) s = .next (withDev s (goStage l 2 (d.put (F.LNK_LANE_STATUS_RX_DETECTED l) 1)))) ∧
      (st = 2 → (d.lane l).idle = false → need ≤ chars → 4 ≤ calm → exec (.laneTrainDone l ⟨adapt, chars, calm⟩) s = .next (withDev s
        (goStage l 3 ((d.setReg (R.LNK_LANE_ADAPT l) (adaptWord adapt)).put (F.LNK_LANE_STATUS_FROZEN l) 0)))) ∧
      (st = 2 → (d.lane l).idle = false → exec (.laneTrainTimeout l) s = .next (withDev s (failedAttempt l d))) ∧
      (st = 3 → exec (.symbolLock l) s = .next (withDev s ((d.put (F.LNK_LANE_STATUS_BIT_LOCK l) 1).put (F.LNK_LANE_STATUS_SYM_LOCK l) 1)) ∧
        exec (.laneLockTimeout l) s = .next (withDev s (failedAttempt l d)) ∧
        (d.is (F.LNK_LANE_STATUS_SYM_LOCK l) = false → exec (.laneLockDone l) s = .next s) ∧
        (d.is (F.LNK_LANE_STATUS_SYM_LOCK l) = true → l < d.lnk.lanes.length → ∃ e, exec (.laneLockDone l) s = .next (withDev s e) ∧ e.stage l = 4 ∧ (e.lane l).caps = none ∧
          e.ev = d.ev ∧ e.live = d.live)) ∧
      (st = 2 → (d.lane l).idle = true → l < d.lnk.lanes.length → ∃ e, exec (.laneRetry l) s = .next (withDev s e) ∧ e.stage l = 2 ∧ (e.lane l).idle = false ∧
        e.ev = d.ev ∧ e.live = d.live)) ∧
    (st ≠ 7 → exec (.laneFailedRestart l) s = .next s) ∧
    (st = 7 → exec (.laneFailedRestart l) s = .next (withDev s (coldStart (portOf l) d))) ∧
    (st = 4 → exec (.exchangeFailTick l) s = .next (withDev s (count1 (R.LNK_LANE_COUNT l 8) d))) ∧
    (st ≠ 4 → exec (.exchangeFailTick l) s = .next s) ∧
    ((isTiming (portOf l) = true ∨ (d.port (portOf l)).rate ≠ 0 ∨ (st ≠ 2 ∧ st ≠ 3)) → exec (.linkFail l) s = .next s) ∧
    (isTiming (portOf l) = false → (d.port (portOf l)).rate = 0 → (st = 2 ∨ st = 3) →
      exec (.linkFail l) s = .next (withDev s (raise E.LNK_LINK_FAIL [] (report (0x100 + l) 0x0E 0 0 0 (some (.lane l))
        ((lanesOf (portOf l)).foldl (fun d m => if d.stage m == 0 || d.stage m == 6 then d else goStage m 7 d) d))))))) ∧
  (∀ (s : State) (l : Nat) (bytes : List Byte) (err : CharErr), l < 18 →
    (let d := s.dev
    let p := portOf l
    (d.stage l ≠ 5 → exec (.lockLoss l) s = .next s ∧ exec (.tsReceiveActive l) s = .next s) ∧
    (d.stage l = 5 →
      exec (.lockLoss l) s = .next (withDev s (laneRetrain l (report (0x100 + l) 0x0F 0 0 0 (some (.lane l)) (count1 (R.LNK_LANE_COUNT l 4) d)))) ∧
      exec (.tsReceiveActive l) s = .next (withDev s (laneRetrain l d)) ∧
      (l < d.lnk.lanes.length → (laneRetrain l d).stage l = 2 ∧ ((laneRetrain l d).lane l).warm = true ∧ (laneRetrain l d).get (F.LNK_PORT_STATUS_ACTIVE p) = 0)) ∧
    ((isTiming p = true ∨ d.stage l < 3 ∨ 5 < d.stage l) → exec (.lpDeepEntryReceive l) s = .next s) ∧
    (isTiming p = false → 3 ≤ d.stage l → d.stage l ≤ 5 → exec (.lpDeepEntryReceive l) s = .next (withDev s (goStage l 6 d))) ∧
    (d.stage l = 6 → exec (.lpDeepWake l) s = .next (withDev s ((laneRetrain l d).setLane l { (laneRetrain l d).lane l with lpExit := true }))) ∧
    (d.stage l ≠ 6 → exec (.lpDeepWake l) s = .next s) ∧
    (err ≠ .none → exec (.capabilityReceive l bytes err) s = .next (withDev s (countCharErr l err d))) ∧
    ((d.stage l ≠ 4 ∧ d.stage l ≠ 5) ∨ isTiming p = true ∨ bytes.length ≠ 14 ∨ crc16 (bytes.take 12) ≠ bytesNat (bytes.drop 12) →
      exec (.capabilityReceive l bytes .none) s = .next s) ∧
    (isTiming p = false → bytes.length = 14 → crc16 (bytes.take 12) = bytesNat (bytes.drop 12) →
      (d.stage l = 4 → (d.lane l).caps = none →
        exec (.capabilityReceive l bytes .none) s = .next (withDev s (tryExchange p (d.setLane l { d.lane l with caps := some { bytes := bytes, n := 1 } })))) ∧
      (d.stage l = 5 → d.is (F.LNK_PORT_STATUS_ACTIVE p) = true → capMoved p bytes d = true → p < d.lnk.ports.length →
        ∃ e, exec (.capabilityReceive l bytes .none) s = .next (withDev s e) ∧ (e.port p).retrain = true ∧ e.regs = d.regs ∧ e.live = d.live))))

/-- Blocks and credits (R271, R281, R283, R288 to R295): on a lane that is not ACTIVE no block arrives; a block whose CRC fails is counted for its
lane, an empty one counts and brings its credit, and one of VL_1 in SEQ order joins the message under way, which is whole with MARK. A free
lane sends TS in TRAIN and LOCK, capability sets in EXCHANGE, entry sets as it enters LP_DEEP, and nothing in the other stages or under
a loopback test; in ACTIVE a short message first, then a link control body, a capability set that is due, a block whose VL has credit, and
IDLE where nothing waits, or where the last idle set would lie too far back; a credit block carries the credit of its VL; no block is
declared lost before 256 ct. Completes: blockReceive, blockSend, creditReturn, blockLostTimeout.

Link commands and loopback (R2, R280, R287, R296), by LINK_CMD and LNK_CMD alike: on a port or lane that the variant does not bond they
are UNSUPPORTED; LINK_RETRAIN is OK on a port at rest, BUSY while a retrain runs or waits; LINK_RESTART waits for the boundary; PRBS_START
is BAD_ARG beyond 2^12 units, DENIED on an ACTIVE lane, BUSY during a test, else the test runs; a test that ends stores its result, its
errors and its length and raises PRBS_DONE; PRBS_STOP without a test is OK and changes nothing else.
Completes: linkRetrain, linkRestart, prbsStart, prbsStop, prbsDone.

The model's choices that this rests on: log entries 71, 73, 76, 77, 80, 146, 152, 155. -/
def Obligations.BlocksAndLinkCommands : Prop :=
  (∀ (s : State) (l p vl fb : Nat) (hdr : Word) (payload : List Word64) (m : OutShort) (b : Nat × Word64) (job : SendJob), l < 18 → p < 12 → fb < 2048 →
    (let d := s.dev
    let q := portOf l
    let x := d.lane l
    (d.stage l ≠ 5 → exec (.blockReceive l hdr payload true .none false) s = .next s) ∧
    (d.stage l = 5 → isTiming q = false →
      exec (.blockReceive l hdr payload false .none false) s = .next (withDev s (noteBlockCrc l d)) ∧
      (bits hdr 18 13 = 0 → payload = [] → exec (.blockReceive l hdr payload true .none false) s = .next (withDev s
        (creditIn q (bit hdr 12) (bits hdr 9 0) (count1 (R.LNK_PORT_COUNT q 1) d)))) ∧
      (let v := (d.port q).vl1
      bits hdr 31 30 = 1 → bits hdr 18 13 = payload.length → payload ≠ [] → payload.length ≤ 32 → bits hdr 28 19 = v.rxNext → v.early = [] → v.skip = false →
        q < d.lnk.ports.length →
        ∃ e, exec (.blockReceive l hdr payload true .none false) s = .next (withDev s e) ∧ (e.port q).vl1.rxNext = (v.rxNext + 1) % 1024 ∧
          (e.port q).vl1.retired = v.retired + 1 ∧
          (bit hdr 29 = true → (e.port q).msgs = (d.port q).msgs ++ [splitWords ((d.port q).rxMsg ++ payload)] ∧ (e.port q).rxMsg = []) ∧
          (bit hdr 29 = false → (e.port q).msgs = (d.port q).msgs ∧ (e.port q).rxMsg = (d.port q).rxMsg ++ payload))) ∧
    ((d.is (F.LNK_LANE_STATUS_PRBS_BUSY l) = true ∨ d.stage l < 2 ∨ d.stage l = 7 ∨ (d.stage l = 2 ∧ x.idle = true) ∨ (d.stage l = 6 ∧ x.lpOut = 0)) →
      exec (.blockSend l fb) s = .next s) ∧
    (d.is (F.LNK_LANE_STATUS_PRBS_BUSY l) = false →
      (d.stage l = 2 → x.idle = false → exec (.blockSend l fb) s = .next (withDev s (emitFilled l 12
        (.training (if isTiming q then 3 else (d.port q).rate) (2 * b2n x.warm + 4 * b2n x.lpExit)) d))) ∧
      (d.stage l = 3 → exec (.blockSend l fb) s = .next (withDev s (emitFilled l 12
        (.training (if isTiming q then 3 else (d.port q).rate) (d.get (F.LNK_LANE_STATUS_SYM_LOCK l) + 2 * b2n x.warm + 4 * b2n x.lpExit)) d))) ∧
      (d.stage l = 4 → (isTiming q = false ∨ x.capOut ≠ 0) → exec (.blockSend l fb) s = .next (withDev s
        (emitUnit l (.capability (capBytes q (laneIdx l) d)) (d.setLane l { x with capOut := x.capOut - 1 })))) ∧
      (d.stage l = 4 → isTiming q = true → x.capOut = 0 → exec (.blockSend l fb) s = .next (withDev s (emitFilled l 15 .idle d))) ∧
      (d.stage l = 6 → 0 < x.lpOut → exec (.blockSend l fb) s = .next (withDev s (emitFilled l 14 .lpEntry (d.setLane l { x with lpOut := x.lpOut - 1 })))) ∧
      (d.stage l = 5 → exec (.blockSend l fb) s = .next (withDev s
        (if idleInTime x.sinceIdle (activeUnit l fb d).lnk.sent.2 = true then activeUnit l fb d else emitFilled l 15 .idle d)))) ∧
    ((isTiming q = true ∨ d.runWidth q ≤ laneIdx l ∨ d.is (F.LNK_PORT_STATUS_ACTIVE q) = false) → x.capOut = 0 → activeUnit l fb d = emitFilled l 15 .idle d) ∧
    (isTiming q = false → laneIdx l < d.runWidth q → d.is (F.LNK_PORT_STATUS_ACTIVE q) = true →
      (laneIdx l = 0 → d.outShort.find? (fun x => x.port == q) = some m →
        activeUnit l fb d = count1 (R.LNK_PORT_COUNT q 7) (emitUnit l (.short m.body) { d with outShort := d.outShort.erase m })) ∧
      ((laneIdx l ≠ 0 ∨ d.outShort = []) → d.outCtl.find? (fun c => c.1 == q) = some b →
        activeUnit l fb d = emitUnit l (.control b.2) { d with outCtl := d.outCtl.erase b }) ∧
      ((laneIdx l ≠ 0 ∨ d.outShort = []) → d.outCtl = [] → 0 < x.capOut →
        activeUnit l fb d = emitUnit l (.capability (capBytes q (laneIdx l) d)) (d.setLane l { x with capOut := x.capOut - 1 })) ∧
      ((laneIdx l ≠ 0 ∨ d.outShort = []) → d.outCtl = [] → x.capOut = 0 →
        ((d.port q).txMsg = none → nextMsg q d = none →
          (vl2Waits q d = false → activeUnit l fb d = emitFilled l 15 .idle d) ∧
          (vl2Waits q d = true → maySend (d.port q).vl2 = false → activeUnit l fb d = emitFilled l 15 .idle (d.setPort q { d.port q with waited := true })) ∧
          (vl2Waits q d = true → maySend (d.port q).vl2 = true → (d.port q).abort = false → (d.upPort q).job = some job →
            activeUnit l fb d = sendBlock l true job.fresh false (job.left.take 32)
              (d.setUpPort q { d.upPort q with job := some { job with left := job.left.drop 32, fresh := false } }))) ∧
        (((d.port q).txMsg.isSome = true ∨ (nextMsg q d).isSome = true) → maySend (d.port q).vl1 = true → (vl2Waits q d = false ∨ maySend (d.port q).vl2 = true) →
          (vl2Waits q d = false ∨ 3 ≤ (d.port q).sinceVl1) → activeUnit l fb d = sendVl1 l fb d))) ∧
    (isTiming p = true ∨ d.is (F.LNK_PORT_STATUS_ACTIVE p) = false → exec (.creditReturn p vl) s = .next s) ∧
    (isTiming p = false → d.is (F.LNK_PORT_STATUS_ACTIVE p) = true → exec (.creditReturn p vl) s = .next (withDev s (count1 (R.LNK_PORT_COUNT p 0)
      (emitUnit (laneOf p 0) (.block (pack32 [(31, 30, 1), (12, 12, b2n (vl == 2)), (9, 0, creditOut p (vl == 2) d)]) [] false) d)))) ∧
    ((∀ x ∈ ((d.port p).vl (vl == 2)).early, d.nowCt < x.at_ + 256) → exec (.blockLostTimeout p vl) s = .next s) ∧
    (p < d.lnk.ports.length → (∃ x, ((d.port p).vl (vl == 2)).early = [x] ∧ x.at_ + 256 ≤ d.nowCt ∧ x.seq = (((d.port p).vl (vl == 2)).rxNext + 1) % 1024) → vl = 1 →
      ∃ e, exec (.blockLostTimeout p vl) s = .next (withDev s e) ∧ ((e.port p).vl false).early = [] ∧
        ((e.port p).vl false).rxNext = (((d.port p).vl false).rxNext + 2) % 1024 ∧ ((e.port p).vl false).retired = ((d.port p).vl false).retired + 2))) ∧
  (∀ (s : State) (c : MsgCtx) (p l len errors : Nat), p < 16 → l < 32 → len < 16 →
    (let d := s.dev
    let w1 := pack32 [(19, 16, p), (2, 0, 1)]
    let w2 := pack32 [(19, 16, p), (2, 0, 2)]
    let w3 := pack32 [(27, 24, len), (12, 8, l), (2, 0, 3)]
    let w4 := pack32 [(12, 8, l), (2, 0, 4)]
    let gives (i : Option MsgCtx → Instr) (w : Word) (st : Nat) (e : Dev) : Prop :=
      exec (i none) s = .next (withDev s (e.put F.LNK_CMD_STATUS_RESULT st)) ∧
      (Accepted 0x0701 c [w] s → exec (i (some c)) s = .next (answer 0x0701 c st [] (withDev s (e.put F.LNK_CMD_STATUS_RESULT st))))
    (portLanes p = 0 → gives (.linkRetrain · p) w1 4 d ∧ gives (.linkRestart · p) w2 4 d) ∧
    (portLanes p ≠ 0 →
      (retrainRuns p d = false → gives (.linkRetrain · p) w1 0 (d.setPort p { d.port p with retrain := true })) ∧
      (retrainRuns p d = true → gives (.linkRetrain · p) w1 1 d) ∧
      gives (.linkRestart · p) w2 0 (d.setPort p { d.port p with restart := true })) ∧
    (laneBonded l = false → gives (.prbsStart · l len) w3 4 d ∧ gives (.prbsStop · l) w4 4 d) ∧
    (laneBonded l = true →
      (12 < len → gives (.prbsStart · l len) w3 5 d) ∧
      (len ≤ 12 → d.stage l = 5 → gives (.prbsStart · l len) w3 3 d) ∧
      (len ≤ 12 → d.stage l ≠ 5 → d.is (F.LNK_LANE_STATUS_PRBS_BUSY l) = true → gives (.prbsStart · l len) w3 1 d) ∧
      (len ≤ 12 → d.stage l ≠ 5 → d.is (F.LNK_LANE_STATUS_PRBS_BUSY l) = false →
        gives (.prbsStart · l len) w3 0 ((d.put (F.LNK_LANE_STATUS_PRBS_BUSY l) 1).setLane l { d.lane l with prbsLen := len })) ∧
      (d.is (F.LNK_LANE_STATUS_PRBS_BUSY l) = false → gives (.prbsStop · l) w4 0 d) ∧
      (d.is (F.LNK_LANE_STATUS_PRBS_BUSY l) = true → ∃ units errs e, gives (.prbsStop · l) w4 0 (prbsEnd l 3 errs units e) ∧
        e.regs = d.regs ∧ e.lnk = d.lnk ∧ e.ev = d.ev)) ∧
    (l < 18 → d.is (F.LNK_LANE_STATUS_PRBS_BUSY l) = false → exec (.prbsDone l errors) s = .next s) ∧
    (l < 18 → d.is (F.LNK_LANE_STATUS_PRBS_BUSY l) = true →
      exec (.prbsDone l errors) s = .next (withDev s (prbsEnd l (if errors = 0 then 1 else 2) errors (2 ^ (4 + (d.lane l).prbsLen)) d)))))

/-- Entries of the monitor (R398, R402 to R406): nothing starts while the converter is off, an entry runs, or nothing is queued and SEQ_EN is 0;
an injection comes before the sequencer, whose next entry is the first enabled one from its place on; an entry whose excitation
would break the duty rule is passed over and counted; a calibration step begins once the injections before it have run; settling ends in the
conversions, the delay in the entry boundary, and each does so in its own stage alone.
Completes: monEntryStart, monSettleDone, monEntryEnd.

Conversions, the compliance comparator and the reference (R398, R399, R407, R409): a conversion inside the range counts and is held
and emitted with its value, the last of an entry leads to its delay, and one that is out of place changes nothing; the first of a
3-wire pair is only kept; a trip switches the excitation off, holds an OPEN result with the last usable value and ends the entry, and where
the bit OPEN is new it is reported; REF_READY rises once REF_EN has held for 196 turns, not before. A conversion of a running calibration step
is emitted like any other, and is one of its 16 codes; one outside the range is counted and held to it.
Completes: monConversionDone, excitationTrip, refReady.

The model's choices that this rests on: log entries 99, 101, 102, 133. -/
def Obligations.MonitorSequence : Prop :=
  (∀ (s : State) (e : Nat) (w0 w1 : Word) (rest : List (Word × Word)) (r : MonRun) (c : CalStep),
    (let d := s.dev
    ((d.monOn = false ∨ d.mon.run.isSome = true ∨ (d.mon.cal = none ∧ d.mon.inj = [] ∧ d.is F.MON_CFG_SEQ_EN = false)) → exec .monEntryStart s = .next s) ∧
    (d.monOn = true → d.mon.run = none → d.mon.cal = none →
      (d.mon.inj = (w0, w1) :: rest → (bit w0 17 = false ∨ dutyBroken (bits w0 29 24) d = false) →
        exec .monEntryStart s = .next (withDev s ((d.put F.MON_STATUS_CUR_ENTRY 63).setMon { d.mon with
          inj := rest, slot := (w0, w1), run := some { e := 63, w0 := w0, w1 := w1, began := d.nowCt } }))) ∧
      (d.mon.inj = [] → d.is F.MON_CFG_SEQ_EN = true → enabledFrom 63 (if d.get F.MON_CFG_LAST < d.mon.next then 0 else d.mon.next) d = some e →
        e < 63 → d.reg (R.MON_SEQ_ENTRY0 e) = w0 → d.reg (R.MON_SEQ_ENTRY1 e) = w1 →
        ((bit w0 17 = false ∨ dutyBroken (bits w0 29 24) d = false) → exec .monEntryStart s = .next (withDev s
          ((d.put F.MON_STATUS_CUR_ENTRY e).setMon { d.mon with run := some { e := e, w0 := w0, w1 := w1, began := d.nowCt } }))) ∧
        (bit w0 17 = true → dutyBroken (bits w0 29 24) d = true → exec .monEntryStart s = .next (withDev s
          (raise E.MON_DUTY_SKIP [] (count1 (R.MON_COUNT 2) (d.setMon { d.mon with next := nextEntry e d }))))))) ∧
    (d.monOn = true → d.mon.run = none → d.mon.cal = none → d.mon.inj = (w0, w1) :: rest → bit w0 17 = true → dutyBroken (bits w0 29 24) d = true →
      exec .monEntryStart s = .next (withDev s (raise E.MON_DUTY_SKIP [] (count1 (R.MON_COUNT 2) (d.setMon { d.mon with inj := rest }))))) ∧
    (d.monOn = true → d.mon.run = none → d.mon.cal = some c →
      (c.running = true → exec .monEntryStart s = .next s) ∧
      (c.running = false → c.wait = 0 → exec .monEntryStart s = .next (withDev s ((d.put F.MON_STATUS_CUR_ENTRY 63).setMon { d.mon with
        cal := some { c with running := true } }))) ∧
      (c.running = false → c.wait ≠ 0 → d.mon.inj = (w0, w1) :: rest → (bit w0 17 = false ∨ dutyBroken (bits w0 29 24) d = false) →
        exec .monEntryStart s = .next (withDev s ((d.put F.MON_STATUS_CUR_ENTRY 63).setMon { d.mon with
          inj := rest, cal := some { c with wait := c.wait - 1 }, slot := (w0, w1), run := some { e := 63, w0 := w0, w1 := w1, began := d.nowCt } })))) ∧
    (d.mon.run = some r → (r.stage = .settle → exec .monSettleDone s = .next (withDev s (d.setMon { d.mon with run := some { r with stage := .convert } }))) ∧
      (r.stage ≠ .settle → exec .monSettleDone s = .next s) ∧
      (r.stage = .delay → exec .monEntryEnd s = .next (withDev s (d.setMon { d.mon with
        run := none, next := if r.e < 63 then nextEntry r.e d else d.mon.next }))) ∧
      (r.stage ≠ .delay → exec .monEntryEnd s = .next s)) ∧
    (d.mon.run = none → exec .monSettleDone s = .next s ∧ exec .monEntryEnd s = .next s))) ∧
  (∀ (s : State) (r : MonRun) (c : CalStep) (raw v : Int) (d2 : Dev),
    (let d := s.dev
    ((d.monOn = false ∨ (d.mon.run = none ∧ d.mon.cal = none)) → exec (.monConversionDone raw) s = .next s) ∧
    ((raw ≤ -8388607 ∨ 8388607 ≤ raw) → monCount raw d = (clampInt (-8388607) 8388607 raw, count1 (R.MON_COUNT 3) (count1 (R.MON_COUNT 0) d))) ∧
    (d.mon.run = none → d.monOn = true → d.mon.cal = some c →
      ((c.running = false ∨ 2 ≤ c.step ∨ 16 ≤ c.codes.length) → exec (.monConversionDone raw) s = .next s) ∧
      (c.running = true → c.step < 2 → c.codes.length < 16 → -8388607 < raw → raw < 8388607 →
        monValue c.input false c.gain raw none (count1 (R.MON_COUNT 0) d) = (v, d2) →
        (let d3 := monResult 63 c.input false true true false raw v d2
        exec (.monConversionDone raw) s = .next (withDev s (d3.setMon { d3.mon with cal := some { c with codes := c.codes ++ [raw] } }))))) ∧
    (d.mon.run = none → exec .excitationTrip s = .next s) ∧
    (d.mon.run = some r →
      (r.stage ≠ .convert → exec (.monConversionDone raw) s = .next s) ∧
      (let input := bits r.w0 29 24
      let exc := bit r.w0 17
      let d1 := count1 (R.MON_COUNT 0) d
      r.stage = .convert → d.monOn = true → -8388607 < raw → raw < 8388607 →
        (exc = true → d.get (F.MON_SP_CFG_WIRES input) = 1 → r.lead = none →
          exec (.monConversionDone raw) s = .next (withDev s (d1.setMon { d1.mon with run := some { r with lead := some raw } }))) ∧
        ((exc = false ∨ d.get (F.MON_SP_CFG_WIRES input) ≠ 1) → monValue input exc (bits r.w0 23 21) raw r.lead d1 = (v, d2) →
          (let d3 := monResult r.e input exc (bit r.w0 30 || r.e == 63) false false raw v d2
          (r.made + 1 < (if bits r.w1 31 24 = 0 then 256 else bits r.w1 31 24) → exec (.monConversionDone raw) s =
            .next (withDev s (d3.setMon { d3.mon with run := some { r with made := r.made + 1, lead := none, stage := .convert } }))) ∧
          ((if bits r.w1 31 24 = 0 then 256 else bits r.w1 31 24) ≤ r.made + 1 → exec (.monConversionDone raw) s =
            .next (withDev s ((excOff r d3).setMon { (excOff r d3).mon with run := some { r with made := r.made + 1, lead := none, stage := .delay } })))))) ∧
      ((bit r.w0 17 = false ∨ r.stage = .delay) → exec .excitationTrip s = .next s) ∧
      (let k := bits r.w0 29 24
      let d1 := excOff r d
      let d2 := monResult r.e k true (bit r.w0 30 || r.e == 63) false true 0 (kget d1.mon.good k 0) d1
      let d3 := count1 (R.MON_COUNT 1) (d2.setReg R.MON_STATUS (setBits (d2.reg R.MON_STATUS) (16 + k) (16 + k) 1))
      let stop (d : Dev) : Dev := d.setMon { d.mon with run := some { r with stage := .delay, lead := none } }
      bit r.w0 17 = true → r.stage ≠ .delay →
        (bit (d2.reg R.MON_STATUS) (16 + k) = true → exec .excitationTrip s = .next (withDev s (stop d3))) ∧
        (bit (d2.reg R.MON_STATUS) (16 + k) = false → exec .excitationTrip s =
          .next (withDev s (stop (report 0x1A0 0x09 0 0 k none (raise E.MON_OPEN_SENSOR [] d3))))))) ∧
    (∀ n, d.mon.refSince = some n → d.is F.MON_CFG_REF_EN = true → d.is F.MON_STATUS_REF_READY = false →
      (196 ≤ n → exec .refReady s = .next (withDev s (raise E.MON_REF_READY [] (d.put F.MON_STATUS_REF_READY 1)))) ∧
      (n < 196 → exec .refReady s = .next s)) ∧
    (d.mon.refSince = none → exec .refReady s = .next s)))

/-- The injection queue and the calibration requests (R405, R410, R411, R417, R418), by registers, with t the machine once the operand
registers are written, and by message: a push is OK and joins the queue of at most four, BUSY where it is full, BAD_ARG where the entry is
not one; a step is DENIED outside STANDBY, CALIBRATE and TEST, BUSY during another, BAD_ARG where its input is none or FULL spans no
full scale, and else waits for the injections before it; ABORT always succeeds.
Completes: monInject, calZero, calFull, calStore, calAbort.

The end of a calibration step and the posts of the bias loop (R410, R411, R413, R415, R416): without a running step, or before its 16
conversions, nothing happens; a step with 15 made ends with the 16th; STORE ends once its MRAM pip is granted, with the offset and gain of
its range as they stand; ZERO keeps the mean of its 16 codes for FULL; FULL ends OK with offset and gain waiting for the boundary where GAIN' is in its range, with REFUSED
else; the loop waits for its four CAL pips; a hold expires once it has lasted OPEN_HOLD turns.
Completes: calStepDone, biasLoopPost, openHoldExpire.

The model's choices that this rests on: log entries 97, 98, 100, 102. -/
def Obligations.CalibrationAndBiasLoop : Prop :=
  (∀ (s : State) (c : MsgCtx) (w : List Word),
    (let t := putRegs (forRegs [R.MON_INJ_ENTRY0, R.MON_INJ_ENTRY1] w) s
    let d := t.dev
    let e := (d.reg R.MON_INJ_ENTRY0, d.reg R.MON_INJ_ENTRY1)
    exec (.monInject none w) s = .next (withDev t (if monEntryOk e.1 = false then d.put F.MON_INJ_STATUS_RESULT 5
      else if 4 ≤ d.mon.inj.length then d.put F.MON_INJ_STATUS_RESULT 1
      else (d.setMon { d.mon with inj := d.mon.inj ++ [e] }).put F.MON_INJ_STATUS_RESULT 0))) ∧
    (Accepted 0x0801 c w s → exec (.monInject (some c) w) s = .next (
      if monEntryOk (wordAt w 0) = false then answer 0x0801 c 5 [] s
      else if 4 ≤ s.dev.mon.inj.length then answer 0x0801 c 1 [] s
      else answer 0x0801 c 0 [toWord (s.dev.mon.inj.length + 1)]
        (withDev s (s.dev.setMon { s.dev.mon with inj := s.dev.mon.inj ++ [(wordAt w 0, wordAt w 1)] })))) ∧
    (let mode (d : Dev) : Prop := d.mode = .standby ∨ d.mode = .calibrate ∨ d.mode = .test
    let entry : Word := pack32 [(29, 24, bits (wordAt w 0) 29 24)]
    let span (fs : Word) : Int := fs.toInt * 2 ^ bits (wordAt w 0) 23 21
    let fits (step : Nat) (fs : Word) : Prop := step = 2 ∨ (monEntryOk entry = true ∧ (step = 0 ∨ (1250000 ≤ span fs ∧ span fs ≤ 2500000)))
    let begun (step : Nat) (d : Dev) : Dev := (d.put F.MON_CAL_STATUS_STEP step).put F.MON_CAL_STATUS_GAIN (bits (wordAt w 0) 23 21)
    -- status and machine that a request of step `step` on the machine `d` leads to
    let gives (step : Nat) (fs : Word) (d : Dev) (st : Nat) (e : Dev) : Prop :=
      (¬ mode d → st = 3 ∧ e = calResult 3 (begun step d)) ∧
      (mode d → d.mon.cal.isSome = true → st = 1 ∧ e = calResult 1 (begun step d)) ∧
      (mode d → d.mon.cal = none → ¬ fits step fs → st = 5 ∧ e = calResult 5 (begun step d)) ∧
      (mode d → d.mon.cal = none → fits step fs → st = 0 ∧ e = (calResult 0 (begun step d)).setMon { d.mon with
        cal := some { step := step, input := bits (wordAt w 0) 29 24, gain := bits (wordAt w 0) 23 21, fs := fs.toInt, wait := d.mon.inj.length } })
    let aborted (d : Dev) : Dev := raise E.MON_CAL_DONE [] (calResult 0 ((begun 3 d).setMon { d.mon with cal := none, pendOff := [] }))
    let t := writeReg R.MON_CAL_FS (wordAt w 1) s
    let ctrl (step : Nat) : Dev := t.dev.setReg R.MON_CAL_CTRL (setBits (setBits (wordAt w 0) 31 30 step) 0 0 1 &&& 0xFFFC0000)
    (∃ st e, gives 0 (t.dev.reg R.MON_CAL_FS) (ctrl 0) st e ∧ exec (.calZero none w) s = .next (withDev t e)) ∧
    (∃ st e, gives 1 (t.dev.reg R.MON_CAL_FS) (ctrl 1) st e ∧ exec (.calFull none w) s = .next (withDev t e)) ∧
    (∃ st e, gives 2 (t.dev.reg R.MON_CAL_FS) (ctrl 2) st e ∧ exec (.calStore none w) s = .next (withDev t e)) ∧
    exec (.calAbort none w) s = .next (withDev t (aborted (ctrl 3))) ∧
    (w.length = 2 → (∀ step, step < 4 → Accepted 0x0802 c (w.modify 0 (fun x => setBits x 31 30 step)) s) →
      (∃ st e, gives 0 (wordAt w 1) s.dev st e ∧ exec (.calZero (some c) w) s = .next (answer 0x0802 c st [] (withDev s e))) ∧
      (∃ st e, gives 1 (wordAt w 1) s.dev st e ∧ exec (.calFull (some c) w) s = .next (answer 0x0802 c st [] (withDev s e))) ∧
      (∃ st e, gives 2 (wordAt w 1) s.dev st e ∧ exec (.calStore (some c) w) s = .next (answer 0x0802 c st [] (withDev s e))) ∧
      exec (.calAbort (some c) w) s = .next (answer 0x0802 c 0 [] (withDev s (aborted s.dev)))))) ∧
  (∀ (s : State) (c : CalStep) (raw m : Int) (d1 d2 : Dev) (v k n : Nat),
    (let d := s.dev
    ((d.mon.cal = none ∨ (d.mon.cal = some c ∧ (c.running = false ∨ (c.step ≠ 2 ∧ (c.codes.length < 15 ∨ (c.codes.length = 15 ∧ d.monOn = false)))))) → exec (.calStepDone raw) s = .next s) ∧
    (d.mon.cal = some c → c.running = true →
      (d.monOn = true → c.step < 2 → c.codes.length = 15 →
        exec (.calStepDone raw) s = exec (.calStepDone raw) (withDev s (calConversion raw d)) ∧
        ∃ x, (calConversion raw d).mon.cal = some { c with codes := c.codes ++ [x] }) ∧
      (c.step = 2 → 16 ≤ (d.budAct 2 6).got → d1 = d.setBudAct 2 6 { d.budAct 2 6 with got := (d.budAct 2 6).got - 16 } →
        exec (.calStepDone raw) s = .next (withDev s (calEnd 0 (d1.setMon { d1.mon with
          stored := kset d1.mon.stored c.gain ((d1.reg (R.MON_CAL_OFFSET c.gain)).toInt, (d1.reg (R.MON_CAL_GAIN c.gain)).toNat) })))) ∧
      (c.step = 2 → (d.budAct 2 6).got < 16 → exec (.calStepDone raw) s =
        .next (withDev s (d.setBudAct 2 6 { d.budAct 2 6 with want := max (d.budAct 2 6).want (16 - (d.budAct 2 6).got) }))) ∧
      (let sum := c.codes.foldl (· + ·) 0
      let o := kget d.mon.pendOff c.gain (d.reg (R.MON_CAL_OFFSET c.gain)).toInt
      16 ≤ c.codes.length →
        (c.step = 0 → roundFree sum 16 d = (m, d2) → exec (.calStepDone raw) s =
          .next (withDev s (calEnd 0 (d2.setMon { d2.mon with pendOff := kset d2.mon.pendOff c.gain m })))) ∧
        (c.step = 1 → calGain c.fs c.gain sum o = some v → exec (.calStepDone raw) s =
          .next (withDev s (calEnd 0 (d.setMon { d.mon with pendOff := [], calLand := some (c.gain, o, v) })))) ∧
        (c.step = 1 → calGain c.fs c.gain sum o = none → exec (.calStepDone raw) s =
          .next (withDev s (calEnd 9 (count1 (R.MON_COUNT 5) (d.setMon { d.mon with pendOff := [] }))))))) ∧
    (d.mon.bias = none → exec .biasLoopPost s = .next s) ∧
    (d.mon.bias.isSome = true → (d.budAct 0 1).got < 64 → exec .biasLoopPost s =
      .next (withDev s (d.setBudAct 0 1 { d.budAct 0 1 with want := max (d.budAct 0 1).want (64 - (d.budAct 0 1).got) }))) ∧
    (d.mon.bias.isSome = true → 64 ≤ (d.budAct 0 1).got → d1 = d.setBudAct 0 1 { d.budAct 0 1 with got := (d.budAct 0 1).got - 64 } →
      ∃ e, exec .biasLoopPost s = .next (withDev s e) ∧ e.mon.bias = none ∧ (d.mon.bias = some [] → e = d1.setMon { d1.mon with bias := none })) ∧
    (kfind d.mon.hold k = some (n, false) → d.get F.MON_BIAS_LIMITS_OPEN_HOLD ≤ n → exec (.openHoldExpire k) s =
      .next (withDev s (raise E.MON_HOLD_EXPIRED [] ((d.setMon { d.mon with hold := kset d.mon.hold k (n, true) }).setReg R.MON_BIAS_STATUS
        (setBits (d.reg R.MON_BIAS_STATUS) (24 + k) (24 + k) 1))))) ∧
    ((kfind d.mon.hold k = none ∨ (kfind d.mon.hold k = some (n, false) ∧ n < d.get F.MON_BIAS_LIMITS_OPEN_HOLD)) → exec (.openHoldExpire k) s = .next s)))

/-- The inputs of the guard (R424 to R430): a condition that holds becomes active and trips; each is judged where the GPB enables it: chain
loss, a chain edge outside 30 µs to 120 µs, demand inputs that differ or are low, a missing HV result; a missing snapshot trips
without a GPB. HV_SETTLE_END counts in ENABLED alone. Completes: guardDataLoss, guardHvStale, hvSettleEnd, guardInChange,
guardEquivTimeout, chainEdge, chainLoss.

A trip (R432): a cause that is not yet latched is latched, counted, logged and requests SAFE; one that is latched is no new trip; a
condition that no longer holds clears its active bit and leaves every latched one.

The model's choices that this rests on: log entries 95, 96, 133. -/
def Obligations.GuardInputsTrip : Prop :=
  (∀ (s : State) (g : List Word) (l i ns : Nat) (a b : Bool),
    (let d := s.dev
    (l < 3 → d.is (F.GRD_LANE_STATUS_VOTING l) = true → exec (.guardDataLoss l) s = .next (withDev s (guardCond 12 true d))) ∧
    ((3 ≤ l ∨ d.is (F.GRD_LANE_STATUS_VOTING l) = false) → exec (.guardDataLoss l) s = .next s) ∧
    exec .hvSettleEnd s = .next (withDev s (d.setGrd { d.grd with settled := d.guardState == 2 })) ∧
    (let d0 := (d.put F.GRD_STATUS_IN_A (b2n a)).put F.GRD_STATUS_IN_B (b2n b)
    (d.grd.gpb = none → exec (.guardHvStale i) s = .next s ∧ exec .guardEquivTimeout s = .next s ∧ exec .chainLoss s = .next s ∧
      exec (.chainEdge ns) s = .next s ∧ exec (.guardInChange a b) s = .next (withDev s d0)) ∧
    (d.grd.gpb = some g →
      (i < 2 → gpbHvEn g i = true → exec (.guardHvStale i) s =
        .next (withDev s (guardCond 19 true (d.setGrd { d.grd with hvStale := d.grd.hvStale.set i true })))) ∧
      ((2 ≤ i ∨ gpbHvEn g i = false) → exec (.guardHvStale i) s = .next s) ∧
      (gpbInEn g = false → exec (.guardInChange a b) s = .next (withDev s (guardSettle (setActive 17 false (setActive 18 false d0))))) ∧
      (gpbInEn g = true → d0.is F.GRD_TRIP_ACTIVE_EQUIV = false → exec (.guardInChange a b) s =
        .next (withDev s (guardCond 18 (!d0.is F.GRD_STATUS_IN_A || !d0.is F.GRD_STATUS_IN_B) d0))) ∧
      ((gpbInEn g = false ∨ d.is F.GRD_STATUS_IN_A = d.is F.GRD_STATUS_IN_B ∨ d.is F.GRD_TRIP_ACTIVE_EQUIV = true) → exec .guardEquivTimeout s = .next s) ∧
      (gpbInEn g = true → d.is F.GRD_STATUS_IN_A ≠ d.is F.GRD_STATUS_IN_B → d.is F.GRD_TRIP_ACTIVE_EQUIV = false → exec .guardEquivTimeout s =
        .next (withDev s (guardCond 17 true (count1 (R.GRD_COUNT 5) (d.setGrd { d.grd with equivLow := false }))))) ∧
      (gpbChainEn g = false → exec (.chainEdge ns) s = .next s ∧ exec .chainLoss s = .next s) ∧
      (gpbChainEn g = true →
        (30000 ≤ ns → ns ≤ 120000 → exec (.chainEdge ns) s =
          .next (withDev s (guardSettle (setActive 16 false ((d.setGrd { d.grd with chainLost := false }).put F.GRD_STATUS_CHAIN_IN_OK 1))))) ∧
        ((ns < 30000 ∨ 120000 < ns) → exec (.chainEdge ns) s = exec .chainLoss s) ∧
        (gpbChainTrip g = false → d.grd.chainLost = true → exec .chainLoss s = .next (withDev s (d.put F.GRD_STATUS_CHAIN_IN_OK 0))) ∧
        (gpbChainTrip g = false → d.grd.chainLost = false → exec .chainLoss s = .next (withDev s (raise E.GRD_CHAIN_LOSS []
          (count1 (R.GRD_COUNT 4) ((d.put F.GRD_STATUS_CHAIN_IN_OK 0).setGrd { d.grd with chainLost := true }))))) ∧
        (gpbChainTrip g = true → d.grd.chainLost = true → exec .chainLoss s =
          .next (withDev s (guardCond 16 true (d.put F.GRD_STATUS_CHAIN_IN_OK 0))))))))) ∧
  (∀ (d : Dev) (b : Nat), b < 32 →
    (bit (d.reg R.GRD_TRIP_LATCHED) b = true → guardLatch b d = d) ∧
    (bit (d.reg R.GRD_TRIP_LATCHED) b = false → bit ((guardLatch b d).reg R.GRD_TRIP_LATCHED) b = true ∧
      (∀ j, j ≠ b → bit ((guardLatch b d).reg R.GRD_TRIP_LATCHED) j = bit (d.reg R.GRD_TRIP_LATCHED) j) ∧
      (guardLatch b d).guardState = (if d.guardVotes < 2 then 4 else 3)) ∧
    ((guardCond b false d).reg R.GRD_TRIP_LATCHED = d.reg R.GRD_TRIP_LATCHED))

/-- Output tests and feedback (R434 to R436): a test starts in ENABLED while none runs; low feedback after the output went low and high
feedback after its return pass it, the wrong level fails it; T_OFF ends in the return, of a voided test in its end; a mismatch
outside a test trips, one of an output under test does not.
Completes: outputTestStart, testFeedbackCheck, outputTestEnd, feedbackChange, feedbackMismatch.

The model's choices that this rests on: log entries 95, 133. -/
def Obligations.OutputTests : Prop :=
  ∀ (s : State) (b a : Bool) (t : GuardTest),
    (let d := s.dev
    (d.guardState = 2 → d.grd.test = none → exec (.outputTestStart b) s = .next (withDev s (d.setGrd { d.grd with test := some { b := b } }))) ∧
    ((d.guardState ≠ 2 ∨ d.grd.test.isSome = true) → exec (.outputTestStart b) s = .next s) ∧
    (d.grd.test = none → exec .testFeedbackCheck s = .next s ∧ exec .outputTestEnd s = .next s) ∧
    (d.grd.test = some t →
      (t.void = true → exec .testFeedbackCheck s = .next s ∧
        exec .outputTestEnd s = .next (withDev s (raise E.GRD_TEST_VOID [] (count1 (R.GRD_COUNT 2) (d.setGrd { d.grd with test := none }))))) ∧
      (t.void = false → t.returned = false → d.guardFb t.b = false →
        exec .testFeedbackCheck s = .next (withDev s (d.setGrd { d.grd with test := some { t with lowOk := true } }))) ∧
      (t.void = false → t.returned = false → d.guardFb t.b = true → exec .testFeedbackCheck s = .next (withDev s (testFail t.b d))) ∧
      (t.void = false → t.returned = true → d.guardFb t.b = true →
        exec .testFeedbackCheck s = .next (withDev s (count1 (R.GRD_COUNT 1) (d.setGrd { d.grd with test := none })))) ∧
      (t.void = false → t.returned = true → d.guardFb t.b = false → exec .testFeedbackCheck s = .next (withDev s (testFail t.b d))) ∧
      (t.void = false → t.lowOk = true → exec .outputTestEnd s = .next (withDev s (d.setGrd { d.grd with test := some { t with returned := true } }))) ∧
      (t.void = false → t.lowOk = false → exec .outputTestEnd s = .next s) ∧
      exec (.feedbackMismatch t.b) s = .next s) ∧
    exec (.feedbackChange a b) s = .next (withDev s (guardSettle ((d.put F.GRD_STATUS_FB_A (b2n a)).put F.GRD_STATUS_FB_B (b2n b)))) ∧
    (d.guardFb b = d.guardOut b → exec (.feedbackMismatch b) s = .next s) ∧
    (d.guardFb b ≠ d.guardOut b → (∀ x, d.grd.test = some x → x.b ≠ b) → exec (.feedbackMismatch b) s = .next (withDev s (guardCond 13 true d))))

/-- Lane voting and the guard messages, these by registers too (R432, R433, R441, R442, R446 to R448): lanes that agree change nothing but
their mismatch counts; a lane that differs from the other two is counted, and excludes itself at the second time in a row; two voting
lanes that differ are counted; LOAD of a good block makes it pending and shows its check word, of the block in force is a success that
changes nothing, of any other is BAD_ARG; CONFIRM needs the pending block, its serial and its check word, and adopts at the next boundary;
CLEAR is DENIED while a cause is active, NOT_CONFIRMED without a GPB, and else clears every latched cause.
Completes: guardVote, guardLoadGpb, guardConfirm, guardClear.

The model's choices that this rests on: log entries 95, 97, 127. -/
def Obligations.GuardVotesAndMessages : Prop :=
  ∀ (s : State) (c : MsgCtx) (w words : List Word) (g : List Word),
    (let d := s.dev
    -- status, machine and words that a guard request on the machine `d` leads to
    let load (w : List Word) (d : Dev) (st : Nat) (e : Dev) (out : List Word) : Prop :=
      ((gpbOk w = false ∨ (gpbField w 0 15 0 ≠ 0xFFFF ∧ gpbField w 0 15 0 ≠ d.chipId)) → st = 5 ∧ e = d ∧ out = []) ∧
      (gpbOk w = true → (gpbField w 0 15 0 = 0xFFFF ∨ gpbField w 0 15 0 = d.chipId) →
        (d.grd.gpb = some w → st = 0 ∧ e = d ∧ out = [gpbCheck w, 1]) ∧
        (d.grd.gpb ≠ some w → st = 0 ∧ e = guardSettle (guardLog 1 0 (gpbCheck w) (d.setGrd { d.grd with pending := some w, adopt := false })) ∧
          out = [gpbCheck w, 0]))
    let confirm (check serial : Word) (d : Dev) (st : Nat) (e : Dev) (out : List Word) : Prop :=
      (d.grd.pending = none → st = 5 ∧ e = d ∧ out = []) ∧
      (∀ g, d.grd.pending = some g →
        (serial ≠ wordAt g 1 → st = 5 ∧ e = d ∧ out = []) ∧
        (serial = wordAt g 1 → check = gpbCheck g → st = 0 ∧ e = d.setGrd { d.grd with adopt := true } ∧
          out = [toWord (d.nextOpens / 2 ^ 32), toWord d.nextOpens]) ∧
        (serial = wordAt g 1 → check ≠ gpbCheck g → st = 9 ∧
          e = guardLog 3 0 (gpbCheck g) (raise E.GRD_CONFIRM_FAIL [] (count1 (R.GRD_COUNT 6) d)) ∧ out = []))
    let clear (st : Nat) (e : Dev) (out : List Word) : Prop :=
      ((d.reg R.GRD_TRIP_ACTIVE ≠ 0 ∨ d.guardVotes < 2) → st = 3 ∧ e = d ∧ out = []) ∧
      (d.reg R.GRD_TRIP_ACTIVE = 0 → 2 ≤ d.guardVotes →
        (d.grd.gpb = none → st = 7 ∧ e = d ∧ out = []) ∧
        (d.grd.gpb = some g → st = 0 ∧ e = guardLog 5 0 (gpbCheck g) (d.setReg R.GRD_TRIP_LATCHED 0) ∧ e.reg R.GRD_TRIP_LATCHED = 0 ∧ out = [grdStatus e]))
    (d.guardVotes < 2 → exec (.guardVote words) s = .next (withDev s (guardSettle d))) ∧
    (d.guardVotes = 3 → wordAt words 0 = wordAt words 1 →
      (let e := (d.put (F.GRD_LANE_STATUS_MISMATCH 0) 0).put (F.GRD_LANE_STATUS_MISMATCH 1) 0
      (wordAt words 0 = wordAt words 2 → exec (.guardVote words) s = .next (withDev s (guardSettle (e.put (F.GRD_LANE_STATUS_MISMATCH 2) 0)))) ∧
      (wordAt words 0 ≠ wordAt words 2 → e.get (F.GRD_LANE_STATUS_MISMATCH 2) = 0 → exec (.guardVote words) s = .next (withDev s (guardSettle
        (count1 (R.GRD_COUNT 7) (e.put (F.GRD_LANE_STATUS_MISMATCH 2) 1))))) ∧
      (wordAt words 0 ≠ wordAt words 2 → 1 ≤ e.get (F.GRD_LANE_STATUS_MISMATCH 2) → exec (.guardVote words) s = .next (withDev s (guardSettle
        (excludeLane 2 (count1 (R.GRD_COUNT 7) (e.put (F.GRD_LANE_STATUS_MISMATCH 2) 2)))))))) ∧
    (d.guardVotes = 2 → d.is (F.GRD_LANE_STATUS_VOTING 0) = true → d.is (F.GRD_LANE_STATUS_VOTING 1) = true →
      d.is (F.GRD_LANE_STATUS_VOTING 2) = false → exec (.guardVote words) s =
        .next (withDev s (guardSettle (if wordAt words 1 = wordAt words 0 then d else count1 (R.GRD_COUNT 7) d)))) ∧
    (Accepted 0x0901 c w s → ∃ st e out, load w d st e out ∧ exec (.guardLoadGpb (some c) w) s = .next (answer 0x0901 c st out (withDev s e))) ∧
    (let t := putRegs (forRegs ((List.range 32).map (fun i => R.GRD_GPB_PEND i)) w) s
    ∃ st e out, load ((List.range 32).map (fun i => t.dev.reg (R.GRD_GPB_PEND i))) t.dev st e out ∧
      exec (.guardLoadGpb none w) s = .next (withDev t (e.put F.GRD_GCMD_STATUS_RESULT st))) ∧
    (Accepted 0x0902 c w s → ∃ st e out, confirm (wordAt w 0) (wordAt w 1) d st e out ∧
      exec (.guardConfirm (some c) w) s = .next (answer 0x0902 c st out (withDev s e))) ∧
    (let t := putRegs (forRegs [R.GRD_GCMD_ARG, R.GRD_GCMD_SERIAL] w) s
    ∃ st e out, confirm (t.dev.reg R.GRD_GCMD_ARG) (t.dev.reg R.GRD_GCMD_SERIAL) t.dev st e out ∧
      exec (.guardConfirm none w) s = .next (withDev t (e.put F.GRD_GCMD_STATUS_RESULT st))) ∧
    (Accepted 0x0903 c w s → ∃ st e out, clear st e out ∧ exec (.guardClear (some c) w) s = .next (answer 0x0903 c st out (withDev s e))) ∧
    (∃ st e out, clear st e out ∧ exec (.guardClear none w) s = .next (withDev s (e.put F.GRD_GCMD_STATUS_RESULT st))))

/-- The fault queue and its captures (R455, R457, R460, R467, R468): FLT_POP takes the oldest entry into its latch, of an empty queue it reads
zero; an uncorrectable head is dropped and the next one taken; FLUSH empties the queue into DROPPED; ACCEPT ends every hold but that of a
LASTING core; FE_CLEAR zeroes the captures of the classes its mask names and nothing else; GET_FAULTS takes its entries; a kick restarts the
watchdog's count; a parity alert is the port's own affair.
Completes: fltPop, faultFlush, faultAccept, feClear, wdogKick, parityAlert, getFaults, getFirstError.

Self-tests (R462 to R465): one test runs at a time; the oldest queued one starts once its element is free; a run ends once its SELFTEST
budget has been granted, 16 ct a pip; a first failure runs the test again, a pass classes the element TRANSIENT, a second failure LASTING, and an
engine that is idle again chooses. Completes: selftestStart, selftestDone.

The model's choices that this rests on: log entries 103, 104, 113. -/
def Obligations.FaultsAndSelfTests : Prop :=
  (∀ (s : State) (c : MsgCtx) (w : List Word) (bad : Bool) (e : Word64 × Word) (r : List (Word64 × Word)) (mask val : Word),
    (let d := s.dev
    (d.flt.q = [] → exec (.fltPop bad) s = .next (withDev s { d.setFlt { d.flt with latch := (0, 0) } with rdata := [0] })) ∧
    (d.flt.q = e :: r →
      exec (.fltPop false) s = .next (withDev s { d.setFlt { d.flt with q := r, latch := e } with rdata := [toWord (e.1.toNat / 2 ^ 32)] }) ∧
      ∃ x, exec (.fltPop true) s = .next (withDev s x) ∧ x.flt.q = r.tail ∧ x.flt.latch = r.headD (0, 0) ∧ x.is F.FLT_STATUS_QERR = true) ∧
    exec .faultFlush s = .next (withDev s (count (R.FLT_COUNT 1) d.flt.q.length (d.setFlt { d.flt with q := [] }))) ∧
    (d.isolated .core = false → exec .faultAccept s = .next (withDev s (d.setFlt { d.flt with holds := [] }))) ∧
    (d.isolated .core = true → exec .faultAccept s = .next (withDev s (d.setFlt { d.flt with holds := d.flt.holds.filter (fun h => h == .core) }))) ∧
    (∃ x, exec (.feClear mask) s = .next (withDev s x) ∧ (∀ k i, k < 8 → i < 7 → x.reg (R.FLT_FE k i) = if bit mask k then 0 else d.reg (R.FLT_FE k i)) ∧
      (∀ key, (∀ k i, k < 8 → i < 7 → key ≠ R.FLT_FE k i) → x.reg key = d.reg key) ∧ x.flt = d.flt ∧ x.live = d.live ∧ x.ev = d.ev) ∧
    (bit val 0 = true → exec (.wdogKick val) s = .next (withDev s (d.setFlt { d.flt with sinceKick := 0 }))) ∧
    (bit val 0 = false → exec (.wdogKick val) s = .next s) ∧
    exec .parityAlert s = .next s ∧
    (Accepted 0x0A01 c w s → (let n := bits (wordAt w 0) 5 0
      ((n = 0 ∨ 40 < n) → exec (.getFaults c w) s = .next (answer 0x0A01 c 5 [] s)) ∧
      (1 ≤ n → n ≤ 40 → ∃ head, exec (.getFaults c w) s = .next (answer 0x0A01 c 0
        (head ++ [d.reg (R.FLT_COUNT 1)] ++ (d.flt.q.take n).flatMap (fun x => [toWord (x.1.toNat / 2 ^ 32), toWord x.1.toNat, x.2]))
        (withDev s (d.setFlt { d.flt with q := d.flt.q.drop n })))))) ∧
    (Accepted 0x0A02 c w s → (let k := bits (wordAt w 0) 2 0
      exec (.getFirstError c w) s = .next (answer 0x0A02 c 0 ((List.range 7).map (fun i => d.reg (R.FLT_FE k i)))
        (withDev s (if bit (wordAt w 0) 31 then feClear k d else d))))))) ∧
  (∀ (s : State) (t : TestReq) (r : List TestReq) (again pass : Bool),
    (let d := s.dev
    ((d.flt.running.isSome = true ∨ d.flt.tests = []) → exec .selftestStart s = .next s) ∧
    (d.flt.running = none → d.flt.tests = t :: r →
      (testReady t.elem d = false → exec .selftestStart s = .next s) ∧
      (testReady t.elem d = true → exec .selftestStart s = .next (withDev s (testBegin t.elem (count1 (R.FLT_COUNT 3)
        ((((d.setFlt { d.flt with tests := r, running := some (t, false) }).put F.FLT_TEST_STATUS_STATE 1).put F.FLT_TEST_STATUS_SOURCE t.source).put
          F.FLT_TEST_STATUS_KIND t.kind)))))) ∧
    (d.flt.running = none → exec (.selftestDone pass) s = .next s) ∧
    (d.flt.running = some (t, again) → (let x := (testPips t.elem).1
      let n := (testPips t.elem).2
      let paid := d.setBudAct x 3 { d.budAct x 3 with got := (d.budAct x 3).got - 16 * n }
      let free := testRelease t.elem pass paid
      let ended (lasting : Bool) : Dev := match t.elem with
        | .engine k => engineChoose k (classify t lasting free)
        | _ => classify t lasting free
      ((d.budAct x 3).got < 16 * n → exec (.selftestDone pass) s =
        .next (withDev s (d.setBudAct x 3 { d.budAct x 3 with want := max (d.budAct x 3).want (16 * n - (d.budAct x 3).got) }))) ∧
      (16 * n ≤ (d.budAct x 3).got →
        (pass = true → exec (.selftestDone pass) s = .next (withDev s (ended false))) ∧
        (pass = false → again = true → exec (.selftestDone pass) s = .next (withDev s (ended true))) ∧
        (pass = false → again = false → exec (.selftestDone pass) s = .next (withDev s (testBegin t.elem (count1 (R.FLT_COUNT 3)
          ((free.setFlt { free.flt with running := some (t, true) }).put F.FLT_TEST_STATUS_STATE 2))))))))))

/-- Security messages (R484, R488, R490, R492): SET_TIME never steps ST back; CLAIM_OWNERSHIP takes the next unused bank while there is
one; an attestation is signed over its payload and needs the device identity; FW_BEGIN opens the one session in STANDBY; a debug
challenge of a scope the chip lacks is BAD_ARG, one with a wrong nonce is counted and REFUSED.
Completes: setTime, claimOwnership, getAttestation, fwBegin, debugChallenge.

The model's choices that this rests on: log entries 106, 107, 114, 127. -/
def Obligations.SecurityMessages : Prop :=
  ∀ (s : State) (c : MsgCtx) (w : List Word),
    (let d := s.dev
    (Accepted 0x0B02 c w s → (let v := bits (wordAt w 0) 15 0 * 2 ^ 32 + (wordAt w 1).toNat
      (v < d.time.st → exec (.setTime c w) s = .next (answer 0x0B02 c 9 [] s)) ∧
      (d.time.st ≤ v → exec (.setTime c w) s = .next (answer 0x0B02 c 0 [] (withDev s
        (wearRecord ({ d with time := { d.time with st := v, stMram := v } }.put F.TIME_STATUS_ST_VALID 1))))))) ∧
    (Accepted 0x0B03 c w s →
      (d.sec.bankUsed = 0 → kfind d.sec.ownerHash 0 = none → exec (.claimOwnership c w) s = .next (answer 0x0B03 c 0 [0] (withDev s
        (raise E.SEC_OWNER_CHANGED [] (d.setSec { d.sec with
          ownerKeys := kset d.sec.ownerKeys 0 (w.take 24), ownerHash := kset d.sec.ownerHash 0 (Config.sha384 (msBytes (w.take 24))), bankUsed := 1 }))))) ∧
      (8 ≤ d.sec.bankUsed → exec (.claimOwnership c w) s = .next (answer 0x0B03 c 9 [] s))) ∧
    (Accepted 0x0B01 c w s →
      (Config.identityOk = false → exec (.getAttestation c w) s = .next (answer 0x0B01 c 3 [] s)) ∧
      (Config.identityOk = true → bit (wordAt w 8) 0 = false → ∃ head : List Word, (let body := head ++ w.take 8
        exec (.getAttestation c w) s = .next (answer 0x0B01 c 0 (body ++ Config.ecdsaSign (Config.sha384 (msBytes body))) s))) ∧
      (Config.identityOk = true → bit (wordAt w 8) 0 = true → exec (.getAttestation c w) s = .next (answer 0x0B01 c 0
        ([toWord (Config.dieId.toNat / 2 ^ 32), toWord Config.dieId.toNat] ++ (List.range 48).map (fun i => Config.certWord (i + 2))) s))) ∧
    (Accepted 0x0B04 c w s → (let kind := bits (wordAt w 0) 1 0
      (d.mode ≠ .standby → exec (.fwBegin c w) s = .next (answer 0x0B04 c 3 [] s)) ∧
      (d.mode = .standby → d.sec.session.isSome = true → exec (.fwBegin c w) s = .next (answer 0x0B04 c 1 [] s)) ∧
      (d.mode = .standby → d.sec.session = none → (kind = 0 ∨ slotSize kind < (wordAt w 1).toNat) → exec (.fwBegin c w) s = .next (answer 0x0B04 c 5 [] s)) ∧
      (d.mode = .standby → d.sec.session = none → kind ≠ 0 → (wordAt w 1).toNat ≤ slotSize kind → exec (.fwBegin c w) s =
        .next (answer 0x0B04 c 0 [] (withDev s (d.setSec { d.sec with session := some { kind := kind, total := (wordAt w 1).toNat, hash := (w.drop 2).take 12 } })))))) ∧
    (Accepted 0x0B07 c w s → (let scope := bits (wordAt w 0) 7 0
      (16 ≤ scope → exec (.debugChallenge c w) s = .next (answer 0x0B07 c 5 [] s)) ∧
      (scope < 16 → wordAt w 9 = toWord (Config.dieId.toNat / 2 ^ 32) → wordAt w 10 = toWord Config.dieId.toNat →
        ((∃ i, i < 8 ∧ wordAt w (1 + i) ≠ d.reg (R.SEC_DEBUG_NONCE i)) → exec (.debugChallenge c w) s =
          .next (answer 0x0B07 c 9 [] (withDev s (report 0x1B0 0x16 0 0 0 none (count1 (R.SEC_COUNT 1) d))))) ∧
        ((∀ i, i < 8 → wordAt w (1 + i) = d.reg (R.SEC_DEBUG_NONCE i)) → (scope < 8 ∨ c.key = 2) →
          (let now := if scope = 0 then 0 else d.get F.SEC_STATUS_SCOPE ||| scope
          exec (.debugChallenge c w) s = .next (answer 0x0B07 c 0 [toWord now] (withDev s
            (raise E.SEC_DEBUG_UNLOCK [] (drawNonce (d.put F.SEC_STATUS_SCOPE now)))))))))))

/-- The firmware update (R16, R485 to R487): FW_BEGIN's copy of a running slot A and its invalidation draw FW pips of the MRAM, 16 ct for
every 16 bytes, and so do the chunks, which wait for them; a chunk inside the image is taken once the slot is ready, BUSY before; VERIFY
writes the chunks that wait, ends the session with a TRIAL slot where hash, header, signature and version hold, and counts a failure else;
COMMIT of a running TRIAL slot raises the rollback version, and the copy of A to B follows; ACTIVATE_RESET follows an applied VERIFY alone.
Completes: fwSlotPrepared, fwChunk, fwVerify, fwCommit, fwCommitCopyDone, activateReset.

The model's choices that this rests on: log entries 105, 108, 114, 127. -/
def Obligations.FirmwareUpdate : Prop :=
  ∀ (s : State) (c : MsgCtx) (w : List Word) (x : FwSession) (k : Nat),
    (let d := s.dev
    let b := d.budAct 2 6
    let wants (n : Nat) (t : State) : State := withDev t (t.dev.setBudAct 2 6 { b with want := max b.want (n - b.got) })
    let pays (n : Nat) (t : State) : State := withDev t (t.dev.setBudAct 2 6 { b with got := b.got - n })
    ((d.sec.session = none ∨ (d.sec.session = some x ∧ x.ready = true)) → exec .fwSlotPrepared s = .next s) ∧
    (d.sec.session = some x → x.ready = false →
      ((slotVerifies s.mem x.kind 1 d = true ∨ d.sec.run.getD (x.kind - 1) none ≠ some 0) →
        (b.got < 16 → exec .fwSlotPrepared s = .next (wants 16 s)) ∧
        (16 ≤ b.got → (let t := invalidateA x.kind (pays 16 s)
          exec .fwSlotPrepared s = .next (withDev t (raise E.SEC_FW_READY [] (t.dev.setSec { t.dev.sec with session := some { x with ready := true } })))))) ∧
      (slotVerifies s.mem x.kind 1 d = false → d.sec.run.getD (x.kind - 1) none = some 0 →
        (let n := 16 * (1 + (imageBytes s.mem x.kind 0 + 15) / 16)
        (b.got < n → exec .fwSlotPrepared s = .next (wants n s)) ∧
        (n ≤ b.got → (let t := invalidateA x.kind (copySlot x.kind 0 1 (pays n s))
          exec .fwSlotPrepared s = .next (withDev t (raise E.SEC_FW_READY [] (t.dev.setSec { t.dev.sec with session := some { x with ready := true } })))))))) ∧
    (Accepted 0x0B05 c w s → d.mode = .standby →
      (d.sec.session = none → exec (.fwChunk c w) s = .next (answer 0x0B05 c 3 [] s)) ∧
      (d.sec.session = some x → x.ready = false → exec (.fwChunk c w) s = .next (answer 0x0B05 c 1 [] s)) ∧
      (d.sec.session = some x → x.ready = true → ((wordAt w 0).toNat % 4 ≠ 0 ∨ x.total < (wordAt w 0).toNat + 4 * (w.length - 1)) →
        exec (.fwChunk c w) s = .next (answer 0x0B05 c 5 [] s)) ∧
      (d.sec.session = some x → x.ready = true → (wordAt w 0).toNat % 4 = 0 → 2 ≤ w.length → w.length ≤ 126 →
        (wordAt w 0).toNat + 4 * (w.length - 1) ≤ x.total →
        (let n := 16 * ((4 * (w.length - 1) + 15) / 16)
        let dst := slotBase x.kind 0 + (wordAt w 0).toNat
        (d.sec.chunks = [] → n ≤ b.got →
          exec (.fwChunk c w) s = .next (answer 0x0B05 c 0 [] (mramWrite dst (msBytes (w.drop 1)) (pays n s)))) ∧
        (d.sec.chunks = [] → b.got < n → exec (.fwChunk c w) s = .next (answer 0x0B05 c 0 []
          (wants n (withDev s (d.setSec { d.sec with chunks := [(dst, msBytes (w.drop 1))] }))))) ∧
        exec (.fwChunk c w) s = .next (answer 0x0B05 c 0 []
          (fwDrain (withDev s (d.setSec { d.sec with chunks := d.sec.chunks ++ [(dst, msBytes (w.drop 1))] }))))))) ∧
    (bit (wordAt w 0) 4 = false → w ≠ [] → Accepted 0x0B06 c w s → d.mode = .standby → bits (wordAt w 0) 1 0 = k →
      (d.sec.session = none → exec (.fwVerify c w) s = .next (answer 0x0B06 c 3 [] s)) ∧
      (d.sec.session = some x → (let t := chunksWritten s
        let e := t.dev
        (d.sec.chunks = [] → t = s) ∧
        (k ≠ x.kind → exec (.fwVerify c w) s = .next (answer 0x0B06 c 5 [] t)) ∧
        (k = x.kind → (Config.sha384 (slotBytes t.mem k 0 0 x.total) ≠ x.hash ∨ headerOk k (slotBytes t.mem k 0 0 256) = false ∨ imageSigned t.mem k 0 e = false) →
          exec (.fwVerify c w) s = .next (answer 0x0B06 c 6 [] (withDev t (count1 (R.SEC_COUNT 2) e)))) ∧
        (k = x.kind → Config.sha384 (slotBytes t.mem k 0 0 x.total) = x.hash → headerOk k (slotBytes t.mem k 0 0 256) = true → imageSigned t.mem k 0 e = true →
          (imageVersion t.mem k 0 < e.sec.rollback.getD (k - 1) 0 →
            exec (.fwVerify c w) s = .next (answer 0x0B06 c 9 [] (withDev t (count1 (R.SEC_COUNT 2) e)))) ∧
          (e.sec.rollback.getD (k - 1) 0 ≤ imageVersion t.mem k 0 →
            exec (.fwVerify c w) s = .next (answer 0x0B06 c 0 [] (withDev t (wearRecord (e.setSec { e.sec with
              session := none, trial := kset e.sec.trial k 0, applyDue := e.sec.applyDue || bit (wordAt w 0) 8 }))))))))) ∧
    (bit (wordAt w 0) 4 = true → w ≠ [] → Accepted 0x0B06 c w s → d.mode = .standby → bits (wordAt w 0) 1 0 = k →
      ((k = 0 ∨ kfind d.sec.trial k = none ∨ d.sec.run.getD (k - 1) none ≠ some 0) → exec (.fwCommit c w) s = .next (answer 0x0B06 c 5 [] s)) ∧
      (k ≠ 0 → (kfind d.sec.trial k).isSome = true → d.sec.run.getD (k - 1) none = some 0 → exec (.fwCommit c w) s =
        .next (answer 0x0B06 c 0 [] (withDev s (wearRecord (d.setSec { d.sec with
          rollback := d.sec.rollback.set (k - 1) (max (d.sec.rollback.getD (k - 1) 0) (imageVersion s.mem k 0))
          trial := kdel d.sec.trial k, copying := some k })))))) ∧
    (d.sec.copying = none → exec .fwCommitCopyDone s = .next s) ∧
    (d.sec.copying = some k → (let n := 16 * ((imageBytes s.mem k 0 + 15) / 16)
      let p := pays n s
      let t := mramWrite (slotBase k 1) (slotBytes s.mem k 0 0 (imageBytes s.mem k 0)) p
      (b.got < n → exec .fwCommitCopyDone s = .next (wants n s)) ∧
      (n ≤ b.got → exec .fwCommitCopyDone s = .next (withDev t (raise E.SEC_FW_COMMITTED [] (t.dev.setSec { t.dev.sec with copying := none })))))) ∧
    (d.sec.applyDue = false → exec .activateReset s = .next s) ∧
    (d.sec.applyDue = true → exec .activateReset s = .next (withDev s (resetDev false 1 d))))

/-- Worlds and the debug port (R475, R490, R491): the secure page writes the world map, of a locked descriptor nothing, with the event; an
IEEE 1149.1 instruction without its scope does nothing, with it it halts, resumes or drives the pins; a message over the port that is no
DEBUG_CHALLENGE, or that Horef cannot serve, changes nothing, and a challenge is answered at the port.
Completes: worldMapWrite, debugPortAccess, jtagSecMsg.

The model's choices that this rests on: log entries 23, 114, 128, 154. -/
def Obligations.WorldsAndDebug : Prop :=
  ∀ (s : State) (v : Word) (r a : Nat) (words : List Word), r < 64 →
    (let d := s.dev
    exec (.worldMapWrite 0x8000 v) s = .next (withDev s (d.setReg R.SEC_WORLD_LO v)) ∧
    exec (.worldMapWrite 0x8004 v) s = .next (withDev s (d.setReg R.SEC_WORLD_HI (v &&& 0xF))) ∧
    (d.is (F.SEC_REGION_ATTR_LOCK r) = true → ∀ o, o = 0 ∨ o = 4 ∨ o = 8 →
      exec (.worldMapWrite (0x8100 + 16 * r + o) v) s = .next (withDev s (raise E.SEC_LOCKED_WRITE [] d))) ∧
    (d.is (F.SEC_REGION_ATTR_LOCK r) = false →
      exec (.worldMapWrite (0x8100 + 16 * r) v) s = .next (withDev s (d.setReg (R.SEC_REGION_BASE r) (v &&& 0x0FFFFFFF))) ∧
      exec (.worldMapWrite (0x8104 + 16 * r) v) s = .next (withDev s (d.setReg (R.SEC_REGION_LIMIT r) (v &&& 0x0FFFFFFF))) ∧
      exec (.worldMapWrite (0x8108 + 16 * r) v) s = .next (withDev s (d.setReg (R.SEC_REGION_ATTR r) (v &&& 0xF0000000)))) ∧
    exec (.debugPortAccess .basic) s = .next (withDev s { d with rdata := [0x1B0649AB] }) ∧
    (d.scope 0 = false → exec (.debugPortAccess (.extest v)) s = .next s) ∧
    (d.scope 0 = true → exec (.debugPortAccess (.extest v)) s = .next (withDev s (d.setSec { d.sec with extest := some v }))) ∧
    (d.scope 1 = false → d.scope 3 = false → exec (.debugPortAccess .resume) s = .next s ∧ exec (.debugPortAccess (.halt true)) s = .next s ∧
      exec (.debugPortAccess (.halt false)) s = .next s ∧ exec (.debugPortAccess (.read a)) s = .next s ∧ exec (.debugPortAccess (.write a v)) s = .next s) ∧
    (d.scope 1 = true → d.scope 3 = false → exec (.debugPortAccess (.halt true)) s = .next s ∧
      exec (.debugPortAccess (.halt false)) s = .next (withDev s (d.setSec { d.sec with halted := true })) ∧
      exec (.debugPortAccess .resume) s = .next (withDev s (d.setSec { d.sec with halted := false }))) ∧
    ((words.length < 2 ∨ hdrId (wordAt words 0) ≠ 0x0B07 ∨ d.horefRuns = false) → exec (.jtagSecMsg words) s = .next s) ∧
    (2 ≤ words.length → hdrId (wordAt words 0) = 0x0B07 → d.horefRuns = true → ∃ (st : Nat) (out : List Word) (e : Dev),
      exec (.jtagSecMsg words) s = .next (withDev s { e with rdata := responseTo (wordAt words 0) (wordAt words 1) st out e })))

/-- SAFE and the scan (R340, R341, R350): SAFE_ACK is DENIED and counted outside SAFE, with a hold, a latched trip, a demand or fewer than two
voting lanes, NOT_CONFIRMED without a GPB, and else clears the cause and leaves SAFE at the next boundary; a window that waits for the bias
opens once every masked channel that is not held has reached its target, and ends after STEP_TURNS turns with its items and the next
step. Completes: safeAck, scanWindowOpen, scanStepEnd.

The model's choices that this rests on: log entries 111, 112. -/
def Obligations.SafeAndScan : Prop :=
  ∀ (s : State) (c : MsgCtx) (w : List Word) (r : ScanRun),
    (let d := s.dev
    (Accepted 0x0006 c w s →
      ((d.mode ≠ .safe ∨ d.flt.holds ≠ [] ∨ d.reg R.GRD_TRIP_LATCHED ≠ 0 ∨ d.is F.GRD_TRIP_ACTIVE_DEMAND = true ∨ d.guardVotes < 2) →
        exec (.safeAck c w) s = .next (answer 0x0006 c 3 [] (withDev s (count1 (R.PWR_COUNT 2) d)))) ∧
      (d.mode = .safe → d.flt.holds = [] → d.reg R.GRD_TRIP_LATCHED = 0 → d.is F.GRD_TRIP_ACTIVE_DEMAND = false → 2 ≤ d.guardVotes →
        (d.grd.gpb = none → exec (.safeAck c w) s = .next (answer 0x0006 c 7 [] s)) ∧
        (d.grd.gpb.isSome = true → exec (.safeAck c w) s =
          .next (answer 0x0006 c 0 [] (withDev s ((d.setPwr { d.pwr with exitOk := true }).put F.PWR_STATUS_SAFE_CAUSE 0)))))) ∧
    (d.pwr.scan = none → exec .scanWindowOpen s = .next s ∧ exec .scanStepEnd s = .next s) ∧
    (d.pwr.scan = some r →
      (r.window = true → exec .scanWindowOpen s = .next s) ∧
      (r.window = false → (∀ n, n < 64 → d.scanMasked n = true → d.biasHeld n = true ∨ d.get (F.AFE_BTRIM_OUT_OUT n) = d.get (F.AFE_BTRIM_OUT_TARGET n)) →
        exec .scanWindowOpen s = .next (withDev s ((d.setPwr { d.pwr with scan := some { r with window := true, held := d.scanHeld } }).put F.PWR_SCAN_STATUS_WAIT_SLEW 0))) ∧
      (r.window = false → (∃ n, n < 64 ∧ d.scanMasked n = true ∧ d.biasHeld n = false ∧ d.get (F.AFE_BTRIM_OUT_OUT n) ≠ d.get (F.AFE_BTRIM_OUT_TARGET n)) →
        exec .scanWindowOpen s = .next s) ∧
      ((r.window = false ∨ r.turns < d.get F.PWR_SCAN_CFG_STEP_TURNS) → exec .scanStepEnd s = .next s) ∧
      (let e := scanEmit false r d
      r.window = true → d.get F.PWR_SCAN_CFG_STEP_TURNS ≤ r.turns →
        (r.k + 1 < e.scanSteps → exec .scanStepEnd s = .next (withDev s (scanStep (r.k + 1) e))) ∧
        (e.scanSteps ≤ r.k + 1 → exec .scanStepEnd s = .next (withDev s (raise E.PWR_SCAN_DONE [] ((scanEnd e).put F.PWR_SCAN_STATUS_DONE 1)))))))

/-- Resets (R343, R344, R466, R467, R486, R487): every reset puts the mode to BOOT, abandons what was under way, empties slots and FIFOs and
adds its bit to RESET_CAUSE, a power-on reset alone clearing the others; ST, the fuses and what MRAM holds stay; the hold of an element whose
test is abandoned stays in force over any reset but a power-on reset (the model's reading, log entry 148). A watchdog reset needs its time
to have passed, and it and a lockstep mismatch record KIND, LT and the program counter and add an attempt to a TRIAL slot that runs.
Completes: powerOnReset, resetNAssert, porRelease, lockstepMismatch, watchdogExpire.

BOOT (R345, R346, R383, R395, R483, R487): each command acts in its own step of BOOT and in no other; a released reset starts the boot
ROM at local turn 0; no REFCLK stops with BOOT_ERR 1; the SRAMs are cleared; a TRIAL slot with three attempts is reverted first; then a
slot A that verifies runs, and a monitor of which no slot verifies stops BOOT with BOOT_ERR 2; the trained SDRAM fixes SDRAM_GIB and the
queue store; the last boundary of BOOT begins STANDBY, or SAFE where a cause waits.
Completes: resetRelease, noRefclkTimeout, bootPllLock, bootSramInitDone, bootMonitorVerify, bootHorefVerify, bootUserVerify,
bootSdramTrainDone, bootEnd.

The model's choices that this rests on: log entries 4, 5, 57, 108, 109, 110, 148. -/
def Obligations.ResetsAndBoot : Prop :=
  (∀ (s : State) (pc : Word),
    (let d := s.dev
    let clean (d e : Dev) : Prop := e.mode = .boot ∧ e.pwr.boot = .inReset ∧ e.commit = {} ∧ e.fifos = [] ∧ e.out = [] ∧ e.shadow = [] ∧
      e.grd.stored = d.grd.stored ∧ e.mon.stored = d.mon.stored ∧ e.sec.ownerHash = d.sec.ownerHash ∧ e.sec.bankUsed = d.sec.bankUsed ∧
      e.sec.rollback = d.sec.rollback ∧ e.sec.trial = d.sec.trial ∧ e.ram.wear = d.ram.wearKept ∧ e.ram.wearKept = d.ram.wearKept
    let held (d e : Dev) : Prop := e.flt.holds = heldTests d ∧ e.safeReq = (if heldTests d = [] then 0 else 4)
    (∃ e, exec .powerOnReset s = .next (withDev s e) ∧ clean d e ∧ e.pwr.porHeld = true ∧ e.reg R.PWR_RESET_CAUSE = 1 ∧ e.time.st = d.time.stMram ∧
      e.reg R.FLT_RESET_FAULT_KIND = 0 ∧ e.flt.holds = [] ∧ e.safeReq = 0) ∧
    (∃ e, exec .resetNAssert s = .next (withDev s e) ∧ clean d e ∧ held d e ∧ e.reg R.PWR_RESET_CAUSE = setBits (d.reg R.PWR_RESET_CAUSE) 1 1 1 ∧
      e.time.st = d.time.st ∧ e.reg R.FLT_RESET_FAULT_KIND = d.reg R.FLT_RESET_FAULT_KIND ∧ e.is F.TIME_STATUS_ST_VALID = d.is F.TIME_STATUS_ST_VALID) ∧
    exec .porRelease s = .next (withDev s (d.setPwr { d.pwr with porHeld := false })) ∧
    (d.sec.trial = [] → trialAttempt d = d) ∧
    (∀ k n, d.sec.trial = [(k, n)] → 1 ≤ k → k ≤ 3 → d.sec.run.getD (k - 1) none = some 0 → (trialAttempt d).sec.trial = [(k, n + 1)]) ∧
    (let d0 := trialAttempt d
    (∃ e, exec (.lockstepMismatch pc) s = .next (withDev s e) ∧ clean d0 e ∧ held d0 e ∧ e.reg R.PWR_RESET_CAUSE = setBits (d0.reg R.PWR_RESET_CAUSE) 3 3 1 ∧
        e.reg R.FLT_RESET_FAULT_KIND = 0x11 ∧ e.reg R.FLT_RESET_FAULT_LT = d0.lt ∧ e.reg R.FLT_RESET_FAULT_PC = pc ∧ e.flt.resetFault = true) ∧
      (d.wdogRuns = true → d.wdogPeriod ≤ d.flt.sinceKick → ∃ e, exec (.watchdogExpire pc) s = .next (withDev s e) ∧ clean d0 e ∧ held d0 e ∧
        e.reg R.PWR_RESET_CAUSE = setBits (d0.reg R.PWR_RESET_CAUSE) 2 2 1 ∧ e.reg R.FLT_RESET_FAULT_KIND = 0x12 ∧ e.reg R.FLT_RESET_FAULT_PC = pc ∧
        e.flt.resetFault = true)) ∧
    ((d.wdogRuns = false ∨ d.flt.sinceKick < d.wdogPeriod) → exec (.watchdogExpire pc) s = .next s))) ∧
  (∀ (s : State) (gib : Nat) (info : Word),
    (let d := s.dev
    (d.pwr.boot = .inReset → d.pwr.porHeld = false → exec .resetRelease s =
      .next (withDev s { d.setPwr { d.pwr with boot := .pll } with clk := d.clk.moveTo 0 0 })) ∧
    ((d.pwr.boot ≠ .inReset ∨ d.pwr.porHeld = true) → exec .resetRelease s = .next s) ∧
    (d.pwr.boot ≠ .pll → exec .noRefclkTimeout s = .next s ∧ exec .bootPllLock s = .next s) ∧
    (d.pwr.boot ≠ .sram → exec .bootSramInitDone s = .next s) ∧ (d.pwr.boot ≠ .monitor → exec .bootMonitorVerify s = .next s) ∧
    (d.pwr.boot ≠ .horef → exec .bootHorefVerify s = .next s) ∧ (d.pwr.boot ≠ .user → exec .bootUserVerify s = .next s) ∧
    (d.pwr.boot ≠ .sdram → exec (.bootSdramTrainDone gib info) s = .next s) ∧ (d.pwr.boot ≠ .finish → exec .bootEnd s = .next s) ∧
    (d.pwr.boot = .pll → exec .noRefclkTimeout s = .next (withDev s ((d.setPwr { d.pwr with boot := .stuck }).put F.PWR_STATUS_BOOT_ERR 1)) ∧
      exec .bootPllLock s = .next (withDev s (((d.setPwr { d.pwr with boot := .sram }).setReg R.PWR_FEATURES Config.features).put F.PWR_FEATURES_SDRAM_GIB 0))) ∧
    (d.pwr.boot = .sram → ∃ m, exec .bootSramInitDone s = .next { s with dev := d.setPwr { d.pwr with boot := .monitor }, mem := m } ∧
      (∀ a, 0x40000000 ≤ a → memGet m a = memGet s.mem a) ∧ (∀ x ∈ m, 0x40000000 ≤ x.1)) ∧
    (∀ kind, kfind d.sec.trial kind = none → trialRevert kind s = s) ∧
    (∀ kind n, kfind d.sec.trial kind = some n → n < 3 → trialRevert kind s = s) ∧
    (d.sec.run.length = 3 →
      (let t := trialRevert 1 s
      d.pwr.boot = .monitor → ∃ e, exec .bootMonitorVerify s = .next (withDev t e) ∧
        (slotVerifies t.mem 1 0 t.dev = true → e.pwr.boot = .horef ∧ e.sec.run.getD 0 none = some 0) ∧
        (slotVerifies t.mem 1 0 t.dev = false → slotVerifies t.mem 1 1 t.dev = true → e.pwr.boot = .horef ∧ e.sec.run.getD 0 none = some 1) ∧
        (slotVerifies t.mem 1 0 t.dev = false → slotVerifies t.mem 1 1 t.dev = false →
          e.pwr.boot = .stuck ∧ e.get F.PWR_STATUS_BOOT_ERR = 2 ∧ e.flt.bootAlert = true)) ∧
      (let t := trialRevert 2 s
      d.pwr.boot = .horef → ∃ e, exec .bootHorefVerify s = .next (withDev t e) ∧ e.pwr.boot = .user ∧
        (slotVerifies t.mem 2 0 t.dev = true → e.sec.run.getD 1 none = some 0) ∧
        (slotVerifies t.mem 2 0 t.dev = false → slotVerifies t.mem 2 1 t.dev = true → e.sec.run.getD 1 none = some 1) ∧
        (slotVerifies t.mem 2 0 t.dev = false → slotVerifies t.mem 2 1 t.dev = false →
          e.get F.PWR_STATUS_BOOT_ERR = 3 ∧ e.is F.PWR_STATUS_RECOVERY = true)) ∧
      (let t := trialRevert 3 s
      d.pwr.boot = .user → ∃ e, exec .bootUserVerify s = .next (withDev t e) ∧
        e.pwr.boot = (if t.dev.is F.PWR_FEATURES_SDRAM then .sdram else .finish) ∧
        (slotVerifies t.mem 3 0 t.dev = true → e.sec.run.getD 2 none = some 0) ∧
        (slotVerifies t.mem 3 0 t.dev = false → slotVerifies t.mem 3 1 t.dev = true → e.sec.run.getD 2 none = some 1) ∧
        (slotVerifies t.mem 3 0 t.dev = false → slotVerifies t.mem 3 1 t.dev = false → e.sec.run.getD 2 none = none))) ∧
    (d.pwr.boot = .sdram → gib ≤ 32 → ∃ t, exec (.bootSdramTrainDone gib info) s = .next t ∧ t.dev.pwr.boot = .finish ∧ t.dev.get F.PWR_FEATURES_SDRAM_GIB = gib ∧
      t.dev.get F.MEM_STATUS_SDRAM_OK = (if gib = 0 then 0 else 1) ∧ t.dev.get F.TQ_STATUS_STORE = (if gib = 0 then 1 else 0) ∧
      t.dev.reg R.TQ_AREA_PAGES = toWord (if gib = 0 then 1024 else areaPages gib)) ∧
    (d.pwr.boot = .finish → (let b := bootBoundary (refclkPass 4096 d)
      ∃ e, exec .bootEnd s = .next (withDev s e) ∧ e.pwr.boot = .ended ∧ e.pwr.bootTurns = d.pwr.bootTurns + 1 ∧
        e.clk.turn = (d.clk.turn + 1) % 2 ^ 48 ∧ e.mode = (if b.safeReq = 0 then .standby else .safe) ∧ e.sec.bootFails = []))))

/-- Channel commands of the DMA (R355, R369): KICK starts an idle channel and is DENIED on a halted one; RESUME starts a halted channel and is
DENIED on any other; RESET takes an idle or halted one to IDLE with HEAD 0 and is BUSY on any other; ABORT ends the descriptor in
progress with ABORTED and of an idle or halted channel nothing. Each shows its status and touches no other channel.
Completes: dmaKick, dmaResume, dmaReset, dmaAbort.

Fetch, bursts and completion (R354, R357, R358, R362, R368): only a running channel without a descriptor fetches; a fetch whose budget is
not granted waits; a descriptor whose OWN is 0 leaves the channel IDLE, one that breaks a rule ends BAD_DESC; no burst moves without a
descriptor; a burst that its channel may issue writes what it read and moves on by its bytes; a descriptor not yet done does not complete;
a done one has its status words written and advances HEAD. Completes: descriptorFetch, dmaBurst, descriptorComplete.

The model's choices that this rests on: log entries 86, 87, 88. -/
def Obligations.DmaChannels : Prop :=
  (∀ (s : State) (c : Nat) (l : List Word), c < 16 →
    (let d := s.dev
    let st := d.get (F.DMA_CH_STATE_STATE c)
    let res (n : Nat) (d : Dev) : Dev := d.put (F.DMA_CH_STATE_CMD_RESULT c) n
    let fetch : Dev := (d.put (F.DMA_CH_STATE_STATE c) 1).setDmaCh c { d.dmaCh c with desc := none, err := none, abort := false }
    (st = 0 → exec (.dmaKick c) s = .next (withDev s (res 0 fetch))) ∧
    (st = 3 → exec (.dmaKick c) s = .next (withDev s (res 3 d))) ∧
    (st ≠ 0 → st ≠ 3 → exec (.dmaKick c) s = .next (withDev s (res 0 d))) ∧
    (st = 3 → exec (.dmaResume c) s = .next (withDev s (res 0 fetch))) ∧
    (st ≠ 3 → exec (.dmaResume c) s = .next (withDev s (res 3 d))) ∧
    ((st = 0 ∨ st = 3) → ∃ e, exec (.dmaReset c) s = .next (withDev s e) ∧ e.get (F.DMA_CH_STATE_STATE c) = 0 ∧ e.get (F.DMA_CH_STATE_HEAD c) = 0 ∧
      e.get (F.DMA_CH_STATE_CMD_RESULT c) = 0 ∧ ((e.dmaCh c).desc = none) ∧ ∀ j, j < 16 → j ≠ c → e.dmaCh j = d.dmaCh j ∧
        e.get (F.DMA_CH_STATE_STATE j) = d.get (F.DMA_CH_STATE_STATE j)) ∧
    (st ≠ 0 → st ≠ 3 → exec (.dmaReset c) s = .next (withDev s (res 1 d))) ∧
    ((st = 0 ∨ st = 3) → exec (.dmaAbort c) s = .next (withDev s (res 0 d))) ∧
    (st ≠ 0 → st ≠ 3 →
      ((d.dmaCh c).desc = none → exec (.dmaAbort c) s = .next (withDev s ((res 0 d).setDmaCh c { d.dmaCh c with abort := true }))) ∧
      ((d.dmaCh c).desc = some l → (d.dmaCh c).err = none → (d.dmaCh c).moved < descTotal l →
        exec (.dmaAbort c) s = .next (withDev s (endWith c 6 (d.descAddr c) 0 (res 0 d)))) ∧
      ((d.dmaCh c).desc = some l → ((d.dmaCh c).err.isSome = true ∨ descTotal l ≤ (d.dmaCh c).moved) → exec (.dmaAbort c) s = .next (withDev s (res 0 d)))))) ∧
  (∀ (s : State) (c : Nat) (corr unc : List Nat) (l : List Word) (bad : List Nat) (d1 d2 d3 : Dev) (bs : List Byte), c < 16 →
    (let d := s.dev
    let x := d.dmaCh c
    let st := d.get (F.DMA_CH_STATE_STATE c)
    ((d.dmaRuns = false ∨ st ≠ 1 ∨ x.desc.isSome = true) → exec (.descriptorFetch c corr unc) s = .next s) ∧
    (d.dmaRuns = true → st = 1 → x.desc = none → accessErr c (d.descAddr c) false d = none → noBudget (d.burstNeeds [d.descAddr c] 32) d = true →
      exec (.descriptorFetch c corr unc) s = .next (withDev s (endWith c 5 (d.descAddr c) 1 (d.setDmaCh c { x with
        desc := some (List.replicate 8 0), moved := 0, idx := [], idxFrom := 0, poisonSeen := false, notWritten := false, err := none, touched := [],
        abort := false, waiting := false })))) ∧
    (d.dmaRuns = true → st = 1 → x.desc = none → accessErr c (d.descAddr c) false d = none →
      noBudget (d.burstNeeds [d.descAddr c] 32) d = false →
      (issue c [d.descAddr c] 32 d = (false, d1) → exec (.descriptorFetch c corr unc) s = .next (withDev s d1)) ∧
      (issue c [d.descAddr c] 32 d = (true, d1) → readCheck (d.descAddr c) 32 1 (0x10 + c) corr unc d1 = (bad, d2) → fabBytes s.mem 32 (d.descAddr c) d2 = (bs, d3) →
        (bad = [] → bit (dw (leWords 8 bs) 0) 31 = false → exec (.descriptorFetch c corr unc) s =
          .next (withDev s ((d3.put (F.DMA_CH_STATE_STATE c) 0).setDmaCh c { d3.dmaCh c with abort := false, waiting := false }))) ∧
        (bad = [] → bit (dw (leWords 8 bs) 0) 31 = true → (let q : Dev := d3.setDmaCh c { d3.dmaCh c with
            desc := some (leWords 8 bs), moved := 0, idx := [], idxFrom := 0, poisonSeen := false, notWritten := false, err := none, touched := [], abort := false, waiting := false }
          (descBad c (leWords 8 bs) d3 = true → exec (.descriptorFetch c corr unc) s = .next (withDev s (endWith c 1 (d.descAddr c) 1 q))) ∧
          (descBad c (leWords 8 bs) d3 = false → x.abort = false → exec (.descriptorFetch c corr unc) s = .next (withDev s q)))))) ∧
    ((x.desc = none ∨ d.dmaRuns = false ∨ (st ≠ 1 ∧ st ≠ 2) ∨ x.err.isSome = true ∨ (x.desc = some l ∧ descTotal l ≤ x.moved)) →
      exec (.dmaBurst c corr unc) s = .next s) ∧
    (d.dmaRuns = true → st = 1 → x.desc = some l → x.err = none → x.moved < descTotal l → descGather l = false → d.get (F.DMA_CH_CFG_REQ_SEL c) = 0 →
      (let src := descSrc l + x.moved
      let dst := descDst l + x.moved
      let n := min (min (descTotal l - x.moved) (d.burstLen c)) (min (toPage src) (toPage dst))
      let n := if swapBytes (descSwap l) ≤ n then n - n % swapBytes (descSwap l) else n
      let e := d.put (F.DMA_CH_STATE_STATE c) 1
      let needs := e.burstNeeds [src, dst] n
      exec (.dmaBurst c corr unc) s = .next (dataBurst c src dst n l corr unc (withDev s e)) ∧
      (accessErr c src false e = none → accessErr c dst true e = none → unbudgeted c needs e = false →
        (issue c [src, dst] n e = (false, d1) → exec (.dmaBurst c corr unc) s = .next (withDev s d1)) ∧
        (issue c [src, dst] n e = (true, d1) → readCheck src n 1 (0x10 + c) corr unc (touch c needs d1) = ([], d2) → fabBytes s.mem n src d2 = (bs, d3) →
          exec (.dmaBurst c corr unc) s = .next (landBurst c x.moved l bs (List.replicate n false) (withDev s (d3.setDmaCh c { d3.dmaCh c with
            moved := (e.dmaCh c).moved + n, poisonSeen := (e.dmaCh c).poisonSeen, notWritten := (e.dmaCh c).notWritten || d2.neverWritten src })))))) ) ∧
    ((x.desc = none ∨ d.dmaRuns = false ∨ (x.desc = some l ∧ x.err = none ∧ x.moved < descTotal l)) → exec (.descriptorComplete c) s = .next s) ∧
    (d.dmaRuns = true → x.desc = some l → x.err = none → descTotal l ≤ x.moved → accessErr c (d.descAddr c) true d = none →
      issue c [d.descAddr c] 8 d = (true, d1) → (let st := pack32 [(31, 28, 0), (27, 27, b2n x.poisonSeen), (26, 26, b2n x.notWritten), (25, 0, x.moved)]
        let t := fabWrite (d.descAddr c) (word32Bytes (setBits (dw l 0) 31 31 0)) [] 2 (0x10 + c)
          (fabWrite (d.descAddr c + 28) (word32Bytes st) [] 2 (0x10 + c) (withDev s d1))
        let e := if bit (dw l 0) 25 then t.dev.setReg R.DMA_DONE (setBits (t.dev.reg R.DMA_DONE) c c 1) else t.dev
        let e := (count1 (R.DMA_CH_COUNT c 0) e).put (F.DMA_CH_STATE_LAST_ERR c) 0
        let e := e.setDmaCh c { e.dmaCh c with desc := none, err := none, waiting := false, abort := false }
        exec (.descriptorComplete c) s = .next (withDev t ((e.put (F.DMA_CH_STATE_HEAD c) ((e.get (F.DMA_CH_STATE_HEAD c) + 1) % 2 ^ e.ringLog c)).put
          (F.DMA_CH_STATE_STATE c) 1))))))

/-- Memory protection (R382, R385, R387 to R391, R393): no scrub step in BOOT or TEST, or of a memory whose scrubber is off; one that is not
granted its pip of 16 ct requests it, and one that corrects in SDRAM or MRAM needs a second; a granted step reads its units and goes on
behind them; a bucket leaks by one in a turn that 2^LEAK_LOG2 divides, never below 0; the late sweep is reported once; a row copy and the
rebuild of the free list end once their pips are granted; FLIP_CTRL arms; a flush empties the FIFOs of its class alone.
Completes: scrubStep, bucketLeak, sweepLate, rowCopyDone, flipArm, fifoFlush, freeListRebuild.

The model's choices that this rests on: log entries 82, 83, 84, 89, 133, 153. -/
def Obligations.MemoryProtection : Prop :=
  ∀ (s : State) (m f cls r : Nat) (corr unc : List Nat) (v : Word), f < 10 →
    (let d := s.dev
    let want (x a n : Nat) : Dev := d.setBudAct x a { d.budAct x a with want := max (d.budAct x a).want (n - (d.budAct x a).got) }
    let paid (x a n : Nat) : Dev := d.setBudAct x a { d.budAct x a with got := (d.budAct x a).got - n }
    ((d.mode = .boot ∨ d.mode = .test) → exec (.scrubStep m corr unc) s = .next s) ∧
    (d.mode ≠ .boot → d.mode ≠ .test →
      ((d.is F.MEM_SCRUB_CFG_SRAM_EN = false ∨ d.ram.scrubTurn = some d.clk.bounds) → exec (.scrubStep 0 corr unc) s = .next s) ∧
      ((d.is F.MEM_SCRUB_CFG_SDRAM_EN = false ∨ d.sdramBytes = 0) → exec (.scrubStep 1 corr unc) s = .next s) ∧
      (d.is F.MEM_SCRUB_CFG_MRAM_EN = false → exec (.scrubStep 2 corr unc) s = .next s) ∧
      (d.is F.MEM_SCRUB_CFG_SRAM_EN = true → d.ram.scrubTurn ≠ some d.clk.bounds →
        ((d.budAct 0 0).got < 16 → exec (.scrubStep 0 corr unc) s = .next (withDev s (want 0 0 16))) ∧
        (16 ≤ (d.budAct 0 0).got → (let q := scrubPlaces (d.geomAt d.clk.turn).1 64 (d.ram.scrubPos.getD 0 0)
          let e := scrubRead (q.1.map scrubUnit).eraseDups corr unc
            { paid 0 0 16 with ram := { d.ram with scrubPos := d.ram.scrubPos.set 0 q.2, scrubTurn := some d.clk.bounds } }
          exec (.scrubStep 0 corr unc) s = .next (withDev s (if scrubBytes ≤ q.2 then sweepDone 0 e else e))))) ∧
      (d.is F.MEM_SCRUB_CFG_SDRAM_EN = true → d.sdramBytes ≠ 0 → (let n := if corr = [] then 16 else 32
        ((d.budAct 1 0).got < n → exec (.scrubStep 1 corr unc) s = .next (withDev s (want 1 0 n))) ∧
        (n ≤ (d.budAct 1 0).got → ∃ e, exec (.scrubStep 1 corr unc) s = .next (withDev s e) ∧ e.clk = d.clk ∧ e.commit = d.commit ∧
          (e.budAct 1 0).got = (d.budAct 1 0).got - n))) ∧
      (d.is F.MEM_SCRUB_CFG_MRAM_EN = true → (let n := if corr = [] then 16 else 32
        let pos := d.ram.scrubPos.getD 2 0
        let e := scrubRead ((List.range 8).map (fun i => (9, pos / 8 + i))) corr unc (paid 2 0 n)
        let f : Dev := { e with ram := { e.ram with scrubPos := e.ram.scrubPos.set 2 (pos + 64) } }
        ((d.budAct 2 0).got < n → exec (.scrubStep 2 corr unc) s = .next (withDev s (want 2 0 n))) ∧
        (n ≤ (d.budAct 2 0).got → exec (.scrubStep 2 corr unc) s = .next (withDev s (if 0x1000000 ≤ pos + 64 then sweepDone 2 f else f)))))) ∧
    (d.clk.turn % 2 ^ d.get (F.MEM_BUCKET_CFG_LEAK_LOG2 f) ≠ 0 → exec (.bucketLeak f) s = .next s) ∧
    (d.clk.turn % 2 ^ d.get (F.MEM_BUCKET_CFG_LEAK_LOG2 f) = 0 → exec (.bucketLeak f) s =
      .next (withDev s (d.lput (F.MEM_BUCKET_LEVEL_LEVEL f) (d.lget (F.MEM_BUCKET_LEVEL_LEVEL f) - 1)))) ∧
    (let n := d.clk.bounds - d.ram.scrubStart.getD 0 0
    ((n < 390625 ∨ d.ram.late = true) → exec .sweepLate s = .next s) ∧
    (390625 ≤ n → d.ram.late = false → exec .sweepLate s =
      .next (withDev s (raise E.MEM_SWEEP_LATE [] (count1 (R.MEM_COUNT 2) { d with ram := { d.ram with late := true } }))))) ∧
    ((∀ x ∈ d.ram.rows, x.2 ≠ .copying) → exec .rowCopyDone s = .next s) ∧
    (d.ram.rows = [(r, .copying)] → (let n := 16 * ((4096 * (Config.rowPages r).length + 639) / 640)
      ((d.budAct 1 3).got < n → exec .rowCopyDone s = .next (withDev s (want 1 3 n))) ∧
      (n ≤ (d.budAct 1 3).got → exec .rowCopyDone s = .next (withDev s { paid 1 3 n with ram := { d.ram with rows := [(r, .copied)] } })))) ∧
    (∃ e, exec (.flipArm v) s = .next (withDev s e) ∧ e.get F.MEM_FLIP_CTRL_FAMILY = bits v 3 0 ∧
      (bit v 31 = true → e.is F.MEM_FLIP_CTRL_ARM = true) ∧ (bit v 31 = false → e.is F.MEM_FLIP_CTRL_ARM = d.is F.MEM_FLIP_CTRL_ARM)) ∧
    (cls ∉ d.ram.flush → exec (.fifoFlush cls) s = .next s) ∧
    (cls ∈ d.ram.flush → ∃ e, exec (.fifoFlush cls) s = .next (withDev s e) ∧ cls ∉ e.ram.flush ∧
      (cls = 2 → e.fifos = d.fifos ∧ e.time.txts = d.time.txts.map (fun _ => [])) ∧
      (cls = 0 → e.time = d.time ∧ e.fifos = d.fifos.map (fun p => if p.1 % 2 = 0 ∧ p.1 ≤ 128 then (p.1, []) else p)) ∧
      (cls = 1 → e.time = d.time ∧ e.fifos = d.fifos.map (fun p => if p.1 % 2 = 1 ∧ p.1 < 128 then (p.1, []) else p))) ∧
    ((d.budAct 0 6).got < 16384 → exec .freeListRebuild s = .next (withDev s (want 0 6 16384))) ∧
    (16384 ≤ (d.budAct 0 6).got → exec .freeListRebuild s = .next (withDev s { paid 0 6 16384 with ram := { d.ram with leaked := [] } })))
end

