-- ==== Sys2Proof/Laws/State.lean ====
section
/-! SUPPORT. What each update of the block leaves alone and what it sets: one lemma for each field of Dev under each named
update, true by definition. -/

namespace Sys2Proof.Machine

/-! ### setReg -/

@[simp] theorem Dev.setReg_clk (d : Dev) (k : Nat) (w : Word) : (d.setReg k w).clk = d.clk := rfl
@[simp] theorem Dev.setReg_regs (d : Dev) (k : Nat) (w : Word) : (d.setReg k w).regs = kset d.regs k w := rfl
@[simp] theorem Dev.setReg_shadow (d : Dev) (k : Nat) (w : Word) : (d.setReg k w).shadow = d.shadow := rfl
@[simp] theorem Dev.setReg_live (d : Dev) (k : Nat) (w : Word) : (d.setReg k w).live = d.live := rfl
@[simp] theorem Dev.setReg_commit (d : Dev) (k : Nat) (w : Word) : (d.setReg k w).commit = d.commit := rfl
@[simp] theorem Dev.setReg_bud (d : Dev) (k : Nat) (w : Word) : (d.setReg k w).bud = d.bud := rfl
@[simp] theorem Dev.setReg_ev (d : Dev) (k : Nat) (w : Word) : (d.setReg k w).ev = d.ev := rfl
@[simp] theorem Dev.setReg_flt (d : Dev) (k : Nat) (w : Word) : (d.setReg k w).flt = d.flt := rfl
@[simp] theorem Dev.setReg_out (d : Dev) (k : Nat) (w : Word) : (d.setReg k w).out = d.out := rfl
@[simp] theorem Dev.setReg_outShort (d : Dev) (k : Nat) (w : Word) : (d.setReg k w).outShort = d.outShort := rfl
@[simp] theorem Dev.setReg_fifos (d : Dev) (k : Nat) (w : Word) : (d.setReg k w).fifos = d.fifos := rfl
@[simp] theorem Dev.setReg_rdata (d : Dev) (k : Nat) (w : Word) : (d.setReg k w).rdata = d.rdata := rfl
@[simp] theorem Dev.setReg_free (d : Dev) (k : Nat) (w : Word) : (d.setReg k w).free = d.free := rfl
@[simp] theorem Dev.setReg_latches (d : Dev) (k : Nat) (w : Word) : (d.setReg k w).latches = d.latches := rfl
@[simp] theorem Dev.setReg_chipId (d : Dev) (k : Nat) (w : Word) : (d.setReg k w).chipId = d.chipId := rfl
@[simp] theorem Dev.setReg_safeReq (d : Dev) (k : Nat) (w : Word) : (d.setReg k w).safeReq = d.safeReq := rfl
@[simp] theorem Dev.setReg_time (d : Dev) (k : Nat) (w : Word) : (d.setReg k w).time = d.time := rfl
@[simp] theorem Dev.setReg_afe (d : Dev) (k : Nat) (w : Word) : (d.setReg k w).afe = d.afe := rfl
@[simp] theorem Dev.setReg_tdc (d : Dev) (k : Nat) (w : Word) : (d.setReg k w).tdc = d.tdc := rfl
@[simp] theorem Dev.setReg_lost (d : Dev) (k : Nat) (w : Word) : (d.setReg k w).lost = d.lost := rfl
@[simp] theorem Dev.setReg_cap (d : Dev) (k : Nat) (w : Word) : (d.setReg k w).cap = d.cap := rfl
@[simp] theorem Dev.setReg_se (d : Dev) (k : Nat) (w : Word) : (d.setReg k w).se = d.se := rfl
@[simp] theorem Dev.setReg_col (d : Dev) (k : Nat) (w : Word) : (d.setReg k w).col = d.col := rfl
@[simp] theorem Dev.setReg_cas (d : Dev) (k : Nat) (w : Word) : (d.setReg k w).cas = d.cas := rfl
@[simp] theorem Dev.setReg_tq (d : Dev) (k : Nat) (w : Word) : (d.setReg k w).tq = d.tq := rfl
@[simp] theorem Dev.setReg_outCtl (d : Dev) (k : Nat) (w : Word) : (d.setReg k w).outCtl = d.outCtl := rfl
@[simp] theorem Dev.setReg_lnk (d : Dev) (k : Nat) (w : Word) : (d.setReg k w).lnk = d.lnk := rfl
@[simp] theorem Dev.setReg_mbx (d : Dev) (k : Nat) (w : Word) : (d.setReg k w).mbx = d.mbx := rfl
@[simp] theorem Dev.setReg_pwr (d : Dev) (k : Nat) (w : Word) : (d.setReg k w).pwr = d.pwr := rfl
@[simp] theorem Dev.setReg_dma (d : Dev) (k : Nat) (w : Word) : (d.setReg k w).dma = d.dma := rfl
@[simp] theorem Dev.setReg_ram (d : Dev) (k : Nat) (w : Word) : (d.setReg k w).ram = d.ram := rfl
@[simp] theorem Dev.setReg_mon (d : Dev) (k : Nat) (w : Word) : (d.setReg k w).mon = d.mon := rfl
@[simp] theorem Dev.setReg_grd (d : Dev) (k : Nat) (w : Word) : (d.setReg k w).grd = d.grd := rfl
@[simp] theorem Dev.setReg_sec (d : Dev) (k : Nat) (w : Word) : (d.setReg k w).sec = d.sec := rfl

/-! ### setShadow -/

@[simp] theorem Dev.setShadow_clk (d : Dev) (k : Nat) (w : Word) : (d.setShadow k w).clk = d.clk := rfl
@[simp] theorem Dev.setShadow_regs (d : Dev) (k : Nat) (w : Word) : (d.setShadow k w).regs = d.regs := rfl
@[simp] theorem Dev.setShadow_shadow (d : Dev) (k : Nat) (w : Word) : (d.setShadow k w).shadow = kset d.shadow k w := rfl
@[simp] theorem Dev.setShadow_live (d : Dev) (k : Nat) (w : Word) : (d.setShadow k w).live = d.live := rfl
@[simp] theorem Dev.setShadow_commit (d : Dev) (k : Nat) (w : Word) : (d.setShadow k w).commit = d.commit := rfl
@[simp] theorem Dev.setShadow_bud (d : Dev) (k : Nat) (w : Word) : (d.setShadow k w).bud = d.bud := rfl
@[simp] theorem Dev.setShadow_ev (d : Dev) (k : Nat) (w : Word) : (d.setShadow k w).ev = d.ev := rfl
@[simp] theorem Dev.setShadow_flt (d : Dev) (k : Nat) (w : Word) : (d.setShadow k w).flt = d.flt := rfl
@[simp] theorem Dev.setShadow_out (d : Dev) (k : Nat) (w : Word) : (d.setShadow k w).out = d.out := rfl
@[simp] theorem Dev.setShadow_outShort (d : Dev) (k : Nat) (w : Word) : (d.setShadow k w).outShort = d.outShort := rfl
@[simp] theorem Dev.setShadow_fifos (d : Dev) (k : Nat) (w : Word) : (d.setShadow k w).fifos = d.fifos := rfl
@[simp] theorem Dev.setShadow_rdata (d : Dev) (k : Nat) (w : Word) : (d.setShadow k w).rdata = d.rdata := rfl
@[simp] theorem Dev.setShadow_free (d : Dev) (k : Nat) (w : Word) : (d.setShadow k w).free = d.free := rfl
@[simp] theorem Dev.setShadow_latches (d : Dev) (k : Nat) (w : Word) : (d.setShadow k w).latches = d.latches := rfl
@[simp] theorem Dev.setShadow_chipId (d : Dev) (k : Nat) (w : Word) : (d.setShadow k w).chipId = d.chipId := rfl
@[simp] theorem Dev.setShadow_safeReq (d : Dev) (k : Nat) (w : Word) : (d.setShadow k w).safeReq = d.safeReq := rfl
@[simp] theorem Dev.setShadow_time (d : Dev) (k : Nat) (w : Word) : (d.setShadow k w).time = d.time := rfl
@[simp] theorem Dev.setShadow_afe (d : Dev) (k : Nat) (w : Word) : (d.setShadow k w).afe = d.afe := rfl
@[simp] theorem Dev.setShadow_tdc (d : Dev) (k : Nat) (w : Word) : (d.setShadow k w).tdc = d.tdc := rfl
@[simp] theorem Dev.setShadow_lost (d : Dev) (k : Nat) (w : Word) : (d.setShadow k w).lost = d.lost := rfl
@[simp] theorem Dev.setShadow_cap (d : Dev) (k : Nat) (w : Word) : (d.setShadow k w).cap = d.cap := rfl
@[simp] theorem Dev.setShadow_se (d : Dev) (k : Nat) (w : Word) : (d.setShadow k w).se = d.se := rfl
@[simp] theorem Dev.setShadow_col (d : Dev) (k : Nat) (w : Word) : (d.setShadow k w).col = d.col := rfl
@[simp] theorem Dev.setShadow_cas (d : Dev) (k : Nat) (w : Word) : (d.setShadow k w).cas = d.cas := rfl
@[simp] theorem Dev.setShadow_tq (d : Dev) (k : Nat) (w : Word) : (d.setShadow k w).tq = d.tq := rfl
@[simp] theorem Dev.setShadow_outCtl (d : Dev) (k : Nat) (w : Word) : (d.setShadow k w).outCtl = d.outCtl := rfl
@[simp] theorem Dev.setShadow_lnk (d : Dev) (k : Nat) (w : Word) : (d.setShadow k w).lnk = d.lnk := rfl
@[simp] theorem Dev.setShadow_mbx (d : Dev) (k : Nat) (w : Word) : (d.setShadow k w).mbx = d.mbx := rfl
@[simp] theorem Dev.setShadow_pwr (d : Dev) (k : Nat) (w : Word) : (d.setShadow k w).pwr = d.pwr := rfl
@[simp] theorem Dev.setShadow_dma (d : Dev) (k : Nat) (w : Word) : (d.setShadow k w).dma = d.dma := rfl
@[simp] theorem Dev.setShadow_ram (d : Dev) (k : Nat) (w : Word) : (d.setShadow k w).ram = d.ram := rfl
@[simp] theorem Dev.setShadow_mon (d : Dev) (k : Nat) (w : Word) : (d.setShadow k w).mon = d.mon := rfl
@[simp] theorem Dev.setShadow_grd (d : Dev) (k : Nat) (w : Word) : (d.setShadow k w).grd = d.grd := rfl
@[simp] theorem Dev.setShadow_sec (d : Dev) (k : Nat) (w : Word) : (d.setShadow k w).sec = d.sec := rfl

/-! ### setLive -/

@[simp] theorem Dev.setLive_clk (d : Dev) (k : Nat) (w : Word) : (d.setLive k w).clk = d.clk := rfl
@[simp] theorem Dev.setLive_regs (d : Dev) (k : Nat) (w : Word) : (d.setLive k w).regs = d.regs := rfl
@[simp] theorem Dev.setLive_shadow (d : Dev) (k : Nat) (w : Word) : (d.setLive k w).shadow = d.shadow := rfl
@[simp] theorem Dev.setLive_live (d : Dev) (k : Nat) (w : Word) : (d.setLive k w).live = kset d.live k w := rfl
@[simp] theorem Dev.setLive_commit (d : Dev) (k : Nat) (w : Word) : (d.setLive k w).commit = d.commit := rfl
@[simp] theorem Dev.setLive_bud (d : Dev) (k : Nat) (w : Word) : (d.setLive k w).bud = d.bud := rfl
@[simp] theorem Dev.setLive_ev (d : Dev) (k : Nat) (w : Word) : (d.setLive k w).ev = d.ev := rfl
@[simp] theorem Dev.setLive_flt (d : Dev) (k : Nat) (w : Word) : (d.setLive k w).flt = d.flt := rfl
@[simp] theorem Dev.setLive_out (d : Dev) (k : Nat) (w : Word) : (d.setLive k w).out = d.out := rfl
@[simp] theorem Dev.setLive_outShort (d : Dev) (k : Nat) (w : Word) : (d.setLive k w).outShort = d.outShort := rfl
@[simp] theorem Dev.setLive_fifos (d : Dev) (k : Nat) (w : Word) : (d.setLive k w).fifos = d.fifos := rfl
@[simp] theorem Dev.setLive_rdata (d : Dev) (k : Nat) (w : Word) : (d.setLive k w).rdata = d.rdata := rfl
@[simp] theorem Dev.setLive_free (d : Dev) (k : Nat) (w : Word) : (d.setLive k w).free = d.free := rfl
@[simp] theorem Dev.setLive_latches (d : Dev) (k : Nat) (w : Word) : (d.setLive k w).latches = d.latches := rfl
@[simp] theorem Dev.setLive_chipId (d : Dev) (k : Nat) (w : Word) : (d.setLive k w).chipId = d.chipId := rfl
@[simp] theorem Dev.setLive_safeReq (d : Dev) (k : Nat) (w : Word) : (d.setLive k w).safeReq = d.safeReq := rfl
@[simp] theorem Dev.setLive_time (d : Dev) (k : Nat) (w : Word) : (d.setLive k w).time = d.time := rfl
@[simp] theorem Dev.setLive_afe (d : Dev) (k : Nat) (w : Word) : (d.setLive k w).afe = d.afe := rfl
@[simp] theorem Dev.setLive_tdc (d : Dev) (k : Nat) (w : Word) : (d.setLive k w).tdc = d.tdc := rfl
@[simp] theorem Dev.setLive_lost (d : Dev) (k : Nat) (w : Word) : (d.setLive k w).lost = d.lost := rfl
@[simp] theorem Dev.setLive_cap (d : Dev) (k : Nat) (w : Word) : (d.setLive k w).cap = d.cap := rfl
@[simp] theorem Dev.setLive_se (d : Dev) (k : Nat) (w : Word) : (d.setLive k w).se = d.se := rfl
@[simp] theorem Dev.setLive_col (d : Dev) (k : Nat) (w : Word) : (d.setLive k w).col = d.col := rfl
@[simp] theorem Dev.setLive_cas (d : Dev) (k : Nat) (w : Word) : (d.setLive k w).cas = d.cas := rfl
@[simp] theorem Dev.setLive_tq (d : Dev) (k : Nat) (w : Word) : (d.setLive k w).tq = d.tq := rfl
@[simp] theorem Dev.setLive_outCtl (d : Dev) (k : Nat) (w : Word) : (d.setLive k w).outCtl = d.outCtl := rfl
@[simp] theorem Dev.setLive_lnk (d : Dev) (k : Nat) (w : Word) : (d.setLive k w).lnk = d.lnk := rfl
@[simp] theorem Dev.setLive_mbx (d : Dev) (k : Nat) (w : Word) : (d.setLive k w).mbx = d.mbx := rfl
@[simp] theorem Dev.setLive_pwr (d : Dev) (k : Nat) (w : Word) : (d.setLive k w).pwr = d.pwr := rfl
@[simp] theorem Dev.setLive_dma (d : Dev) (k : Nat) (w : Word) : (d.setLive k w).dma = d.dma := rfl
@[simp] theorem Dev.setLive_ram (d : Dev) (k : Nat) (w : Word) : (d.setLive k w).ram = d.ram := rfl
@[simp] theorem Dev.setLive_mon (d : Dev) (k : Nat) (w : Word) : (d.setLive k w).mon = d.mon := rfl
@[simp] theorem Dev.setLive_grd (d : Dev) (k : Nat) (w : Word) : (d.setLive k w).grd = d.grd := rfl
@[simp] theorem Dev.setLive_sec (d : Dev) (k : Nat) (w : Word) : (d.setLive k w).sec = d.sec := rfl

/-! ### put -/

@[simp] theorem Dev.put_clk (d : Dev) (f : FRef) (v : Nat) : (d.put f v).clk = d.clk := rfl
@[simp] theorem Dev.put_shadow (d : Dev) (f : FRef) (v : Nat) : (d.put f v).shadow = d.shadow := rfl
@[simp] theorem Dev.put_live (d : Dev) (f : FRef) (v : Nat) : (d.put f v).live = d.live := rfl
@[simp] theorem Dev.put_commit (d : Dev) (f : FRef) (v : Nat) : (d.put f v).commit = d.commit := rfl
@[simp] theorem Dev.put_bud (d : Dev) (f : FRef) (v : Nat) : (d.put f v).bud = d.bud := rfl
@[simp] theorem Dev.put_ev (d : Dev) (f : FRef) (v : Nat) : (d.put f v).ev = d.ev := rfl
@[simp] theorem Dev.put_flt (d : Dev) (f : FRef) (v : Nat) : (d.put f v).flt = d.flt := rfl
@[simp] theorem Dev.put_out (d : Dev) (f : FRef) (v : Nat) : (d.put f v).out = d.out := rfl
@[simp] theorem Dev.put_outShort (d : Dev) (f : FRef) (v : Nat) : (d.put f v).outShort = d.outShort := rfl
@[simp] theorem Dev.put_fifos (d : Dev) (f : FRef) (v : Nat) : (d.put f v).fifos = d.fifos := rfl
@[simp] theorem Dev.put_rdata (d : Dev) (f : FRef) (v : Nat) : (d.put f v).rdata = d.rdata := rfl
@[simp] theorem Dev.put_free (d : Dev) (f : FRef) (v : Nat) : (d.put f v).free = d.free := rfl
@[simp] theorem Dev.put_latches (d : Dev) (f : FRef) (v : Nat) : (d.put f v).latches = d.latches := rfl
@[simp] theorem Dev.put_chipId (d : Dev) (f : FRef) (v : Nat) : (d.put f v).chipId = d.chipId := rfl
@[simp] theorem Dev.put_safeReq (d : Dev) (f : FRef) (v : Nat) : (d.put f v).safeReq = d.safeReq := rfl
@[simp] theorem Dev.put_time (d : Dev) (f : FRef) (v : Nat) : (d.put f v).time = d.time := rfl
@[simp] theorem Dev.put_afe (d : Dev) (f : FRef) (v : Nat) : (d.put f v).afe = d.afe := rfl
@[simp] theorem Dev.put_tdc (d : Dev) (f : FRef) (v : Nat) : (d.put f v).tdc = d.tdc := rfl
@[simp] theorem Dev.put_lost (d : Dev) (f : FRef) (v : Nat) : (d.put f v).lost = d.lost := rfl
@[simp] theorem Dev.put_cap (d : Dev) (f : FRef) (v : Nat) : (d.put f v).cap = d.cap := rfl
@[simp] theorem Dev.put_se (d : Dev) (f : FRef) (v : Nat) : (d.put f v).se = d.se := rfl
@[simp] theorem Dev.put_col (d : Dev) (f : FRef) (v : Nat) : (d.put f v).col = d.col := rfl
@[simp] theorem Dev.put_cas (d : Dev) (f : FRef) (v : Nat) : (d.put f v).cas = d.cas := rfl
@[simp] theorem Dev.put_tq (d : Dev) (f : FRef) (v : Nat) : (d.put f v).tq = d.tq := rfl
@[simp] theorem Dev.put_outCtl (d : Dev) (f : FRef) (v : Nat) : (d.put f v).outCtl = d.outCtl := rfl
@[simp] theorem Dev.put_lnk (d : Dev) (f : FRef) (v : Nat) : (d.put f v).lnk = d.lnk := rfl
@[simp] theorem Dev.put_mbx (d : Dev) (f : FRef) (v : Nat) : (d.put f v).mbx = d.mbx := rfl
@[simp] theorem Dev.put_pwr (d : Dev) (f : FRef) (v : Nat) : (d.put f v).pwr = d.pwr := rfl
@[simp] theorem Dev.put_dma (d : Dev) (f : FRef) (v : Nat) : (d.put f v).dma = d.dma := rfl
@[simp] theorem Dev.put_ram (d : Dev) (f : FRef) (v : Nat) : (d.put f v).ram = d.ram := rfl
@[simp] theorem Dev.put_mon (d : Dev) (f : FRef) (v : Nat) : (d.put f v).mon = d.mon := rfl
@[simp] theorem Dev.put_grd (d : Dev) (f : FRef) (v : Nat) : (d.put f v).grd = d.grd := rfl
@[simp] theorem Dev.put_sec (d : Dev) (f : FRef) (v : Nat) : (d.put f v).sec = d.sec := rfl

/-! ### puti -/

@[simp] theorem Dev.puti_clk (d : Dev) (f : FRef) (v : Int) : (d.puti f v).clk = d.clk := rfl
@[simp] theorem Dev.puti_shadow (d : Dev) (f : FRef) (v : Int) : (d.puti f v).shadow = d.shadow := rfl
@[simp] theorem Dev.puti_live (d : Dev) (f : FRef) (v : Int) : (d.puti f v).live = d.live := rfl
@[simp] theorem Dev.puti_commit (d : Dev) (f : FRef) (v : Int) : (d.puti f v).commit = d.commit := rfl
@[simp] theorem Dev.puti_bud (d : Dev) (f : FRef) (v : Int) : (d.puti f v).bud = d.bud := rfl
@[simp] theorem Dev.puti_ev (d : Dev) (f : FRef) (v : Int) : (d.puti f v).ev = d.ev := rfl
@[simp] theorem Dev.puti_flt (d : Dev) (f : FRef) (v : Int) : (d.puti f v).flt = d.flt := rfl
@[simp] theorem Dev.puti_out (d : Dev) (f : FRef) (v : Int) : (d.puti f v).out = d.out := rfl
@[simp] theorem Dev.puti_outShort (d : Dev) (f : FRef) (v : Int) : (d.puti f v).outShort = d.outShort := rfl
@[simp] theorem Dev.puti_fifos (d : Dev) (f : FRef) (v : Int) : (d.puti f v).fifos = d.fifos := rfl
@[simp] theorem Dev.puti_rdata (d : Dev) (f : FRef) (v : Int) : (d.puti f v).rdata = d.rdata := rfl
@[simp] theorem Dev.puti_free (d : Dev) (f : FRef) (v : Int) : (d.puti f v).free = d.free := rfl
@[simp] theorem Dev.puti_latches (d : Dev) (f : FRef) (v : Int) : (d.puti f v).latches = d.latches := rfl
@[simp] theorem Dev.puti_chipId (d : Dev) (f : FRef) (v : Int) : (d.puti f v).chipId = d.chipId := rfl
@[simp] theorem Dev.puti_safeReq (d : Dev) (f : FRef) (v : Int) : (d.puti f v).safeReq = d.safeReq := rfl
@[simp] theorem Dev.puti_time (d : Dev) (f : FRef) (v : Int) : (d.puti f v).time = d.time := rfl
@[simp] theorem Dev.puti_afe (d : Dev) (f : FRef) (v : Int) : (d.puti f v).afe = d.afe := rfl
@[simp] theorem Dev.puti_tdc (d : Dev) (f : FRef) (v : Int) : (d.puti f v).tdc = d.tdc := rfl
@[simp] theorem Dev.puti_lost (d : Dev) (f : FRef) (v : Int) : (d.puti f v).lost = d.lost := rfl
@[simp] theorem Dev.puti_cap (d : Dev) (f : FRef) (v : Int) : (d.puti f v).cap = d.cap := rfl
@[simp] theorem Dev.puti_se (d : Dev) (f : FRef) (v : Int) : (d.puti f v).se = d.se := rfl
@[simp] theorem Dev.puti_col (d : Dev) (f : FRef) (v : Int) : (d.puti f v).col = d.col := rfl
@[simp] theorem Dev.puti_cas (d : Dev) (f : FRef) (v : Int) : (d.puti f v).cas = d.cas := rfl
@[simp] theorem Dev.puti_tq (d : Dev) (f : FRef) (v : Int) : (d.puti f v).tq = d.tq := rfl
@[simp] theorem Dev.puti_outCtl (d : Dev) (f : FRef) (v : Int) : (d.puti f v).outCtl = d.outCtl := rfl
@[simp] theorem Dev.puti_lnk (d : Dev) (f : FRef) (v : Int) : (d.puti f v).lnk = d.lnk := rfl
@[simp] theorem Dev.puti_mbx (d : Dev) (f : FRef) (v : Int) : (d.puti f v).mbx = d.mbx := rfl
@[simp] theorem Dev.puti_pwr (d : Dev) (f : FRef) (v : Int) : (d.puti f v).pwr = d.pwr := rfl
@[simp] theorem Dev.puti_dma (d : Dev) (f : FRef) (v : Int) : (d.puti f v).dma = d.dma := rfl
@[simp] theorem Dev.puti_ram (d : Dev) (f : FRef) (v : Int) : (d.puti f v).ram = d.ram := rfl
@[simp] theorem Dev.puti_mon (d : Dev) (f : FRef) (v : Int) : (d.puti f v).mon = d.mon := rfl
@[simp] theorem Dev.puti_grd (d : Dev) (f : FRef) (v : Int) : (d.puti f v).grd = d.grd := rfl
@[simp] theorem Dev.puti_sec (d : Dev) (f : FRef) (v : Int) : (d.puti f v).sec = d.sec := rfl

/-! ### lput -/

@[simp] theorem Dev.lput_clk (d : Dev) (f : FRef) (v : Nat) : (d.lput f v).clk = d.clk := rfl
@[simp] theorem Dev.lput_regs (d : Dev) (f : FRef) (v : Nat) : (d.lput f v).regs = d.regs := rfl
@[simp] theorem Dev.lput_shadow (d : Dev) (f : FRef) (v : Nat) : (d.lput f v).shadow = d.shadow := rfl
@[simp] theorem Dev.lput_commit (d : Dev) (f : FRef) (v : Nat) : (d.lput f v).commit = d.commit := rfl
@[simp] theorem Dev.lput_bud (d : Dev) (f : FRef) (v : Nat) : (d.lput f v).bud = d.bud := rfl
@[simp] theorem Dev.lput_ev (d : Dev) (f : FRef) (v : Nat) : (d.lput f v).ev = d.ev := rfl
@[simp] theorem Dev.lput_flt (d : Dev) (f : FRef) (v : Nat) : (d.lput f v).flt = d.flt := rfl
@[simp] theorem Dev.lput_out (d : Dev) (f : FRef) (v : Nat) : (d.lput f v).out = d.out := rfl
@[simp] theorem Dev.lput_outShort (d : Dev) (f : FRef) (v : Nat) : (d.lput f v).outShort = d.outShort := rfl
@[simp] theorem Dev.lput_fifos (d : Dev) (f : FRef) (v : Nat) : (d.lput f v).fifos = d.fifos := rfl
@[simp] theorem Dev.lput_rdata (d : Dev) (f : FRef) (v : Nat) : (d.lput f v).rdata = d.rdata := rfl
@[simp] theorem Dev.lput_free (d : Dev) (f : FRef) (v : Nat) : (d.lput f v).free = d.free := rfl
@[simp] theorem Dev.lput_latches (d : Dev) (f : FRef) (v : Nat) : (d.lput f v).latches = d.latches := rfl
@[simp] theorem Dev.lput_chipId (d : Dev) (f : FRef) (v : Nat) : (d.lput f v).chipId = d.chipId := rfl
@[simp] theorem Dev.lput_safeReq (d : Dev) (f : FRef) (v : Nat) : (d.lput f v).safeReq = d.safeReq := rfl
@[simp] theorem Dev.lput_time (d : Dev) (f : FRef) (v : Nat) : (d.lput f v).time = d.time := rfl
@[simp] theorem Dev.lput_afe (d : Dev) (f : FRef) (v : Nat) : (d.lput f v).afe = d.afe := rfl
@[simp] theorem Dev.lput_tdc (d : Dev) (f : FRef) (v : Nat) : (d.lput f v).tdc = d.tdc := rfl
@[simp] theorem Dev.lput_lost (d : Dev) (f : FRef) (v : Nat) : (d.lput f v).lost = d.lost := rfl
@[simp] theorem Dev.lput_cap (d : Dev) (f : FRef) (v : Nat) : (d.lput f v).cap = d.cap := rfl
@[simp] theorem Dev.lput_se (d : Dev) (f : FRef) (v : Nat) : (d.lput f v).se = d.se := rfl
@[simp] theorem Dev.lput_col (d : Dev) (f : FRef) (v : Nat) : (d.lput f v).col = d.col := rfl
@[simp] theorem Dev.lput_cas (d : Dev) (f : FRef) (v : Nat) : (d.lput f v).cas = d.cas := rfl
@[simp] theorem Dev.lput_tq (d : Dev) (f : FRef) (v : Nat) : (d.lput f v).tq = d.tq := rfl
@[simp] theorem Dev.lput_outCtl (d : Dev) (f : FRef) (v : Nat) : (d.lput f v).outCtl = d.outCtl := rfl
@[simp] theorem Dev.lput_lnk (d : Dev) (f : FRef) (v : Nat) : (d.lput f v).lnk = d.lnk := rfl
@[simp] theorem Dev.lput_mbx (d : Dev) (f : FRef) (v : Nat) : (d.lput f v).mbx = d.mbx := rfl
@[simp] theorem Dev.lput_pwr (d : Dev) (f : FRef) (v : Nat) : (d.lput f v).pwr = d.pwr := rfl
@[simp] theorem Dev.lput_dma (d : Dev) (f : FRef) (v : Nat) : (d.lput f v).dma = d.dma := rfl
@[simp] theorem Dev.lput_ram (d : Dev) (f : FRef) (v : Nat) : (d.lput f v).ram = d.ram := rfl
@[simp] theorem Dev.lput_mon (d : Dev) (f : FRef) (v : Nat) : (d.lput f v).mon = d.mon := rfl
@[simp] theorem Dev.lput_grd (d : Dev) (f : FRef) (v : Nat) : (d.lput f v).grd = d.grd := rfl
@[simp] theorem Dev.lput_sec (d : Dev) (f : FRef) (v : Nat) : (d.lput f v).sec = d.sec := rfl

/-! ### setSlot -/

@[simp] theorem Dev.setSlot_clk (d : Dev) (i : Nat) (x : Slot) : (d.setSlot i x).clk = d.clk := rfl
@[simp] theorem Dev.setSlot_regs (d : Dev) (i : Nat) (x : Slot) : (d.setSlot i x).regs = d.regs := rfl
@[simp] theorem Dev.setSlot_shadow (d : Dev) (i : Nat) (x : Slot) : (d.setSlot i x).shadow = d.shadow := rfl
@[simp] theorem Dev.setSlot_live (d : Dev) (i : Nat) (x : Slot) : (d.setSlot i x).live = d.live := rfl
@[simp] theorem Dev.setSlot_commit (d : Dev) (i : Nat) (x : Slot) : (d.setSlot i x).commit = { d.commit with slots := d.commit.slots.set i x } := rfl
@[simp] theorem Dev.setSlot_bud (d : Dev) (i : Nat) (x : Slot) : (d.setSlot i x).bud = d.bud := rfl
@[simp] theorem Dev.setSlot_ev (d : Dev) (i : Nat) (x : Slot) : (d.setSlot i x).ev = d.ev := rfl
@[simp] theorem Dev.setSlot_flt (d : Dev) (i : Nat) (x : Slot) : (d.setSlot i x).flt = d.flt := rfl
@[simp] theorem Dev.setSlot_out (d : Dev) (i : Nat) (x : Slot) : (d.setSlot i x).out = d.out := rfl
@[simp] theorem Dev.setSlot_outShort (d : Dev) (i : Nat) (x : Slot) : (d.setSlot i x).outShort = d.outShort := rfl
@[simp] theorem Dev.setSlot_fifos (d : Dev) (i : Nat) (x : Slot) : (d.setSlot i x).fifos = d.fifos := rfl
@[simp] theorem Dev.setSlot_rdata (d : Dev) (i : Nat) (x : Slot) : (d.setSlot i x).rdata = d.rdata := rfl
@[simp] theorem Dev.setSlot_free (d : Dev) (i : Nat) (x : Slot) : (d.setSlot i x).free = d.free := rfl
@[simp] theorem Dev.setSlot_latches (d : Dev) (i : Nat) (x : Slot) : (d.setSlot i x).latches = d.latches := rfl
@[simp] theorem Dev.setSlot_chipId (d : Dev) (i : Nat) (x : Slot) : (d.setSlot i x).chipId = d.chipId := rfl
@[simp] theorem Dev.setSlot_safeReq (d : Dev) (i : Nat) (x : Slot) : (d.setSlot i x).safeReq = d.safeReq := rfl
@[simp] theorem Dev.setSlot_time (d : Dev) (i : Nat) (x : Slot) : (d.setSlot i x).time = d.time := rfl
@[simp] theorem Dev.setSlot_afe (d : Dev) (i : Nat) (x : Slot) : (d.setSlot i x).afe = d.afe := rfl
@[simp] theorem Dev.setSlot_tdc (d : Dev) (i : Nat) (x : Slot) : (d.setSlot i x).tdc = d.tdc := rfl
@[simp] theorem Dev.setSlot_lost (d : Dev) (i : Nat) (x : Slot) : (d.setSlot i x).lost = d.lost := rfl
@[simp] theorem Dev.setSlot_cap (d : Dev) (i : Nat) (x : Slot) : (d.setSlot i x).cap = d.cap := rfl
@[simp] theorem Dev.setSlot_se (d : Dev) (i : Nat) (x : Slot) : (d.setSlot i x).se = d.se := rfl
@[simp] theorem Dev.setSlot_col (d : Dev) (i : Nat) (x : Slot) : (d.setSlot i x).col = d.col := rfl
@[simp] theorem Dev.setSlot_cas (d : Dev) (i : Nat) (x : Slot) : (d.setSlot i x).cas = d.cas := rfl
@[simp] theorem Dev.setSlot_tq (d : Dev) (i : Nat) (x : Slot) : (d.setSlot i x).tq = d.tq := rfl
@[simp] theorem Dev.setSlot_outCtl (d : Dev) (i : Nat) (x : Slot) : (d.setSlot i x).outCtl = d.outCtl := rfl
@[simp] theorem Dev.setSlot_lnk (d : Dev) (i : Nat) (x : Slot) : (d.setSlot i x).lnk = d.lnk := rfl
@[simp] theorem Dev.setSlot_mbx (d : Dev) (i : Nat) (x : Slot) : (d.setSlot i x).mbx = d.mbx := rfl
@[simp] theorem Dev.setSlot_pwr (d : Dev) (i : Nat) (x : Slot) : (d.setSlot i x).pwr = d.pwr := rfl
@[simp] theorem Dev.setSlot_dma (d : Dev) (i : Nat) (x : Slot) : (d.setSlot i x).dma = d.dma := rfl
@[simp] theorem Dev.setSlot_ram (d : Dev) (i : Nat) (x : Slot) : (d.setSlot i x).ram = d.ram := rfl
@[simp] theorem Dev.setSlot_mon (d : Dev) (i : Nat) (x : Slot) : (d.setSlot i x).mon = d.mon := rfl
@[simp] theorem Dev.setSlot_grd (d : Dev) (i : Nat) (x : Slot) : (d.setSlot i x).grd = d.grd := rfl
@[simp] theorem Dev.setSlot_sec (d : Dev) (i : Nat) (x : Slot) : (d.setSlot i x).sec = d.sec := rfl

/-! ### setBudAct -/

@[simp] theorem Dev.setBudAct_clk (d : Dev) (r a : Nat) (x : BudAct) : (d.setBudAct r a x).clk = d.clk := rfl
@[simp] theorem Dev.setBudAct_regs (d : Dev) (r a : Nat) (x : BudAct) : (d.setBudAct r a x).regs = d.regs := rfl
@[simp] theorem Dev.setBudAct_shadow (d : Dev) (r a : Nat) (x : BudAct) : (d.setBudAct r a x).shadow = d.shadow := rfl
@[simp] theorem Dev.setBudAct_live (d : Dev) (r a : Nat) (x : BudAct) : (d.setBudAct r a x).live = d.live := rfl
@[simp] theorem Dev.setBudAct_commit (d : Dev) (r a : Nat) (x : BudAct) : (d.setBudAct r a x).commit = d.commit := rfl
@[simp] theorem Dev.setBudAct_bud (d : Dev) (r a : Nat) (x : BudAct) : (d.setBudAct r a x).bud = { d.bud with acts := kset d.bud.acts (8 * r + a) x } := rfl
@[simp] theorem Dev.setBudAct_ev (d : Dev) (r a : Nat) (x : BudAct) : (d.setBudAct r a x).ev = d.ev := rfl
@[simp] theorem Dev.setBudAct_flt (d : Dev) (r a : Nat) (x : BudAct) : (d.setBudAct r a x).flt = d.flt := rfl
@[simp] theorem Dev.setBudAct_out (d : Dev) (r a : Nat) (x : BudAct) : (d.setBudAct r a x).out = d.out := rfl
@[simp] theorem Dev.setBudAct_outShort (d : Dev) (r a : Nat) (x : BudAct) : (d.setBudAct r a x).outShort = d.outShort := rfl
@[simp] theorem Dev.setBudAct_fifos (d : Dev) (r a : Nat) (x : BudAct) : (d.setBudAct r a x).fifos = d.fifos := rfl
@[simp] theorem Dev.setBudAct_rdata (d : Dev) (r a : Nat) (x : BudAct) : (d.setBudAct r a x).rdata = d.rdata := rfl
@[simp] theorem Dev.setBudAct_free (d : Dev) (r a : Nat) (x : BudAct) : (d.setBudAct r a x).free = d.free := rfl
@[simp] theorem Dev.setBudAct_latches (d : Dev) (r a : Nat) (x : BudAct) : (d.setBudAct r a x).latches = d.latches := rfl
@[simp] theorem Dev.setBudAct_chipId (d : Dev) (r a : Nat) (x : BudAct) : (d.setBudAct r a x).chipId = d.chipId := rfl
@[simp] theorem Dev.setBudAct_safeReq (d : Dev) (r a : Nat) (x : BudAct) : (d.setBudAct r a x).safeReq = d.safeReq := rfl
@[simp] theorem Dev.setBudAct_time (d : Dev) (r a : Nat) (x : BudAct) : (d.setBudAct r a x).time = d.time := rfl
@[simp] theorem Dev.setBudAct_afe (d : Dev) (r a : Nat) (x : BudAct) : (d.setBudAct r a x).afe = d.afe := rfl
@[simp] theorem Dev.setBudAct_tdc (d : Dev) (r a : Nat) (x : BudAct) : (d.setBudAct r a x).tdc = d.tdc := rfl
@[simp] theorem Dev.setBudAct_lost (d : Dev) (r a : Nat) (x : BudAct) : (d.setBudAct r a x).lost = d.lost := rfl
@[simp] theorem Dev.setBudAct_cap (d : Dev) (r a : Nat) (x : BudAct) : (d.setBudAct r a x).cap = d.cap := rfl
@[simp] theorem Dev.setBudAct_se (d : Dev) (r a : Nat) (x : BudAct) : (d.setBudAct r a x).se = d.se := rfl
@[simp] theorem Dev.setBudAct_col (d : Dev) (r a : Nat) (x : BudAct) : (d.setBudAct r a x).col = d.col := rfl
@[simp] theorem Dev.setBudAct_cas (d : Dev) (r a : Nat) (x : BudAct) : (d.setBudAct r a x).cas = d.cas := rfl
@[simp] theorem Dev.setBudAct_tq (d : Dev) (r a : Nat) (x : BudAct) : (d.setBudAct r a x).tq = d.tq := rfl
@[simp] theorem Dev.setBudAct_outCtl (d : Dev) (r a : Nat) (x : BudAct) : (d.setBudAct r a x).outCtl = d.outCtl := rfl
@[simp] theorem Dev.setBudAct_lnk (d : Dev) (r a : Nat) (x : BudAct) : (d.setBudAct r a x).lnk = d.lnk := rfl
@[simp] theorem Dev.setBudAct_mbx (d : Dev) (r a : Nat) (x : BudAct) : (d.setBudAct r a x).mbx = d.mbx := rfl
@[simp] theorem Dev.setBudAct_pwr (d : Dev) (r a : Nat) (x : BudAct) : (d.setBudAct r a x).pwr = d.pwr := rfl
@[simp] theorem Dev.setBudAct_dma (d : Dev) (r a : Nat) (x : BudAct) : (d.setBudAct r a x).dma = d.dma := rfl
@[simp] theorem Dev.setBudAct_ram (d : Dev) (r a : Nat) (x : BudAct) : (d.setBudAct r a x).ram = d.ram := rfl
@[simp] theorem Dev.setBudAct_mon (d : Dev) (r a : Nat) (x : BudAct) : (d.setBudAct r a x).mon = d.mon := rfl
@[simp] theorem Dev.setBudAct_grd (d : Dev) (r a : Nat) (x : BudAct) : (d.setBudAct r a x).grd = d.grd := rfl
@[simp] theorem Dev.setBudAct_sec (d : Dev) (r a : Nat) (x : BudAct) : (d.setBudAct r a x).sec = d.sec := rfl

/-! ### setTport -/

@[simp] theorem Dev.setTport_clk (d : Dev) (p : Nat) (x : TPort) : (d.setTport p x).clk = d.clk := rfl
@[simp] theorem Dev.setTport_regs (d : Dev) (p : Nat) (x : TPort) : (d.setTport p x).regs = d.regs := rfl
@[simp] theorem Dev.setTport_shadow (d : Dev) (p : Nat) (x : TPort) : (d.setTport p x).shadow = d.shadow := rfl
@[simp] theorem Dev.setTport_live (d : Dev) (p : Nat) (x : TPort) : (d.setTport p x).live = d.live := rfl
@[simp] theorem Dev.setTport_commit (d : Dev) (p : Nat) (x : TPort) : (d.setTport p x).commit = d.commit := rfl
@[simp] theorem Dev.setTport_bud (d : Dev) (p : Nat) (x : TPort) : (d.setTport p x).bud = d.bud := rfl
@[simp] theorem Dev.setTport_ev (d : Dev) (p : Nat) (x : TPort) : (d.setTport p x).ev = d.ev := rfl
@[simp] theorem Dev.setTport_flt (d : Dev) (p : Nat) (x : TPort) : (d.setTport p x).flt = d.flt := rfl
@[simp] theorem Dev.setTport_out (d : Dev) (p : Nat) (x : TPort) : (d.setTport p x).out = d.out := rfl
@[simp] theorem Dev.setTport_outShort (d : Dev) (p : Nat) (x : TPort) : (d.setTport p x).outShort = d.outShort := rfl
@[simp] theorem Dev.setTport_fifos (d : Dev) (p : Nat) (x : TPort) : (d.setTport p x).fifos = d.fifos := rfl
@[simp] theorem Dev.setTport_rdata (d : Dev) (p : Nat) (x : TPort) : (d.setTport p x).rdata = d.rdata := rfl
@[simp] theorem Dev.setTport_free (d : Dev) (p : Nat) (x : TPort) : (d.setTport p x).free = d.free := rfl
@[simp] theorem Dev.setTport_latches (d : Dev) (p : Nat) (x : TPort) : (d.setTport p x).latches = d.latches := rfl
@[simp] theorem Dev.setTport_chipId (d : Dev) (p : Nat) (x : TPort) : (d.setTport p x).chipId = d.chipId := rfl
@[simp] theorem Dev.setTport_safeReq (d : Dev) (p : Nat) (x : TPort) : (d.setTport p x).safeReq = d.safeReq := rfl
@[simp] theorem Dev.setTport_time (d : Dev) (p : Nat) (x : TPort) : (d.setTport p x).time = { d.time with ports := d.time.ports.set p x } := rfl
@[simp] theorem Dev.setTport_afe (d : Dev) (p : Nat) (x : TPort) : (d.setTport p x).afe = d.afe := rfl
@[simp] theorem Dev.setTport_tdc (d : Dev) (p : Nat) (x : TPort) : (d.setTport p x).tdc = d.tdc := rfl
@[simp] theorem Dev.setTport_lost (d : Dev) (p : Nat) (x : TPort) : (d.setTport p x).lost = d.lost := rfl
@[simp] theorem Dev.setTport_cap (d : Dev) (p : Nat) (x : TPort) : (d.setTport p x).cap = d.cap := rfl
@[simp] theorem Dev.setTport_se (d : Dev) (p : Nat) (x : TPort) : (d.setTport p x).se = d.se := rfl
@[simp] theorem Dev.setTport_col (d : Dev) (p : Nat) (x : TPort) : (d.setTport p x).col = d.col := rfl
@[simp] theorem Dev.setTport_cas (d : Dev) (p : Nat) (x : TPort) : (d.setTport p x).cas = d.cas := rfl
@[simp] theorem Dev.setTport_tq (d : Dev) (p : Nat) (x : TPort) : (d.setTport p x).tq = d.tq := rfl
@[simp] theorem Dev.setTport_outCtl (d : Dev) (p : Nat) (x : TPort) : (d.setTport p x).outCtl = d.outCtl := rfl
@[simp] theorem Dev.setTport_lnk (d : Dev) (p : Nat) (x : TPort) : (d.setTport p x).lnk = d.lnk := rfl
@[simp] theorem Dev.setTport_mbx (d : Dev) (p : Nat) (x : TPort) : (d.setTport p x).mbx = d.mbx := rfl
@[simp] theorem Dev.setTport_pwr (d : Dev) (p : Nat) (x : TPort) : (d.setTport p x).pwr = d.pwr := rfl
@[simp] theorem Dev.setTport_dma (d : Dev) (p : Nat) (x : TPort) : (d.setTport p x).dma = d.dma := rfl
@[simp] theorem Dev.setTport_ram (d : Dev) (p : Nat) (x : TPort) : (d.setTport p x).ram = d.ram := rfl
@[simp] theorem Dev.setTport_mon (d : Dev) (p : Nat) (x : TPort) : (d.setTport p x).mon = d.mon := rfl
@[simp] theorem Dev.setTport_grd (d : Dev) (p : Nat) (x : TPort) : (d.setTport p x).grd = d.grd := rfl
@[simp] theorem Dev.setTport_sec (d : Dev) (p : Nat) (x : TPort) : (d.setTport p x).sec = d.sec := rfl

/-! ### setAfeCh -/

@[simp] theorem Dev.setAfeCh_clk (d : Dev) (n : Nat) (x : AfeChannel) : (d.setAfeCh n x).clk = d.clk := rfl
@[simp] theorem Dev.setAfeCh_regs (d : Dev) (n : Nat) (x : AfeChannel) : (d.setAfeCh n x).regs = d.regs := rfl
@[simp] theorem Dev.setAfeCh_shadow (d : Dev) (n : Nat) (x : AfeChannel) : (d.setAfeCh n x).shadow = d.shadow := rfl
@[simp] theorem Dev.setAfeCh_live (d : Dev) (n : Nat) (x : AfeChannel) : (d.setAfeCh n x).live = d.live := rfl
@[simp] theorem Dev.setAfeCh_commit (d : Dev) (n : Nat) (x : AfeChannel) : (d.setAfeCh n x).commit = d.commit := rfl
@[simp] theorem Dev.setAfeCh_bud (d : Dev) (n : Nat) (x : AfeChannel) : (d.setAfeCh n x).bud = d.bud := rfl
@[simp] theorem Dev.setAfeCh_ev (d : Dev) (n : Nat) (x : AfeChannel) : (d.setAfeCh n x).ev = d.ev := rfl
@[simp] theorem Dev.setAfeCh_flt (d : Dev) (n : Nat) (x : AfeChannel) : (d.setAfeCh n x).flt = d.flt := rfl
@[simp] theorem Dev.setAfeCh_out (d : Dev) (n : Nat) (x : AfeChannel) : (d.setAfeCh n x).out = d.out := rfl
@[simp] theorem Dev.setAfeCh_outShort (d : Dev) (n : Nat) (x : AfeChannel) : (d.setAfeCh n x).outShort = d.outShort := rfl
@[simp] theorem Dev.setAfeCh_fifos (d : Dev) (n : Nat) (x : AfeChannel) : (d.setAfeCh n x).fifos = d.fifos := rfl
@[simp] theorem Dev.setAfeCh_rdata (d : Dev) (n : Nat) (x : AfeChannel) : (d.setAfeCh n x).rdata = d.rdata := rfl
@[simp] theorem Dev.setAfeCh_free (d : Dev) (n : Nat) (x : AfeChannel) : (d.setAfeCh n x).free = d.free := rfl
@[simp] theorem Dev.setAfeCh_latches (d : Dev) (n : Nat) (x : AfeChannel) : (d.setAfeCh n x).latches = d.latches := rfl
@[simp] theorem Dev.setAfeCh_chipId (d : Dev) (n : Nat) (x : AfeChannel) : (d.setAfeCh n x).chipId = d.chipId := rfl
@[simp] theorem Dev.setAfeCh_safeReq (d : Dev) (n : Nat) (x : AfeChannel) : (d.setAfeCh n x).safeReq = d.safeReq := rfl
@[simp] theorem Dev.setAfeCh_time (d : Dev) (n : Nat) (x : AfeChannel) : (d.setAfeCh n x).time = d.time := rfl
@[simp] theorem Dev.setAfeCh_afe (d : Dev) (n : Nat) (x : AfeChannel) : (d.setAfeCh n x).afe = { d.afe with ch := kset d.afe.ch n x } := rfl
@[simp] theorem Dev.setAfeCh_tdc (d : Dev) (n : Nat) (x : AfeChannel) : (d.setAfeCh n x).tdc = d.tdc := rfl
@[simp] theorem Dev.setAfeCh_lost (d : Dev) (n : Nat) (x : AfeChannel) : (d.setAfeCh n x).lost = d.lost := rfl
@[simp] theorem Dev.setAfeCh_cap (d : Dev) (n : Nat) (x : AfeChannel) : (d.setAfeCh n x).cap = d.cap := rfl
@[simp] theorem Dev.setAfeCh_se (d : Dev) (n : Nat) (x : AfeChannel) : (d.setAfeCh n x).se = d.se := rfl
@[simp] theorem Dev.setAfeCh_col (d : Dev) (n : Nat) (x : AfeChannel) : (d.setAfeCh n x).col = d.col := rfl
@[simp] theorem Dev.setAfeCh_cas (d : Dev) (n : Nat) (x : AfeChannel) : (d.setAfeCh n x).cas = d.cas := rfl
@[simp] theorem Dev.setAfeCh_tq (d : Dev) (n : Nat) (x : AfeChannel) : (d.setAfeCh n x).tq = d.tq := rfl
@[simp] theorem Dev.setAfeCh_outCtl (d : Dev) (n : Nat) (x : AfeChannel) : (d.setAfeCh n x).outCtl = d.outCtl := rfl
@[simp] theorem Dev.setAfeCh_lnk (d : Dev) (n : Nat) (x : AfeChannel) : (d.setAfeCh n x).lnk = d.lnk := rfl
@[simp] theorem Dev.setAfeCh_mbx (d : Dev) (n : Nat) (x : AfeChannel) : (d.setAfeCh n x).mbx = d.mbx := rfl
@[simp] theorem Dev.setAfeCh_pwr (d : Dev) (n : Nat) (x : AfeChannel) : (d.setAfeCh n x).pwr = d.pwr := rfl
@[simp] theorem Dev.setAfeCh_dma (d : Dev) (n : Nat) (x : AfeChannel) : (d.setAfeCh n x).dma = d.dma := rfl
@[simp] theorem Dev.setAfeCh_ram (d : Dev) (n : Nat) (x : AfeChannel) : (d.setAfeCh n x).ram = d.ram := rfl
@[simp] theorem Dev.setAfeCh_mon (d : Dev) (n : Nat) (x : AfeChannel) : (d.setAfeCh n x).mon = d.mon := rfl
@[simp] theorem Dev.setAfeCh_grd (d : Dev) (n : Nat) (x : AfeChannel) : (d.setAfeCh n x).grd = d.grd := rfl
@[simp] theorem Dev.setAfeCh_sec (d : Dev) (n : Nat) (x : AfeChannel) : (d.setAfeCh n x).sec = d.sec := rfl

/-! ### setUnit -/

@[simp] theorem Dev.setUnit_clk (d : Dev) (u : Nat) (x : TUnit) : (d.setUnit u x).clk = d.clk := rfl
@[simp] theorem Dev.setUnit_regs (d : Dev) (u : Nat) (x : TUnit) : (d.setUnit u x).regs = d.regs := rfl
@[simp] theorem Dev.setUnit_shadow (d : Dev) (u : Nat) (x : TUnit) : (d.setUnit u x).shadow = d.shadow := rfl
@[simp] theorem Dev.setUnit_live (d : Dev) (u : Nat) (x : TUnit) : (d.setUnit u x).live = d.live := rfl
@[simp] theorem Dev.setUnit_commit (d : Dev) (u : Nat) (x : TUnit) : (d.setUnit u x).commit = d.commit := rfl
@[simp] theorem Dev.setUnit_bud (d : Dev) (u : Nat) (x : TUnit) : (d.setUnit u x).bud = d.bud := rfl
@[simp] theorem Dev.setUnit_ev (d : Dev) (u : Nat) (x : TUnit) : (d.setUnit u x).ev = d.ev := rfl
@[simp] theorem Dev.setUnit_flt (d : Dev) (u : Nat) (x : TUnit) : (d.setUnit u x).flt = d.flt := rfl
@[simp] theorem Dev.setUnit_out (d : Dev) (u : Nat) (x : TUnit) : (d.setUnit u x).out = d.out := rfl
@[simp] theorem Dev.setUnit_outShort (d : Dev) (u : Nat) (x : TUnit) : (d.setUnit u x).outShort = d.outShort := rfl
@[simp] theorem Dev.setUnit_fifos (d : Dev) (u : Nat) (x : TUnit) : (d.setUnit u x).fifos = d.fifos := rfl
@[simp] theorem Dev.setUnit_rdata (d : Dev) (u : Nat) (x : TUnit) : (d.setUnit u x).rdata = d.rdata := rfl
@[simp] theorem Dev.setUnit_free (d : Dev) (u : Nat) (x : TUnit) : (d.setUnit u x).free = d.free := rfl
@[simp] theorem Dev.setUnit_latches (d : Dev) (u : Nat) (x : TUnit) : (d.setUnit u x).latches = d.latches := rfl
@[simp] theorem Dev.setUnit_chipId (d : Dev) (u : Nat) (x : TUnit) : (d.setUnit u x).chipId = d.chipId := rfl
@[simp] theorem Dev.setUnit_safeReq (d : Dev) (u : Nat) (x : TUnit) : (d.setUnit u x).safeReq = d.safeReq := rfl
@[simp] theorem Dev.setUnit_time (d : Dev) (u : Nat) (x : TUnit) : (d.setUnit u x).time = d.time := rfl
@[simp] theorem Dev.setUnit_afe (d : Dev) (u : Nat) (x : TUnit) : (d.setUnit u x).afe = d.afe := rfl
@[simp] theorem Dev.setUnit_tdc (d : Dev) (u : Nat) (x : TUnit) : (d.setUnit u x).tdc = { d.tdc with units := kset d.tdc.units u x } := rfl
@[simp] theorem Dev.setUnit_lost (d : Dev) (u : Nat) (x : TUnit) : (d.setUnit u x).lost = d.lost := rfl
@[simp] theorem Dev.setUnit_cap (d : Dev) (u : Nat) (x : TUnit) : (d.setUnit u x).cap = d.cap := rfl
@[simp] theorem Dev.setUnit_se (d : Dev) (u : Nat) (x : TUnit) : (d.setUnit u x).se = d.se := rfl
@[simp] theorem Dev.setUnit_col (d : Dev) (u : Nat) (x : TUnit) : (d.setUnit u x).col = d.col := rfl
@[simp] theorem Dev.setUnit_cas (d : Dev) (u : Nat) (x : TUnit) : (d.setUnit u x).cas = d.cas := rfl
@[simp] theorem Dev.setUnit_tq (d : Dev) (u : Nat) (x : TUnit) : (d.setUnit u x).tq = d.tq := rfl
@[simp] theorem Dev.setUnit_outCtl (d : Dev) (u : Nat) (x : TUnit) : (d.setUnit u x).outCtl = d.outCtl := rfl
@[simp] theorem Dev.setUnit_lnk (d : Dev) (u : Nat) (x : TUnit) : (d.setUnit u x).lnk = d.lnk := rfl
@[simp] theorem Dev.setUnit_mbx (d : Dev) (u : Nat) (x : TUnit) : (d.setUnit u x).mbx = d.mbx := rfl
@[simp] theorem Dev.setUnit_pwr (d : Dev) (u : Nat) (x : TUnit) : (d.setUnit u x).pwr = d.pwr := rfl
@[simp] theorem Dev.setUnit_dma (d : Dev) (u : Nat) (x : TUnit) : (d.setUnit u x).dma = d.dma := rfl
@[simp] theorem Dev.setUnit_ram (d : Dev) (u : Nat) (x : TUnit) : (d.setUnit u x).ram = d.ram := rfl
@[simp] theorem Dev.setUnit_mon (d : Dev) (u : Nat) (x : TUnit) : (d.setUnit u x).mon = d.mon := rfl
@[simp] theorem Dev.setUnit_grd (d : Dev) (u : Nat) (x : TUnit) : (d.setUnit u x).grd = d.grd := rfl
@[simp] theorem Dev.setUnit_sec (d : Dev) (u : Nat) (x : TUnit) : (d.setUnit u x).sec = d.sec := rfl

/-! ### setGates -/

@[simp] theorem Dev.setGates_clk (d : Dev) (e : Nat) (x : List Gate) : (d.setGates e x).clk = d.clk := rfl
@[simp] theorem Dev.setGates_regs (d : Dev) (e : Nat) (x : List Gate) : (d.setGates e x).regs = d.regs := rfl
@[simp] theorem Dev.setGates_shadow (d : Dev) (e : Nat) (x : List Gate) : (d.setGates e x).shadow = d.shadow := rfl
@[simp] theorem Dev.setGates_live (d : Dev) (e : Nat) (x : List Gate) : (d.setGates e x).live = d.live := rfl
@[simp] theorem Dev.setGates_commit (d : Dev) (e : Nat) (x : List Gate) : (d.setGates e x).commit = d.commit := rfl
@[simp] theorem Dev.setGates_bud (d : Dev) (e : Nat) (x : List Gate) : (d.setGates e x).bud = d.bud := rfl
@[simp] theorem Dev.setGates_ev (d : Dev) (e : Nat) (x : List Gate) : (d.setGates e x).ev = d.ev := rfl
@[simp] theorem Dev.setGates_flt (d : Dev) (e : Nat) (x : List Gate) : (d.setGates e x).flt = d.flt := rfl
@[simp] theorem Dev.setGates_out (d : Dev) (e : Nat) (x : List Gate) : (d.setGates e x).out = d.out := rfl
@[simp] theorem Dev.setGates_outShort (d : Dev) (e : Nat) (x : List Gate) : (d.setGates e x).outShort = d.outShort := rfl
@[simp] theorem Dev.setGates_fifos (d : Dev) (e : Nat) (x : List Gate) : (d.setGates e x).fifos = d.fifos := rfl
@[simp] theorem Dev.setGates_rdata (d : Dev) (e : Nat) (x : List Gate) : (d.setGates e x).rdata = d.rdata := rfl
@[simp] theorem Dev.setGates_free (d : Dev) (e : Nat) (x : List Gate) : (d.setGates e x).free = d.free := rfl
@[simp] theorem Dev.setGates_latches (d : Dev) (e : Nat) (x : List Gate) : (d.setGates e x).latches = d.latches := rfl
@[simp] theorem Dev.setGates_chipId (d : Dev) (e : Nat) (x : List Gate) : (d.setGates e x).chipId = d.chipId := rfl
@[simp] theorem Dev.setGates_safeReq (d : Dev) (e : Nat) (x : List Gate) : (d.setGates e x).safeReq = d.safeReq := rfl
@[simp] theorem Dev.setGates_time (d : Dev) (e : Nat) (x : List Gate) : (d.setGates e x).time = d.time := rfl
@[simp] theorem Dev.setGates_afe (d : Dev) (e : Nat) (x : List Gate) : (d.setGates e x).afe = d.afe := rfl
@[simp] theorem Dev.setGates_tdc (d : Dev) (e : Nat) (x : List Gate) : (d.setGates e x).tdc = { d.tdc with gates := d.tdc.gates.set e x } := rfl
@[simp] theorem Dev.setGates_lost (d : Dev) (e : Nat) (x : List Gate) : (d.setGates e x).lost = d.lost := rfl
@[simp] theorem Dev.setGates_cap (d : Dev) (e : Nat) (x : List Gate) : (d.setGates e x).cap = d.cap := rfl
@[simp] theorem Dev.setGates_se (d : Dev) (e : Nat) (x : List Gate) : (d.setGates e x).se = d.se := rfl
@[simp] theorem Dev.setGates_col (d : Dev) (e : Nat) (x : List Gate) : (d.setGates e x).col = d.col := rfl
@[simp] theorem Dev.setGates_cas (d : Dev) (e : Nat) (x : List Gate) : (d.setGates e x).cas = d.cas := rfl
@[simp] theorem Dev.setGates_tq (d : Dev) (e : Nat) (x : List Gate) : (d.setGates e x).tq = d.tq := rfl
@[simp] theorem Dev.setGates_outCtl (d : Dev) (e : Nat) (x : List Gate) : (d.setGates e x).outCtl = d.outCtl := rfl
@[simp] theorem Dev.setGates_lnk (d : Dev) (e : Nat) (x : List Gate) : (d.setGates e x).lnk = d.lnk := rfl
@[simp] theorem Dev.setGates_mbx (d : Dev) (e : Nat) (x : List Gate) : (d.setGates e x).mbx = d.mbx := rfl
@[simp] theorem Dev.setGates_pwr (d : Dev) (e : Nat) (x : List Gate) : (d.setGates e x).pwr = d.pwr := rfl
@[simp] theorem Dev.setGates_dma (d : Dev) (e : Nat) (x : List Gate) : (d.setGates e x).dma = d.dma := rfl
@[simp] theorem Dev.setGates_ram (d : Dev) (e : Nat) (x : List Gate) : (d.setGates e x).ram = d.ram := rfl
@[simp] theorem Dev.setGates_mon (d : Dev) (e : Nat) (x : List Gate) : (d.setGates e x).mon = d.mon := rfl
@[simp] theorem Dev.setGates_grd (d : Dev) (e : Nat) (x : List Gate) : (d.setGates e x).grd = d.grd := rfl
@[simp] theorem Dev.setGates_sec (d : Dev) (e : Nat) (x : List Gate) : (d.setGates e x).sec = d.sec := rfl

/-! ### setCapCh -/

@[simp] theorem Dev.setCapCh_clk (d : Dev) (n : Nat) (x : CapChannel) : (d.setCapCh n x).clk = d.clk := rfl
@[simp] theorem Dev.setCapCh_regs (d : Dev) (n : Nat) (x : CapChannel) : (d.setCapCh n x).regs = d.regs := rfl
@[simp] theorem Dev.setCapCh_shadow (d : Dev) (n : Nat) (x : CapChannel) : (d.setCapCh n x).shadow = d.shadow := rfl
@[simp] theorem Dev.setCapCh_live (d : Dev) (n : Nat) (x : CapChannel) : (d.setCapCh n x).live = d.live := rfl
@[simp] theorem Dev.setCapCh_commit (d : Dev) (n : Nat) (x : CapChannel) : (d.setCapCh n x).commit = d.commit := rfl
@[simp] theorem Dev.setCapCh_bud (d : Dev) (n : Nat) (x : CapChannel) : (d.setCapCh n x).bud = d.bud := rfl
@[simp] theorem Dev.setCapCh_ev (d : Dev) (n : Nat) (x : CapChannel) : (d.setCapCh n x).ev = d.ev := rfl
@[simp] theorem Dev.setCapCh_flt (d : Dev) (n : Nat) (x : CapChannel) : (d.setCapCh n x).flt = d.flt := rfl
@[simp] theorem Dev.setCapCh_out (d : Dev) (n : Nat) (x : CapChannel) : (d.setCapCh n x).out = d.out := rfl
@[simp] theorem Dev.setCapCh_outShort (d : Dev) (n : Nat) (x : CapChannel) : (d.setCapCh n x).outShort = d.outShort := rfl
@[simp] theorem Dev.setCapCh_fifos (d : Dev) (n : Nat) (x : CapChannel) : (d.setCapCh n x).fifos = d.fifos := rfl
@[simp] theorem Dev.setCapCh_rdata (d : Dev) (n : Nat) (x : CapChannel) : (d.setCapCh n x).rdata = d.rdata := rfl
@[simp] theorem Dev.setCapCh_free (d : Dev) (n : Nat) (x : CapChannel) : (d.setCapCh n x).free = d.free := rfl
@[simp] theorem Dev.setCapCh_latches (d : Dev) (n : Nat) (x : CapChannel) : (d.setCapCh n x).latches = d.latches := rfl
@[simp] theorem Dev.setCapCh_chipId (d : Dev) (n : Nat) (x : CapChannel) : (d.setCapCh n x).chipId = d.chipId := rfl
@[simp] theorem Dev.setCapCh_safeReq (d : Dev) (n : Nat) (x : CapChannel) : (d.setCapCh n x).safeReq = d.safeReq := rfl
@[simp] theorem Dev.setCapCh_time (d : Dev) (n : Nat) (x : CapChannel) : (d.setCapCh n x).time = d.time := rfl
@[simp] theorem Dev.setCapCh_afe (d : Dev) (n : Nat) (x : CapChannel) : (d.setCapCh n x).afe = d.afe := rfl
@[simp] theorem Dev.setCapCh_tdc (d : Dev) (n : Nat) (x : CapChannel) : (d.setCapCh n x).tdc = d.tdc := rfl
@[simp] theorem Dev.setCapCh_lost (d : Dev) (n : Nat) (x : CapChannel) : (d.setCapCh n x).lost = d.lost := rfl
@[simp] theorem Dev.setCapCh_cap (d : Dev) (n : Nat) (x : CapChannel) : (d.setCapCh n x).cap = { d.cap with ch := kset d.cap.ch n x } := rfl
@[simp] theorem Dev.setCapCh_se (d : Dev) (n : Nat) (x : CapChannel) : (d.setCapCh n x).se = d.se := rfl
@[simp] theorem Dev.setCapCh_col (d : Dev) (n : Nat) (x : CapChannel) : (d.setCapCh n x).col = d.col := rfl
@[simp] theorem Dev.setCapCh_cas (d : Dev) (n : Nat) (x : CapChannel) : (d.setCapCh n x).cas = d.cas := rfl
@[simp] theorem Dev.setCapCh_tq (d : Dev) (n : Nat) (x : CapChannel) : (d.setCapCh n x).tq = d.tq := rfl
@[simp] theorem Dev.setCapCh_outCtl (d : Dev) (n : Nat) (x : CapChannel) : (d.setCapCh n x).outCtl = d.outCtl := rfl
@[simp] theorem Dev.setCapCh_lnk (d : Dev) (n : Nat) (x : CapChannel) : (d.setCapCh n x).lnk = d.lnk := rfl
@[simp] theorem Dev.setCapCh_mbx (d : Dev) (n : Nat) (x : CapChannel) : (d.setCapCh n x).mbx = d.mbx := rfl
@[simp] theorem Dev.setCapCh_pwr (d : Dev) (n : Nat) (x : CapChannel) : (d.setCapCh n x).pwr = d.pwr := rfl
@[simp] theorem Dev.setCapCh_dma (d : Dev) (n : Nat) (x : CapChannel) : (d.setCapCh n x).dma = d.dma := rfl
@[simp] theorem Dev.setCapCh_ram (d : Dev) (n : Nat) (x : CapChannel) : (d.setCapCh n x).ram = d.ram := rfl
@[simp] theorem Dev.setCapCh_mon (d : Dev) (n : Nat) (x : CapChannel) : (d.setCapCh n x).mon = d.mon := rfl
@[simp] theorem Dev.setCapCh_grd (d : Dev) (n : Nat) (x : CapChannel) : (d.setCapCh n x).grd = d.grd := rfl
@[simp] theorem Dev.setCapCh_sec (d : Dev) (n : Nat) (x : CapChannel) : (d.setCapCh n x).sec = d.sec := rfl

/-! ### setGainSums -/

@[simp] theorem Dev.setGainSums_clk (d : Dev) (n : Nat) (x : GainSums) : (d.setGainSums n x).clk = d.clk := rfl
@[simp] theorem Dev.setGainSums_regs (d : Dev) (n : Nat) (x : GainSums) : (d.setGainSums n x).regs = d.regs := rfl
@[simp] theorem Dev.setGainSums_shadow (d : Dev) (n : Nat) (x : GainSums) : (d.setGainSums n x).shadow = d.shadow := rfl
@[simp] theorem Dev.setGainSums_live (d : Dev) (n : Nat) (x : GainSums) : (d.setGainSums n x).live = d.live := rfl
@[simp] theorem Dev.setGainSums_commit (d : Dev) (n : Nat) (x : GainSums) : (d.setGainSums n x).commit = d.commit := rfl
@[simp] theorem Dev.setGainSums_bud (d : Dev) (n : Nat) (x : GainSums) : (d.setGainSums n x).bud = d.bud := rfl
@[simp] theorem Dev.setGainSums_ev (d : Dev) (n : Nat) (x : GainSums) : (d.setGainSums n x).ev = d.ev := rfl
@[simp] theorem Dev.setGainSums_flt (d : Dev) (n : Nat) (x : GainSums) : (d.setGainSums n x).flt = d.flt := rfl
@[simp] theorem Dev.setGainSums_out (d : Dev) (n : Nat) (x : GainSums) : (d.setGainSums n x).out = d.out := rfl
@[simp] theorem Dev.setGainSums_outShort (d : Dev) (n : Nat) (x : GainSums) : (d.setGainSums n x).outShort = d.outShort := rfl
@[simp] theorem Dev.setGainSums_fifos (d : Dev) (n : Nat) (x : GainSums) : (d.setGainSums n x).fifos = d.fifos := rfl
@[simp] theorem Dev.setGainSums_rdata (d : Dev) (n : Nat) (x : GainSums) : (d.setGainSums n x).rdata = d.rdata := rfl
@[simp] theorem Dev.setGainSums_free (d : Dev) (n : Nat) (x : GainSums) : (d.setGainSums n x).free = d.free := rfl
@[simp] theorem Dev.setGainSums_latches (d : Dev) (n : Nat) (x : GainSums) : (d.setGainSums n x).latches = d.latches := rfl
@[simp] theorem Dev.setGainSums_chipId (d : Dev) (n : Nat) (x : GainSums) : (d.setGainSums n x).chipId = d.chipId := rfl
@[simp] theorem Dev.setGainSums_safeReq (d : Dev) (n : Nat) (x : GainSums) : (d.setGainSums n x).safeReq = d.safeReq := rfl
@[simp] theorem Dev.setGainSums_time (d : Dev) (n : Nat) (x : GainSums) : (d.setGainSums n x).time = d.time := rfl
@[simp] theorem Dev.setGainSums_afe (d : Dev) (n : Nat) (x : GainSums) : (d.setGainSums n x).afe = d.afe := rfl
@[simp] theorem Dev.setGainSums_tdc (d : Dev) (n : Nat) (x : GainSums) : (d.setGainSums n x).tdc = d.tdc := rfl
@[simp] theorem Dev.setGainSums_lost (d : Dev) (n : Nat) (x : GainSums) : (d.setGainSums n x).lost = d.lost := rfl
@[simp] theorem Dev.setGainSums_cap (d : Dev) (n : Nat) (x : GainSums) : (d.setGainSums n x).cap = d.cap := rfl
@[simp] theorem Dev.setGainSums_se (d : Dev) (n : Nat) (x : GainSums) : (d.setGainSums n x).se = { d.se with gain := kset d.se.gain n x } := rfl
@[simp] theorem Dev.setGainSums_col (d : Dev) (n : Nat) (x : GainSums) : (d.setGainSums n x).col = d.col := rfl
@[simp] theorem Dev.setGainSums_cas (d : Dev) (n : Nat) (x : GainSums) : (d.setGainSums n x).cas = d.cas := rfl
@[simp] theorem Dev.setGainSums_tq (d : Dev) (n : Nat) (x : GainSums) : (d.setGainSums n x).tq = d.tq := rfl
@[simp] theorem Dev.setGainSums_outCtl (d : Dev) (n : Nat) (x : GainSums) : (d.setGainSums n x).outCtl = d.outCtl := rfl
@[simp] theorem Dev.setGainSums_lnk (d : Dev) (n : Nat) (x : GainSums) : (d.setGainSums n x).lnk = d.lnk := rfl
@[simp] theorem Dev.setGainSums_mbx (d : Dev) (n : Nat) (x : GainSums) : (d.setGainSums n x).mbx = d.mbx := rfl
@[simp] theorem Dev.setGainSums_pwr (d : Dev) (n : Nat) (x : GainSums) : (d.setGainSums n x).pwr = d.pwr := rfl
@[simp] theorem Dev.setGainSums_dma (d : Dev) (n : Nat) (x : GainSums) : (d.setGainSums n x).dma = d.dma := rfl
@[simp] theorem Dev.setGainSums_ram (d : Dev) (n : Nat) (x : GainSums) : (d.setGainSums n x).ram = d.ram := rfl
@[simp] theorem Dev.setGainSums_mon (d : Dev) (n : Nat) (x : GainSums) : (d.setGainSums n x).mon = d.mon := rfl
@[simp] theorem Dev.setGainSums_grd (d : Dev) (n : Nat) (x : GainSums) : (d.setGainSums n x).grd = d.grd := rfl
@[simp] theorem Dev.setGainSums_sec (d : Dev) (n : Nat) (x : GainSums) : (d.setGainSums n x).sec = d.sec := rfl

/-! ### setEngine -/

@[simp] theorem Dev.setEngine_clk (d : Dev) (k : Nat) (x : Engine) : (d.setEngine k x).clk = d.clk := rfl
@[simp] theorem Dev.setEngine_regs (d : Dev) (k : Nat) (x : Engine) : (d.setEngine k x).regs = d.regs := rfl
@[simp] theorem Dev.setEngine_shadow (d : Dev) (k : Nat) (x : Engine) : (d.setEngine k x).shadow = d.shadow := rfl
@[simp] theorem Dev.setEngine_live (d : Dev) (k : Nat) (x : Engine) : (d.setEngine k x).live = d.live := rfl
@[simp] theorem Dev.setEngine_commit (d : Dev) (k : Nat) (x : Engine) : (d.setEngine k x).commit = d.commit := rfl
@[simp] theorem Dev.setEngine_bud (d : Dev) (k : Nat) (x : Engine) : (d.setEngine k x).bud = d.bud := rfl
@[simp] theorem Dev.setEngine_ev (d : Dev) (k : Nat) (x : Engine) : (d.setEngine k x).ev = d.ev := rfl
@[simp] theorem Dev.setEngine_flt (d : Dev) (k : Nat) (x : Engine) : (d.setEngine k x).flt = d.flt := rfl
@[simp] theorem Dev.setEngine_out (d : Dev) (k : Nat) (x : Engine) : (d.setEngine k x).out = d.out := rfl
@[simp] theorem Dev.setEngine_outShort (d : Dev) (k : Nat) (x : Engine) : (d.setEngine k x).outShort = d.outShort := rfl
@[simp] theorem Dev.setEngine_fifos (d : Dev) (k : Nat) (x : Engine) : (d.setEngine k x).fifos = d.fifos := rfl
@[simp] theorem Dev.setEngine_rdata (d : Dev) (k : Nat) (x : Engine) : (d.setEngine k x).rdata = d.rdata := rfl
@[simp] theorem Dev.setEngine_free (d : Dev) (k : Nat) (x : Engine) : (d.setEngine k x).free = d.free := rfl
@[simp] theorem Dev.setEngine_latches (d : Dev) (k : Nat) (x : Engine) : (d.setEngine k x).latches = d.latches := rfl
@[simp] theorem Dev.setEngine_chipId (d : Dev) (k : Nat) (x : Engine) : (d.setEngine k x).chipId = d.chipId := rfl
@[simp] theorem Dev.setEngine_safeReq (d : Dev) (k : Nat) (x : Engine) : (d.setEngine k x).safeReq = d.safeReq := rfl
@[simp] theorem Dev.setEngine_time (d : Dev) (k : Nat) (x : Engine) : (d.setEngine k x).time = d.time := rfl
@[simp] theorem Dev.setEngine_afe (d : Dev) (k : Nat) (x : Engine) : (d.setEngine k x).afe = d.afe := rfl
@[simp] theorem Dev.setEngine_tdc (d : Dev) (k : Nat) (x : Engine) : (d.setEngine k x).tdc = d.tdc := rfl
@[simp] theorem Dev.setEngine_lost (d : Dev) (k : Nat) (x : Engine) : (d.setEngine k x).lost = d.lost := rfl
@[simp] theorem Dev.setEngine_cap (d : Dev) (k : Nat) (x : Engine) : (d.setEngine k x).cap = d.cap := rfl
@[simp] theorem Dev.setEngine_se (d : Dev) (k : Nat) (x : Engine) : (d.setEngine k x).se = { d.se with engines := d.se.engines.set k x } := rfl
@[simp] theorem Dev.setEngine_col (d : Dev) (k : Nat) (x : Engine) : (d.setEngine k x).col = d.col := rfl
@[simp] theorem Dev.setEngine_cas (d : Dev) (k : Nat) (x : Engine) : (d.setEngine k x).cas = d.cas := rfl
@[simp] theorem Dev.setEngine_tq (d : Dev) (k : Nat) (x : Engine) : (d.setEngine k x).tq = d.tq := rfl
@[simp] theorem Dev.setEngine_outCtl (d : Dev) (k : Nat) (x : Engine) : (d.setEngine k x).outCtl = d.outCtl := rfl
@[simp] theorem Dev.setEngine_lnk (d : Dev) (k : Nat) (x : Engine) : (d.setEngine k x).lnk = d.lnk := rfl
@[simp] theorem Dev.setEngine_mbx (d : Dev) (k : Nat) (x : Engine) : (d.setEngine k x).mbx = d.mbx := rfl
@[simp] theorem Dev.setEngine_pwr (d : Dev) (k : Nat) (x : Engine) : (d.setEngine k x).pwr = d.pwr := rfl
@[simp] theorem Dev.setEngine_dma (d : Dev) (k : Nat) (x : Engine) : (d.setEngine k x).dma = d.dma := rfl
@[simp] theorem Dev.setEngine_ram (d : Dev) (k : Nat) (x : Engine) : (d.setEngine k x).ram = d.ram := rfl
@[simp] theorem Dev.setEngine_mon (d : Dev) (k : Nat) (x : Engine) : (d.setEngine k x).mon = d.mon := rfl
@[simp] theorem Dev.setEngine_grd (d : Dev) (k : Nat) (x : Engine) : (d.setEngine k x).grd = d.grd := rfl
@[simp] theorem Dev.setEngine_sec (d : Dev) (k : Nat) (x : Engine) : (d.setEngine k x).sec = d.sec := rfl

/-! ### setCasPort -/

@[simp] theorem Dev.setCasPort_clk (d : Dev) (j : Nat) (x : CasPort) : (d.setCasPort j x).clk = d.clk := rfl
@[simp] theorem Dev.setCasPort_regs (d : Dev) (j : Nat) (x : CasPort) : (d.setCasPort j x).regs = d.regs := rfl
@[simp] theorem Dev.setCasPort_shadow (d : Dev) (j : Nat) (x : CasPort) : (d.setCasPort j x).shadow = d.shadow := rfl
@[simp] theorem Dev.setCasPort_live (d : Dev) (j : Nat) (x : CasPort) : (d.setCasPort j x).live = d.live := rfl
@[simp] theorem Dev.setCasPort_commit (d : Dev) (j : Nat) (x : CasPort) : (d.setCasPort j x).commit = d.commit := rfl
@[simp] theorem Dev.setCasPort_bud (d : Dev) (j : Nat) (x : CasPort) : (d.setCasPort j x).bud = d.bud := rfl
@[simp] theorem Dev.setCasPort_ev (d : Dev) (j : Nat) (x : CasPort) : (d.setCasPort j x).ev = d.ev := rfl
@[simp] theorem Dev.setCasPort_flt (d : Dev) (j : Nat) (x : CasPort) : (d.setCasPort j x).flt = d.flt := rfl
@[simp] theorem Dev.setCasPort_out (d : Dev) (j : Nat) (x : CasPort) : (d.setCasPort j x).out = d.out := rfl
@[simp] theorem Dev.setCasPort_outShort (d : Dev) (j : Nat) (x : CasPort) : (d.setCasPort j x).outShort = d.outShort := rfl
@[simp] theorem Dev.setCasPort_fifos (d : Dev) (j : Nat) (x : CasPort) : (d.setCasPort j x).fifos = d.fifos := rfl
@[simp] theorem Dev.setCasPort_rdata (d : Dev) (j : Nat) (x : CasPort) : (d.setCasPort j x).rdata = d.rdata := rfl
@[simp] theorem Dev.setCasPort_free (d : Dev) (j : Nat) (x : CasPort) : (d.setCasPort j x).free = d.free := rfl
@[simp] theorem Dev.setCasPort_latches (d : Dev) (j : Nat) (x : CasPort) : (d.setCasPort j x).latches = d.latches := rfl
@[simp] theorem Dev.setCasPort_chipId (d : Dev) (j : Nat) (x : CasPort) : (d.setCasPort j x).chipId = d.chipId := rfl
@[simp] theorem Dev.setCasPort_safeReq (d : Dev) (j : Nat) (x : CasPort) : (d.setCasPort j x).safeReq = d.safeReq := rfl
@[simp] theorem Dev.setCasPort_time (d : Dev) (j : Nat) (x : CasPort) : (d.setCasPort j x).time = d.time := rfl
@[simp] theorem Dev.setCasPort_afe (d : Dev) (j : Nat) (x : CasPort) : (d.setCasPort j x).afe = d.afe := rfl
@[simp] theorem Dev.setCasPort_tdc (d : Dev) (j : Nat) (x : CasPort) : (d.setCasPort j x).tdc = d.tdc := rfl
@[simp] theorem Dev.setCasPort_lost (d : Dev) (j : Nat) (x : CasPort) : (d.setCasPort j x).lost = d.lost := rfl
@[simp] theorem Dev.setCasPort_cap (d : Dev) (j : Nat) (x : CasPort) : (d.setCasPort j x).cap = d.cap := rfl
@[simp] theorem Dev.setCasPort_se (d : Dev) (j : Nat) (x : CasPort) : (d.setCasPort j x).se = d.se := rfl
@[simp] theorem Dev.setCasPort_col (d : Dev) (j : Nat) (x : CasPort) : (d.setCasPort j x).col = d.col := rfl
@[simp] theorem Dev.setCasPort_cas (d : Dev) (j : Nat) (x : CasPort) : (d.setCasPort j x).cas = { d.cas with ports := d.cas.ports.set j x } := rfl
@[simp] theorem Dev.setCasPort_tq (d : Dev) (j : Nat) (x : CasPort) : (d.setCasPort j x).tq = d.tq := rfl
@[simp] theorem Dev.setCasPort_outCtl (d : Dev) (j : Nat) (x : CasPort) : (d.setCasPort j x).outCtl = d.outCtl := rfl
@[simp] theorem Dev.setCasPort_lnk (d : Dev) (j : Nat) (x : CasPort) : (d.setCasPort j x).lnk = d.lnk := rfl
@[simp] theorem Dev.setCasPort_mbx (d : Dev) (j : Nat) (x : CasPort) : (d.setCasPort j x).mbx = d.mbx := rfl
@[simp] theorem Dev.setCasPort_pwr (d : Dev) (j : Nat) (x : CasPort) : (d.setCasPort j x).pwr = d.pwr := rfl
@[simp] theorem Dev.setCasPort_dma (d : Dev) (j : Nat) (x : CasPort) : (d.setCasPort j x).dma = d.dma := rfl
@[simp] theorem Dev.setCasPort_ram (d : Dev) (j : Nat) (x : CasPort) : (d.setCasPort j x).ram = d.ram := rfl
@[simp] theorem Dev.setCasPort_mon (d : Dev) (j : Nat) (x : CasPort) : (d.setCasPort j x).mon = d.mon := rfl
@[simp] theorem Dev.setCasPort_grd (d : Dev) (j : Nat) (x : CasPort) : (d.setCasPort j x).grd = d.grd := rfl
@[simp] theorem Dev.setCasPort_sec (d : Dev) (j : Nat) (x : CasPort) : (d.setCasPort j x).sec = d.sec := rfl

/-! ### setQueue -/

@[simp] theorem Dev.setQueue_clk (d : Dev) (i : Nat) (x : TQueue) : (d.setQueue i x).clk = d.clk := rfl
@[simp] theorem Dev.setQueue_regs (d : Dev) (i : Nat) (x : TQueue) : (d.setQueue i x).regs = d.regs := rfl
@[simp] theorem Dev.setQueue_shadow (d : Dev) (i : Nat) (x : TQueue) : (d.setQueue i x).shadow = d.shadow := rfl
@[simp] theorem Dev.setQueue_live (d : Dev) (i : Nat) (x : TQueue) : (d.setQueue i x).live = d.live := rfl
@[simp] theorem Dev.setQueue_commit (d : Dev) (i : Nat) (x : TQueue) : (d.setQueue i x).commit = d.commit := rfl
@[simp] theorem Dev.setQueue_bud (d : Dev) (i : Nat) (x : TQueue) : (d.setQueue i x).bud = d.bud := rfl
@[simp] theorem Dev.setQueue_ev (d : Dev) (i : Nat) (x : TQueue) : (d.setQueue i x).ev = d.ev := rfl
@[simp] theorem Dev.setQueue_flt (d : Dev) (i : Nat) (x : TQueue) : (d.setQueue i x).flt = d.flt := rfl
@[simp] theorem Dev.setQueue_out (d : Dev) (i : Nat) (x : TQueue) : (d.setQueue i x).out = d.out := rfl
@[simp] theorem Dev.setQueue_outShort (d : Dev) (i : Nat) (x : TQueue) : (d.setQueue i x).outShort = d.outShort := rfl
@[simp] theorem Dev.setQueue_fifos (d : Dev) (i : Nat) (x : TQueue) : (d.setQueue i x).fifos = d.fifos := rfl
@[simp] theorem Dev.setQueue_rdata (d : Dev) (i : Nat) (x : TQueue) : (d.setQueue i x).rdata = d.rdata := rfl
@[simp] theorem Dev.setQueue_free (d : Dev) (i : Nat) (x : TQueue) : (d.setQueue i x).free = d.free := rfl
@[simp] theorem Dev.setQueue_latches (d : Dev) (i : Nat) (x : TQueue) : (d.setQueue i x).latches = d.latches := rfl
@[simp] theorem Dev.setQueue_chipId (d : Dev) (i : Nat) (x : TQueue) : (d.setQueue i x).chipId = d.chipId := rfl
@[simp] theorem Dev.setQueue_safeReq (d : Dev) (i : Nat) (x : TQueue) : (d.setQueue i x).safeReq = d.safeReq := rfl
@[simp] theorem Dev.setQueue_time (d : Dev) (i : Nat) (x : TQueue) : (d.setQueue i x).time = d.time := rfl
@[simp] theorem Dev.setQueue_afe (d : Dev) (i : Nat) (x : TQueue) : (d.setQueue i x).afe = d.afe := rfl
@[simp] theorem Dev.setQueue_tdc (d : Dev) (i : Nat) (x : TQueue) : (d.setQueue i x).tdc = d.tdc := rfl
@[simp] theorem Dev.setQueue_lost (d : Dev) (i : Nat) (x : TQueue) : (d.setQueue i x).lost = d.lost := rfl
@[simp] theorem Dev.setQueue_cap (d : Dev) (i : Nat) (x : TQueue) : (d.setQueue i x).cap = d.cap := rfl
@[simp] theorem Dev.setQueue_se (d : Dev) (i : Nat) (x : TQueue) : (d.setQueue i x).se = d.se := rfl
@[simp] theorem Dev.setQueue_col (d : Dev) (i : Nat) (x : TQueue) : (d.setQueue i x).col = d.col := rfl
@[simp] theorem Dev.setQueue_cas (d : Dev) (i : Nat) (x : TQueue) : (d.setQueue i x).cas = d.cas := rfl
@[simp] theorem Dev.setQueue_tq (d : Dev) (i : Nat) (x : TQueue) : (d.setQueue i x).tq = { d.tq with q := kset d.tq.q i x } := rfl
@[simp] theorem Dev.setQueue_outCtl (d : Dev) (i : Nat) (x : TQueue) : (d.setQueue i x).outCtl = d.outCtl := rfl
@[simp] theorem Dev.setQueue_lnk (d : Dev) (i : Nat) (x : TQueue) : (d.setQueue i x).lnk = d.lnk := rfl
@[simp] theorem Dev.setQueue_mbx (d : Dev) (i : Nat) (x : TQueue) : (d.setQueue i x).mbx = d.mbx := rfl
@[simp] theorem Dev.setQueue_pwr (d : Dev) (i : Nat) (x : TQueue) : (d.setQueue i x).pwr = d.pwr := rfl
@[simp] theorem Dev.setQueue_dma (d : Dev) (i : Nat) (x : TQueue) : (d.setQueue i x).dma = d.dma := rfl
@[simp] theorem Dev.setQueue_ram (d : Dev) (i : Nat) (x : TQueue) : (d.setQueue i x).ram = d.ram := rfl
@[simp] theorem Dev.setQueue_mon (d : Dev) (i : Nat) (x : TQueue) : (d.setQueue i x).mon = d.mon := rfl
@[simp] theorem Dev.setQueue_grd (d : Dev) (i : Nat) (x : TQueue) : (d.setQueue i x).grd = d.grd := rfl
@[simp] theorem Dev.setQueue_sec (d : Dev) (i : Nat) (x : TQueue) : (d.setQueue i x).sec = d.sec := rfl

/-! ### setUpPort -/

@[simp] theorem Dev.setUpPort_clk (d : Dev) (p : Nat) (x : UpPort) : (d.setUpPort p x).clk = d.clk := rfl
@[simp] theorem Dev.setUpPort_regs (d : Dev) (p : Nat) (x : UpPort) : (d.setUpPort p x).regs = d.regs := rfl
@[simp] theorem Dev.setUpPort_shadow (d : Dev) (p : Nat) (x : UpPort) : (d.setUpPort p x).shadow = d.shadow := rfl
@[simp] theorem Dev.setUpPort_live (d : Dev) (p : Nat) (x : UpPort) : (d.setUpPort p x).live = d.live := rfl
@[simp] theorem Dev.setUpPort_commit (d : Dev) (p : Nat) (x : UpPort) : (d.setUpPort p x).commit = d.commit := rfl
@[simp] theorem Dev.setUpPort_bud (d : Dev) (p : Nat) (x : UpPort) : (d.setUpPort p x).bud = d.bud := rfl
@[simp] theorem Dev.setUpPort_ev (d : Dev) (p : Nat) (x : UpPort) : (d.setUpPort p x).ev = d.ev := rfl
@[simp] theorem Dev.setUpPort_flt (d : Dev) (p : Nat) (x : UpPort) : (d.setUpPort p x).flt = d.flt := rfl
@[simp] theorem Dev.setUpPort_out (d : Dev) (p : Nat) (x : UpPort) : (d.setUpPort p x).out = d.out := rfl
@[simp] theorem Dev.setUpPort_outShort (d : Dev) (p : Nat) (x : UpPort) : (d.setUpPort p x).outShort = d.outShort := rfl
@[simp] theorem Dev.setUpPort_fifos (d : Dev) (p : Nat) (x : UpPort) : (d.setUpPort p x).fifos = d.fifos := rfl
@[simp] theorem Dev.setUpPort_rdata (d : Dev) (p : Nat) (x : UpPort) : (d.setUpPort p x).rdata = d.rdata := rfl
@[simp] theorem Dev.setUpPort_free (d : Dev) (p : Nat) (x : UpPort) : (d.setUpPort p x).free = d.free := rfl
@[simp] theorem Dev.setUpPort_latches (d : Dev) (p : Nat) (x : UpPort) : (d.setUpPort p x).latches = d.latches := rfl
@[simp] theorem Dev.setUpPort_chipId (d : Dev) (p : Nat) (x : UpPort) : (d.setUpPort p x).chipId = d.chipId := rfl
@[simp] theorem Dev.setUpPort_safeReq (d : Dev) (p : Nat) (x : UpPort) : (d.setUpPort p x).safeReq = d.safeReq := rfl
@[simp] theorem Dev.setUpPort_time (d : Dev) (p : Nat) (x : UpPort) : (d.setUpPort p x).time = d.time := rfl
@[simp] theorem Dev.setUpPort_afe (d : Dev) (p : Nat) (x : UpPort) : (d.setUpPort p x).afe = d.afe := rfl
@[simp] theorem Dev.setUpPort_tdc (d : Dev) (p : Nat) (x : UpPort) : (d.setUpPort p x).tdc = d.tdc := rfl
@[simp] theorem Dev.setUpPort_lost (d : Dev) (p : Nat) (x : UpPort) : (d.setUpPort p x).lost = d.lost := rfl
@[simp] theorem Dev.setUpPort_cap (d : Dev) (p : Nat) (x : UpPort) : (d.setUpPort p x).cap = d.cap := rfl
@[simp] theorem Dev.setUpPort_se (d : Dev) (p : Nat) (x : UpPort) : (d.setUpPort p x).se = d.se := rfl
@[simp] theorem Dev.setUpPort_col (d : Dev) (p : Nat) (x : UpPort) : (d.setUpPort p x).col = d.col := rfl
@[simp] theorem Dev.setUpPort_cas (d : Dev) (p : Nat) (x : UpPort) : (d.setUpPort p x).cas = d.cas := rfl
@[simp] theorem Dev.setUpPort_tq (d : Dev) (p : Nat) (x : UpPort) : (d.setUpPort p x).tq = { d.tq with up := d.tq.up.set p x } := rfl
@[simp] theorem Dev.setUpPort_outCtl (d : Dev) (p : Nat) (x : UpPort) : (d.setUpPort p x).outCtl = d.outCtl := rfl
@[simp] theorem Dev.setUpPort_lnk (d : Dev) (p : Nat) (x : UpPort) : (d.setUpPort p x).lnk = d.lnk := rfl
@[simp] theorem Dev.setUpPort_mbx (d : Dev) (p : Nat) (x : UpPort) : (d.setUpPort p x).mbx = d.mbx := rfl
@[simp] theorem Dev.setUpPort_pwr (d : Dev) (p : Nat) (x : UpPort) : (d.setUpPort p x).pwr = d.pwr := rfl
@[simp] theorem Dev.setUpPort_dma (d : Dev) (p : Nat) (x : UpPort) : (d.setUpPort p x).dma = d.dma := rfl
@[simp] theorem Dev.setUpPort_ram (d : Dev) (p : Nat) (x : UpPort) : (d.setUpPort p x).ram = d.ram := rfl
@[simp] theorem Dev.setUpPort_mon (d : Dev) (p : Nat) (x : UpPort) : (d.setUpPort p x).mon = d.mon := rfl
@[simp] theorem Dev.setUpPort_grd (d : Dev) (p : Nat) (x : UpPort) : (d.setUpPort p x).grd = d.grd := rfl
@[simp] theorem Dev.setUpPort_sec (d : Dev) (p : Nat) (x : UpPort) : (d.setUpPort p x).sec = d.sec := rfl

/-! ### setPort -/

@[simp] theorem Dev.setPort_clk (d : Dev) (p : Nat) (x : LnkPort) : (d.setPort p x).clk = d.clk := rfl
@[simp] theorem Dev.setPort_regs (d : Dev) (p : Nat) (x : LnkPort) : (d.setPort p x).regs = d.regs := rfl
@[simp] theorem Dev.setPort_shadow (d : Dev) (p : Nat) (x : LnkPort) : (d.setPort p x).shadow = d.shadow := rfl
@[simp] theorem Dev.setPort_live (d : Dev) (p : Nat) (x : LnkPort) : (d.setPort p x).live = d.live := rfl
@[simp] theorem Dev.setPort_commit (d : Dev) (p : Nat) (x : LnkPort) : (d.setPort p x).commit = d.commit := rfl
@[simp] theorem Dev.setPort_bud (d : Dev) (p : Nat) (x : LnkPort) : (d.setPort p x).bud = d.bud := rfl
@[simp] theorem Dev.setPort_ev (d : Dev) (p : Nat) (x : LnkPort) : (d.setPort p x).ev = d.ev := rfl
@[simp] theorem Dev.setPort_flt (d : Dev) (p : Nat) (x : LnkPort) : (d.setPort p x).flt = d.flt := rfl
@[simp] theorem Dev.setPort_out (d : Dev) (p : Nat) (x : LnkPort) : (d.setPort p x).out = d.out := rfl
@[simp] theorem Dev.setPort_outShort (d : Dev) (p : Nat) (x : LnkPort) : (d.setPort p x).outShort = d.outShort := rfl
@[simp] theorem Dev.setPort_fifos (d : Dev) (p : Nat) (x : LnkPort) : (d.setPort p x).fifos = d.fifos := rfl
@[simp] theorem Dev.setPort_rdata (d : Dev) (p : Nat) (x : LnkPort) : (d.setPort p x).rdata = d.rdata := rfl
@[simp] theorem Dev.setPort_free (d : Dev) (p : Nat) (x : LnkPort) : (d.setPort p x).free = d.free := rfl
@[simp] theorem Dev.setPort_latches (d : Dev) (p : Nat) (x : LnkPort) : (d.setPort p x).latches = d.latches := rfl
@[simp] theorem Dev.setPort_chipId (d : Dev) (p : Nat) (x : LnkPort) : (d.setPort p x).chipId = d.chipId := rfl
@[simp] theorem Dev.setPort_safeReq (d : Dev) (p : Nat) (x : LnkPort) : (d.setPort p x).safeReq = d.safeReq := rfl
@[simp] theorem Dev.setPort_time (d : Dev) (p : Nat) (x : LnkPort) : (d.setPort p x).time = d.time := rfl
@[simp] theorem Dev.setPort_afe (d : Dev) (p : Nat) (x : LnkPort) : (d.setPort p x).afe = d.afe := rfl
@[simp] theorem Dev.setPort_tdc (d : Dev) (p : Nat) (x : LnkPort) : (d.setPort p x).tdc = d.tdc := rfl
@[simp] theorem Dev.setPort_lost (d : Dev) (p : Nat) (x : LnkPort) : (d.setPort p x).lost = d.lost := rfl
@[simp] theorem Dev.setPort_cap (d : Dev) (p : Nat) (x : LnkPort) : (d.setPort p x).cap = d.cap := rfl
@[simp] theorem Dev.setPort_se (d : Dev) (p : Nat) (x : LnkPort) : (d.setPort p x).se = d.se := rfl
@[simp] theorem Dev.setPort_col (d : Dev) (p : Nat) (x : LnkPort) : (d.setPort p x).col = d.col := rfl
@[simp] theorem Dev.setPort_cas (d : Dev) (p : Nat) (x : LnkPort) : (d.setPort p x).cas = d.cas := rfl
@[simp] theorem Dev.setPort_tq (d : Dev) (p : Nat) (x : LnkPort) : (d.setPort p x).tq = d.tq := rfl
@[simp] theorem Dev.setPort_outCtl (d : Dev) (p : Nat) (x : LnkPort) : (d.setPort p x).outCtl = d.outCtl := rfl
@[simp] theorem Dev.setPort_lnk (d : Dev) (p : Nat) (x : LnkPort) : (d.setPort p x).lnk = { d.lnk with ports := d.lnk.ports.set p x } := rfl
@[simp] theorem Dev.setPort_mbx (d : Dev) (p : Nat) (x : LnkPort) : (d.setPort p x).mbx = d.mbx := rfl
@[simp] theorem Dev.setPort_pwr (d : Dev) (p : Nat) (x : LnkPort) : (d.setPort p x).pwr = d.pwr := rfl
@[simp] theorem Dev.setPort_dma (d : Dev) (p : Nat) (x : LnkPort) : (d.setPort p x).dma = d.dma := rfl
@[simp] theorem Dev.setPort_ram (d : Dev) (p : Nat) (x : LnkPort) : (d.setPort p x).ram = d.ram := rfl
@[simp] theorem Dev.setPort_mon (d : Dev) (p : Nat) (x : LnkPort) : (d.setPort p x).mon = d.mon := rfl
@[simp] theorem Dev.setPort_grd (d : Dev) (p : Nat) (x : LnkPort) : (d.setPort p x).grd = d.grd := rfl
@[simp] theorem Dev.setPort_sec (d : Dev) (p : Nat) (x : LnkPort) : (d.setPort p x).sec = d.sec := rfl

/-! ### setLane -/

@[simp] theorem Dev.setLane_clk (d : Dev) (l : Nat) (x : Lane) : (d.setLane l x).clk = d.clk := rfl
@[simp] theorem Dev.setLane_regs (d : Dev) (l : Nat) (x : Lane) : (d.setLane l x).regs = d.regs := rfl
@[simp] theorem Dev.setLane_shadow (d : Dev) (l : Nat) (x : Lane) : (d.setLane l x).shadow = d.shadow := rfl
@[simp] theorem Dev.setLane_live (d : Dev) (l : Nat) (x : Lane) : (d.setLane l x).live = d.live := rfl
@[simp] theorem Dev.setLane_commit (d : Dev) (l : Nat) (x : Lane) : (d.setLane l x).commit = d.commit := rfl
@[simp] theorem Dev.setLane_bud (d : Dev) (l : Nat) (x : Lane) : (d.setLane l x).bud = d.bud := rfl
@[simp] theorem Dev.setLane_ev (d : Dev) (l : Nat) (x : Lane) : (d.setLane l x).ev = d.ev := rfl
@[simp] theorem Dev.setLane_flt (d : Dev) (l : Nat) (x : Lane) : (d.setLane l x).flt = d.flt := rfl
@[simp] theorem Dev.setLane_out (d : Dev) (l : Nat) (x : Lane) : (d.setLane l x).out = d.out := rfl
@[simp] theorem Dev.setLane_outShort (d : Dev) (l : Nat) (x : Lane) : (d.setLane l x).outShort = d.outShort := rfl
@[simp] theorem Dev.setLane_fifos (d : Dev) (l : Nat) (x : Lane) : (d.setLane l x).fifos = d.fifos := rfl
@[simp] theorem Dev.setLane_rdata (d : Dev) (l : Nat) (x : Lane) : (d.setLane l x).rdata = d.rdata := rfl
@[simp] theorem Dev.setLane_free (d : Dev) (l : Nat) (x : Lane) : (d.setLane l x).free = d.free := rfl
@[simp] theorem Dev.setLane_latches (d : Dev) (l : Nat) (x : Lane) : (d.setLane l x).latches = d.latches := rfl
@[simp] theorem Dev.setLane_chipId (d : Dev) (l : Nat) (x : Lane) : (d.setLane l x).chipId = d.chipId := rfl
@[simp] theorem Dev.setLane_safeReq (d : Dev) (l : Nat) (x : Lane) : (d.setLane l x).safeReq = d.safeReq := rfl
@[simp] theorem Dev.setLane_time (d : Dev) (l : Nat) (x : Lane) : (d.setLane l x).time = d.time := rfl
@[simp] theorem Dev.setLane_afe (d : Dev) (l : Nat) (x : Lane) : (d.setLane l x).afe = d.afe := rfl
@[simp] theorem Dev.setLane_tdc (d : Dev) (l : Nat) (x : Lane) : (d.setLane l x).tdc = d.tdc := rfl
@[simp] theorem Dev.setLane_lost (d : Dev) (l : Nat) (x : Lane) : (d.setLane l x).lost = d.lost := rfl
@[simp] theorem Dev.setLane_cap (d : Dev) (l : Nat) (x : Lane) : (d.setLane l x).cap = d.cap := rfl
@[simp] theorem Dev.setLane_se (d : Dev) (l : Nat) (x : Lane) : (d.setLane l x).se = d.se := rfl
@[simp] theorem Dev.setLane_col (d : Dev) (l : Nat) (x : Lane) : (d.setLane l x).col = d.col := rfl
@[simp] theorem Dev.setLane_cas (d : Dev) (l : Nat) (x : Lane) : (d.setLane l x).cas = d.cas := rfl
@[simp] theorem Dev.setLane_tq (d : Dev) (l : Nat) (x : Lane) : (d.setLane l x).tq = d.tq := rfl
@[simp] theorem Dev.setLane_outCtl (d : Dev) (l : Nat) (x : Lane) : (d.setLane l x).outCtl = d.outCtl := rfl
@[simp] theorem Dev.setLane_lnk (d : Dev) (l : Nat) (x : Lane) : (d.setLane l x).lnk = { d.lnk with lanes := d.lnk.lanes.set l x } := rfl
@[simp] theorem Dev.setLane_mbx (d : Dev) (l : Nat) (x : Lane) : (d.setLane l x).mbx = d.mbx := rfl
@[simp] theorem Dev.setLane_pwr (d : Dev) (l : Nat) (x : Lane) : (d.setLane l x).pwr = d.pwr := rfl
@[simp] theorem Dev.setLane_dma (d : Dev) (l : Nat) (x : Lane) : (d.setLane l x).dma = d.dma := rfl
@[simp] theorem Dev.setLane_ram (d : Dev) (l : Nat) (x : Lane) : (d.setLane l x).ram = d.ram := rfl
@[simp] theorem Dev.setLane_mon (d : Dev) (l : Nat) (x : Lane) : (d.setLane l x).mon = d.mon := rfl
@[simp] theorem Dev.setLane_grd (d : Dev) (l : Nat) (x : Lane) : (d.setLane l x).grd = d.grd := rfl
@[simp] theorem Dev.setLane_sec (d : Dev) (l : Nat) (x : Lane) : (d.setLane l x).sec = d.sec := rfl

/-! ### setDmaCh -/

@[simp] theorem Dev.setDmaCh_clk (d : Dev) (c : Nat) (x : DmaChan) : (d.setDmaCh c x).clk = d.clk := rfl
@[simp] theorem Dev.setDmaCh_regs (d : Dev) (c : Nat) (x : DmaChan) : (d.setDmaCh c x).regs = d.regs := rfl
@[simp] theorem Dev.setDmaCh_shadow (d : Dev) (c : Nat) (x : DmaChan) : (d.setDmaCh c x).shadow = d.shadow := rfl
@[simp] theorem Dev.setDmaCh_live (d : Dev) (c : Nat) (x : DmaChan) : (d.setDmaCh c x).live = d.live := rfl
@[simp] theorem Dev.setDmaCh_commit (d : Dev) (c : Nat) (x : DmaChan) : (d.setDmaCh c x).commit = d.commit := rfl
@[simp] theorem Dev.setDmaCh_bud (d : Dev) (c : Nat) (x : DmaChan) : (d.setDmaCh c x).bud = d.bud := rfl
@[simp] theorem Dev.setDmaCh_ev (d : Dev) (c : Nat) (x : DmaChan) : (d.setDmaCh c x).ev = d.ev := rfl
@[simp] theorem Dev.setDmaCh_flt (d : Dev) (c : Nat) (x : DmaChan) : (d.setDmaCh c x).flt = d.flt := rfl
@[simp] theorem Dev.setDmaCh_out (d : Dev) (c : Nat) (x : DmaChan) : (d.setDmaCh c x).out = d.out := rfl
@[simp] theorem Dev.setDmaCh_outShort (d : Dev) (c : Nat) (x : DmaChan) : (d.setDmaCh c x).outShort = d.outShort := rfl
@[simp] theorem Dev.setDmaCh_fifos (d : Dev) (c : Nat) (x : DmaChan) : (d.setDmaCh c x).fifos = d.fifos := rfl
@[simp] theorem Dev.setDmaCh_rdata (d : Dev) (c : Nat) (x : DmaChan) : (d.setDmaCh c x).rdata = d.rdata := rfl
@[simp] theorem Dev.setDmaCh_free (d : Dev) (c : Nat) (x : DmaChan) : (d.setDmaCh c x).free = d.free := rfl
@[simp] theorem Dev.setDmaCh_latches (d : Dev) (c : Nat) (x : DmaChan) : (d.setDmaCh c x).latches = d.latches := rfl
@[simp] theorem Dev.setDmaCh_chipId (d : Dev) (c : Nat) (x : DmaChan) : (d.setDmaCh c x).chipId = d.chipId := rfl
@[simp] theorem Dev.setDmaCh_safeReq (d : Dev) (c : Nat) (x : DmaChan) : (d.setDmaCh c x).safeReq = d.safeReq := rfl
@[simp] theorem Dev.setDmaCh_time (d : Dev) (c : Nat) (x : DmaChan) : (d.setDmaCh c x).time = d.time := rfl
@[simp] theorem Dev.setDmaCh_afe (d : Dev) (c : Nat) (x : DmaChan) : (d.setDmaCh c x).afe = d.afe := rfl
@[simp] theorem Dev.setDmaCh_tdc (d : Dev) (c : Nat) (x : DmaChan) : (d.setDmaCh c x).tdc = d.tdc := rfl
@[simp] theorem Dev.setDmaCh_lost (d : Dev) (c : Nat) (x : DmaChan) : (d.setDmaCh c x).lost = d.lost := rfl
@[simp] theorem Dev.setDmaCh_cap (d : Dev) (c : Nat) (x : DmaChan) : (d.setDmaCh c x).cap = d.cap := rfl
@[simp] theorem Dev.setDmaCh_se (d : Dev) (c : Nat) (x : DmaChan) : (d.setDmaCh c x).se = d.se := rfl
@[simp] theorem Dev.setDmaCh_col (d : Dev) (c : Nat) (x : DmaChan) : (d.setDmaCh c x).col = d.col := rfl
@[simp] theorem Dev.setDmaCh_cas (d : Dev) (c : Nat) (x : DmaChan) : (d.setDmaCh c x).cas = d.cas := rfl
@[simp] theorem Dev.setDmaCh_tq (d : Dev) (c : Nat) (x : DmaChan) : (d.setDmaCh c x).tq = d.tq := rfl
@[simp] theorem Dev.setDmaCh_outCtl (d : Dev) (c : Nat) (x : DmaChan) : (d.setDmaCh c x).outCtl = d.outCtl := rfl
@[simp] theorem Dev.setDmaCh_lnk (d : Dev) (c : Nat) (x : DmaChan) : (d.setDmaCh c x).lnk = d.lnk := rfl
@[simp] theorem Dev.setDmaCh_mbx (d : Dev) (c : Nat) (x : DmaChan) : (d.setDmaCh c x).mbx = d.mbx := rfl
@[simp] theorem Dev.setDmaCh_pwr (d : Dev) (c : Nat) (x : DmaChan) : (d.setDmaCh c x).pwr = d.pwr := rfl
@[simp] theorem Dev.setDmaCh_dma (d : Dev) (c : Nat) (x : DmaChan) : (d.setDmaCh c x).dma = { d.dma with ch := d.dma.ch.set c x } := rfl
@[simp] theorem Dev.setDmaCh_ram (d : Dev) (c : Nat) (x : DmaChan) : (d.setDmaCh c x).ram = d.ram := rfl
@[simp] theorem Dev.setDmaCh_mon (d : Dev) (c : Nat) (x : DmaChan) : (d.setDmaCh c x).mon = d.mon := rfl
@[simp] theorem Dev.setDmaCh_grd (d : Dev) (c : Nat) (x : DmaChan) : (d.setDmaCh c x).grd = d.grd := rfl
@[simp] theorem Dev.setDmaCh_sec (d : Dev) (c : Nat) (x : DmaChan) : (d.setDmaCh c x).sec = d.sec := rfl

/-! ### setFlt -/

@[simp] theorem Dev.setFlt_clk (d : Dev) (x : Faults) : (d.setFlt x).clk = d.clk := rfl
@[simp] theorem Dev.setFlt_regs (d : Dev) (x : Faults) : (d.setFlt x).regs = d.regs := rfl
@[simp] theorem Dev.setFlt_shadow (d : Dev) (x : Faults) : (d.setFlt x).shadow = d.shadow := rfl
@[simp] theorem Dev.setFlt_live (d : Dev) (x : Faults) : (d.setFlt x).live = d.live := rfl
@[simp] theorem Dev.setFlt_commit (d : Dev) (x : Faults) : (d.setFlt x).commit = d.commit := rfl
@[simp] theorem Dev.setFlt_bud (d : Dev) (x : Faults) : (d.setFlt x).bud = d.bud := rfl
@[simp] theorem Dev.setFlt_ev (d : Dev) (x : Faults) : (d.setFlt x).ev = d.ev := rfl
@[simp] theorem Dev.setFlt_flt (d : Dev) (x : Faults) : (d.setFlt x).flt = x := rfl
@[simp] theorem Dev.setFlt_out (d : Dev) (x : Faults) : (d.setFlt x).out = d.out := rfl
@[simp] theorem Dev.setFlt_outShort (d : Dev) (x : Faults) : (d.setFlt x).outShort = d.outShort := rfl
@[simp] theorem Dev.setFlt_fifos (d : Dev) (x : Faults) : (d.setFlt x).fifos = d.fifos := rfl
@[simp] theorem Dev.setFlt_rdata (d : Dev) (x : Faults) : (d.setFlt x).rdata = d.rdata := rfl
@[simp] theorem Dev.setFlt_free (d : Dev) (x : Faults) : (d.setFlt x).free = d.free := rfl
@[simp] theorem Dev.setFlt_latches (d : Dev) (x : Faults) : (d.setFlt x).latches = d.latches := rfl
@[simp] theorem Dev.setFlt_chipId (d : Dev) (x : Faults) : (d.setFlt x).chipId = d.chipId := rfl
@[simp] theorem Dev.setFlt_safeReq (d : Dev) (x : Faults) : (d.setFlt x).safeReq = d.safeReq := rfl
@[simp] theorem Dev.setFlt_time (d : Dev) (x : Faults) : (d.setFlt x).time = d.time := rfl
@[simp] theorem Dev.setFlt_afe (d : Dev) (x : Faults) : (d.setFlt x).afe = d.afe := rfl
@[simp] theorem Dev.setFlt_tdc (d : Dev) (x : Faults) : (d.setFlt x).tdc = d.tdc := rfl
@[simp] theorem Dev.setFlt_lost (d : Dev) (x : Faults) : (d.setFlt x).lost = d.lost := rfl
@[simp] theorem Dev.setFlt_cap (d : Dev) (x : Faults) : (d.setFlt x).cap = d.cap := rfl
@[simp] theorem Dev.setFlt_se (d : Dev) (x : Faults) : (d.setFlt x).se = d.se := rfl
@[simp] theorem Dev.setFlt_col (d : Dev) (x : Faults) : (d.setFlt x).col = d.col := rfl
@[simp] theorem Dev.setFlt_cas (d : Dev) (x : Faults) : (d.setFlt x).cas = d.cas := rfl
@[simp] theorem Dev.setFlt_tq (d : Dev) (x : Faults) : (d.setFlt x).tq = d.tq := rfl
@[simp] theorem Dev.setFlt_outCtl (d : Dev) (x : Faults) : (d.setFlt x).outCtl = d.outCtl := rfl
@[simp] theorem Dev.setFlt_lnk (d : Dev) (x : Faults) : (d.setFlt x).lnk = d.lnk := rfl
@[simp] theorem Dev.setFlt_mbx (d : Dev) (x : Faults) : (d.setFlt x).mbx = d.mbx := rfl
@[simp] theorem Dev.setFlt_pwr (d : Dev) (x : Faults) : (d.setFlt x).pwr = d.pwr := rfl
@[simp] theorem Dev.setFlt_dma (d : Dev) (x : Faults) : (d.setFlt x).dma = d.dma := rfl
@[simp] theorem Dev.setFlt_ram (d : Dev) (x : Faults) : (d.setFlt x).ram = d.ram := rfl
@[simp] theorem Dev.setFlt_mon (d : Dev) (x : Faults) : (d.setFlt x).mon = d.mon := rfl
@[simp] theorem Dev.setFlt_grd (d : Dev) (x : Faults) : (d.setFlt x).grd = d.grd := rfl
@[simp] theorem Dev.setFlt_sec (d : Dev) (x : Faults) : (d.setFlt x).sec = d.sec := rfl

/-! ### setPwr -/

@[simp] theorem Dev.setPwr_clk (d : Dev) (x : Power) : (d.setPwr x).clk = d.clk := rfl
@[simp] theorem Dev.setPwr_regs (d : Dev) (x : Power) : (d.setPwr x).regs = d.regs := rfl
@[simp] theorem Dev.setPwr_shadow (d : Dev) (x : Power) : (d.setPwr x).shadow = d.shadow := rfl
@[simp] theorem Dev.setPwr_live (d : Dev) (x : Power) : (d.setPwr x).live = d.live := rfl
@[simp] theorem Dev.setPwr_commit (d : Dev) (x : Power) : (d.setPwr x).commit = d.commit := rfl
@[simp] theorem Dev.setPwr_bud (d : Dev) (x : Power) : (d.setPwr x).bud = d.bud := rfl
@[simp] theorem Dev.setPwr_ev (d : Dev) (x : Power) : (d.setPwr x).ev = d.ev := rfl
@[simp] theorem Dev.setPwr_flt (d : Dev) (x : Power) : (d.setPwr x).flt = d.flt := rfl
@[simp] theorem Dev.setPwr_out (d : Dev) (x : Power) : (d.setPwr x).out = d.out := rfl
@[simp] theorem Dev.setPwr_outShort (d : Dev) (x : Power) : (d.setPwr x).outShort = d.outShort := rfl
@[simp] theorem Dev.setPwr_fifos (d : Dev) (x : Power) : (d.setPwr x).fifos = d.fifos := rfl
@[simp] theorem Dev.setPwr_rdata (d : Dev) (x : Power) : (d.setPwr x).rdata = d.rdata := rfl
@[simp] theorem Dev.setPwr_free (d : Dev) (x : Power) : (d.setPwr x).free = d.free := rfl
@[simp] theorem Dev.setPwr_latches (d : Dev) (x : Power) : (d.setPwr x).latches = d.latches := rfl
@[simp] theorem Dev.setPwr_chipId (d : Dev) (x : Power) : (d.setPwr x).chipId = d.chipId := rfl
@[simp] theorem Dev.setPwr_safeReq (d : Dev) (x : Power) : (d.setPwr x).safeReq = d.safeReq := rfl
@[simp] theorem Dev.setPwr_time (d : Dev) (x : Power) : (d.setPwr x).time = d.time := rfl
@[simp] theorem Dev.setPwr_afe (d : Dev) (x : Power) : (d.setPwr x).afe = d.afe := rfl
@[simp] theorem Dev.setPwr_tdc (d : Dev) (x : Power) : (d.setPwr x).tdc = d.tdc := rfl
@[simp] theorem Dev.setPwr_lost (d : Dev) (x : Power) : (d.setPwr x).lost = d.lost := rfl
@[simp] theorem Dev.setPwr_cap (d : Dev) (x : Power) : (d.setPwr x).cap = d.cap := rfl
@[simp] theorem Dev.setPwr_se (d : Dev) (x : Power) : (d.setPwr x).se = d.se := rfl
@[simp] theorem Dev.setPwr_col (d : Dev) (x : Power) : (d.setPwr x).col = d.col := rfl
@[simp] theorem Dev.setPwr_cas (d : Dev) (x : Power) : (d.setPwr x).cas = d.cas := rfl
@[simp] theorem Dev.setPwr_tq (d : Dev) (x : Power) : (d.setPwr x).tq = d.tq := rfl
@[simp] theorem Dev.setPwr_outCtl (d : Dev) (x : Power) : (d.setPwr x).outCtl = d.outCtl := rfl
@[simp] theorem Dev.setPwr_lnk (d : Dev) (x : Power) : (d.setPwr x).lnk = d.lnk := rfl
@[simp] theorem Dev.setPwr_mbx (d : Dev) (x : Power) : (d.setPwr x).mbx = d.mbx := rfl
@[simp] theorem Dev.setPwr_pwr (d : Dev) (x : Power) : (d.setPwr x).pwr = x := rfl
@[simp] theorem Dev.setPwr_dma (d : Dev) (x : Power) : (d.setPwr x).dma = d.dma := rfl
@[simp] theorem Dev.setPwr_ram (d : Dev) (x : Power) : (d.setPwr x).ram = d.ram := rfl
@[simp] theorem Dev.setPwr_mon (d : Dev) (x : Power) : (d.setPwr x).mon = d.mon := rfl
@[simp] theorem Dev.setPwr_grd (d : Dev) (x : Power) : (d.setPwr x).grd = d.grd := rfl
@[simp] theorem Dev.setPwr_sec (d : Dev) (x : Power) : (d.setPwr x).sec = d.sec := rfl

/-! ### setGrd -/

@[simp] theorem Dev.setGrd_clk (d : Dev) (x : Guard) : (d.setGrd x).clk = d.clk := rfl
@[simp] theorem Dev.setGrd_regs (d : Dev) (x : Guard) : (d.setGrd x).regs = d.regs := rfl
@[simp] theorem Dev.setGrd_shadow (d : Dev) (x : Guard) : (d.setGrd x).shadow = d.shadow := rfl
@[simp] theorem Dev.setGrd_live (d : Dev) (x : Guard) : (d.setGrd x).live = d.live := rfl
@[simp] theorem Dev.setGrd_commit (d : Dev) (x : Guard) : (d.setGrd x).commit = d.commit := rfl
@[simp] theorem Dev.setGrd_bud (d : Dev) (x : Guard) : (d.setGrd x).bud = d.bud := rfl
@[simp] theorem Dev.setGrd_ev (d : Dev) (x : Guard) : (d.setGrd x).ev = d.ev := rfl
@[simp] theorem Dev.setGrd_flt (d : Dev) (x : Guard) : (d.setGrd x).flt = d.flt := rfl
@[simp] theorem Dev.setGrd_out (d : Dev) (x : Guard) : (d.setGrd x).out = d.out := rfl
@[simp] theorem Dev.setGrd_outShort (d : Dev) (x : Guard) : (d.setGrd x).outShort = d.outShort := rfl
@[simp] theorem Dev.setGrd_fifos (d : Dev) (x : Guard) : (d.setGrd x).fifos = d.fifos := rfl
@[simp] theorem Dev.setGrd_rdata (d : Dev) (x : Guard) : (d.setGrd x).rdata = d.rdata := rfl
@[simp] theorem Dev.setGrd_free (d : Dev) (x : Guard) : (d.setGrd x).free = d.free := rfl
@[simp] theorem Dev.setGrd_latches (d : Dev) (x : Guard) : (d.setGrd x).latches = d.latches := rfl
@[simp] theorem Dev.setGrd_chipId (d : Dev) (x : Guard) : (d.setGrd x).chipId = d.chipId := rfl
@[simp] theorem Dev.setGrd_safeReq (d : Dev) (x : Guard) : (d.setGrd x).safeReq = d.safeReq := rfl
@[simp] theorem Dev.setGrd_time (d : Dev) (x : Guard) : (d.setGrd x).time = d.time := rfl
@[simp] theorem Dev.setGrd_afe (d : Dev) (x : Guard) : (d.setGrd x).afe = d.afe := rfl
@[simp] theorem Dev.setGrd_tdc (d : Dev) (x : Guard) : (d.setGrd x).tdc = d.tdc := rfl
@[simp] theorem Dev.setGrd_lost (d : Dev) (x : Guard) : (d.setGrd x).lost = d.lost := rfl
@[simp] theorem Dev.setGrd_cap (d : Dev) (x : Guard) : (d.setGrd x).cap = d.cap := rfl
@[simp] theorem Dev.setGrd_se (d : Dev) (x : Guard) : (d.setGrd x).se = d.se := rfl
@[simp] theorem Dev.setGrd_col (d : Dev) (x : Guard) : (d.setGrd x).col = d.col := rfl
@[simp] theorem Dev.setGrd_cas (d : Dev) (x : Guard) : (d.setGrd x).cas = d.cas := rfl
@[simp] theorem Dev.setGrd_tq (d : Dev) (x : Guard) : (d.setGrd x).tq = d.tq := rfl
@[simp] theorem Dev.setGrd_outCtl (d : Dev) (x : Guard) : (d.setGrd x).outCtl = d.outCtl := rfl
@[simp] theorem Dev.setGrd_lnk (d : Dev) (x : Guard) : (d.setGrd x).lnk = d.lnk := rfl
@[simp] theorem Dev.setGrd_mbx (d : Dev) (x : Guard) : (d.setGrd x).mbx = d.mbx := rfl
@[simp] theorem Dev.setGrd_pwr (d : Dev) (x : Guard) : (d.setGrd x).pwr = d.pwr := rfl
@[simp] theorem Dev.setGrd_dma (d : Dev) (x : Guard) : (d.setGrd x).dma = d.dma := rfl
@[simp] theorem Dev.setGrd_ram (d : Dev) (x : Guard) : (d.setGrd x).ram = d.ram := rfl
@[simp] theorem Dev.setGrd_mon (d : Dev) (x : Guard) : (d.setGrd x).mon = d.mon := rfl
@[simp] theorem Dev.setGrd_grd (d : Dev) (x : Guard) : (d.setGrd x).grd = x := rfl
@[simp] theorem Dev.setGrd_sec (d : Dev) (x : Guard) : (d.setGrd x).sec = d.sec := rfl

/-! ### setMon -/

@[simp] theorem Dev.setMon_clk (d : Dev) (x : Monitor) : (d.setMon x).clk = d.clk := rfl
@[simp] theorem Dev.setMon_regs (d : Dev) (x : Monitor) : (d.setMon x).regs = d.regs := rfl
@[simp] theorem Dev.setMon_shadow (d : Dev) (x : Monitor) : (d.setMon x).shadow = d.shadow := rfl
@[simp] theorem Dev.setMon_live (d : Dev) (x : Monitor) : (d.setMon x).live = d.live := rfl
@[simp] theorem Dev.setMon_commit (d : Dev) (x : Monitor) : (d.setMon x).commit = d.commit := rfl
@[simp] theorem Dev.setMon_bud (d : Dev) (x : Monitor) : (d.setMon x).bud = d.bud := rfl
@[simp] theorem Dev.setMon_ev (d : Dev) (x : Monitor) : (d.setMon x).ev = d.ev := rfl
@[simp] theorem Dev.setMon_flt (d : Dev) (x : Monitor) : (d.setMon x).flt = d.flt := rfl
@[simp] theorem Dev.setMon_out (d : Dev) (x : Monitor) : (d.setMon x).out = d.out := rfl
@[simp] theorem Dev.setMon_outShort (d : Dev) (x : Monitor) : (d.setMon x).outShort = d.outShort := rfl
@[simp] theorem Dev.setMon_fifos (d : Dev) (x : Monitor) : (d.setMon x).fifos = d.fifos := rfl
@[simp] theorem Dev.setMon_rdata (d : Dev) (x : Monitor) : (d.setMon x).rdata = d.rdata := rfl
@[simp] theorem Dev.setMon_free (d : Dev) (x : Monitor) : (d.setMon x).free = d.free := rfl
@[simp] theorem Dev.setMon_latches (d : Dev) (x : Monitor) : (d.setMon x).latches = d.latches := rfl
@[simp] theorem Dev.setMon_chipId (d : Dev) (x : Monitor) : (d.setMon x).chipId = d.chipId := rfl
@[simp] theorem Dev.setMon_safeReq (d : Dev) (x : Monitor) : (d.setMon x).safeReq = d.safeReq := rfl
@[simp] theorem Dev.setMon_time (d : Dev) (x : Monitor) : (d.setMon x).time = d.time := rfl
@[simp] theorem Dev.setMon_afe (d : Dev) (x : Monitor) : (d.setMon x).afe = d.afe := rfl
@[simp] theorem Dev.setMon_tdc (d : Dev) (x : Monitor) : (d.setMon x).tdc = d.tdc := rfl
@[simp] theorem Dev.setMon_lost (d : Dev) (x : Monitor) : (d.setMon x).lost = d.lost := rfl
@[simp] theorem Dev.setMon_cap (d : Dev) (x : Monitor) : (d.setMon x).cap = d.cap := rfl
@[simp] theorem Dev.setMon_se (d : Dev) (x : Monitor) : (d.setMon x).se = d.se := rfl
@[simp] theorem Dev.setMon_col (d : Dev) (x : Monitor) : (d.setMon x).col = d.col := rfl
@[simp] theorem Dev.setMon_cas (d : Dev) (x : Monitor) : (d.setMon x).cas = d.cas := rfl
@[simp] theorem Dev.setMon_tq (d : Dev) (x : Monitor) : (d.setMon x).tq = d.tq := rfl
@[simp] theorem Dev.setMon_outCtl (d : Dev) (x : Monitor) : (d.setMon x).outCtl = d.outCtl := rfl
@[simp] theorem Dev.setMon_lnk (d : Dev) (x : Monitor) : (d.setMon x).lnk = d.lnk := rfl
@[simp] theorem Dev.setMon_mbx (d : Dev) (x : Monitor) : (d.setMon x).mbx = d.mbx := rfl
@[simp] theorem Dev.setMon_pwr (d : Dev) (x : Monitor) : (d.setMon x).pwr = d.pwr := rfl
@[simp] theorem Dev.setMon_dma (d : Dev) (x : Monitor) : (d.setMon x).dma = d.dma := rfl
@[simp] theorem Dev.setMon_ram (d : Dev) (x : Monitor) : (d.setMon x).ram = d.ram := rfl
@[simp] theorem Dev.setMon_mon (d : Dev) (x : Monitor) : (d.setMon x).mon = x := rfl
@[simp] theorem Dev.setMon_grd (d : Dev) (x : Monitor) : (d.setMon x).grd = d.grd := rfl
@[simp] theorem Dev.setMon_sec (d : Dev) (x : Monitor) : (d.setMon x).sec = d.sec := rfl

/-! ### setSec -/

@[simp] theorem Dev.setSec_clk (d : Dev) (x : Security) : (d.setSec x).clk = d.clk := rfl
@[simp] theorem Dev.setSec_regs (d : Dev) (x : Security) : (d.setSec x).regs = d.regs := rfl
@[simp] theorem Dev.setSec_shadow (d : Dev) (x : Security) : (d.setSec x).shadow = d.shadow := rfl
@[simp] theorem Dev.setSec_live (d : Dev) (x : Security) : (d.setSec x).live = d.live := rfl
@[simp] theorem Dev.setSec_commit (d : Dev) (x : Security) : (d.setSec x).commit = d.commit := rfl
@[simp] theorem Dev.setSec_bud (d : Dev) (x : Security) : (d.setSec x).bud = d.bud := rfl
@[simp] theorem Dev.setSec_ev (d : Dev) (x : Security) : (d.setSec x).ev = d.ev := rfl
@[simp] theorem Dev.setSec_flt (d : Dev) (x : Security) : (d.setSec x).flt = d.flt := rfl
@[simp] theorem Dev.setSec_out (d : Dev) (x : Security) : (d.setSec x).out = d.out := rfl
@[simp] theorem Dev.setSec_outShort (d : Dev) (x : Security) : (d.setSec x).outShort = d.outShort := rfl
@[simp] theorem Dev.setSec_fifos (d : Dev) (x : Security) : (d.setSec x).fifos = d.fifos := rfl
@[simp] theorem Dev.setSec_rdata (d : Dev) (x : Security) : (d.setSec x).rdata = d.rdata := rfl
@[simp] theorem Dev.setSec_free (d : Dev) (x : Security) : (d.setSec x).free = d.free := rfl
@[simp] theorem Dev.setSec_latches (d : Dev) (x : Security) : (d.setSec x).latches = d.latches := rfl
@[simp] theorem Dev.setSec_chipId (d : Dev) (x : Security) : (d.setSec x).chipId = d.chipId := rfl
@[simp] theorem Dev.setSec_safeReq (d : Dev) (x : Security) : (d.setSec x).safeReq = d.safeReq := rfl
@[simp] theorem Dev.setSec_time (d : Dev) (x : Security) : (d.setSec x).time = d.time := rfl
@[simp] theorem Dev.setSec_afe (d : Dev) (x : Security) : (d.setSec x).afe = d.afe := rfl
@[simp] theorem Dev.setSec_tdc (d : Dev) (x : Security) : (d.setSec x).tdc = d.tdc := rfl
@[simp] theorem Dev.setSec_lost (d : Dev) (x : Security) : (d.setSec x).lost = d.lost := rfl
@[simp] theorem Dev.setSec_cap (d : Dev) (x : Security) : (d.setSec x).cap = d.cap := rfl
@[simp] theorem Dev.setSec_se (d : Dev) (x : Security) : (d.setSec x).se = d.se := rfl
@[simp] theorem Dev.setSec_col (d : Dev) (x : Security) : (d.setSec x).col = d.col := rfl
@[simp] theorem Dev.setSec_cas (d : Dev) (x : Security) : (d.setSec x).cas = d.cas := rfl
@[simp] theorem Dev.setSec_tq (d : Dev) (x : Security) : (d.setSec x).tq = d.tq := rfl
@[simp] theorem Dev.setSec_outCtl (d : Dev) (x : Security) : (d.setSec x).outCtl = d.outCtl := rfl
@[simp] theorem Dev.setSec_lnk (d : Dev) (x : Security) : (d.setSec x).lnk = d.lnk := rfl
@[simp] theorem Dev.setSec_mbx (d : Dev) (x : Security) : (d.setSec x).mbx = d.mbx := rfl
@[simp] theorem Dev.setSec_pwr (d : Dev) (x : Security) : (d.setSec x).pwr = d.pwr := rfl
@[simp] theorem Dev.setSec_dma (d : Dev) (x : Security) : (d.setSec x).dma = d.dma := rfl
@[simp] theorem Dev.setSec_ram (d : Dev) (x : Security) : (d.setSec x).ram = d.ram := rfl
@[simp] theorem Dev.setSec_mon (d : Dev) (x : Security) : (d.setSec x).mon = d.mon := rfl
@[simp] theorem Dev.setSec_grd (d : Dev) (x : Security) : (d.setSec x).grd = d.grd := rfl
@[simp] theorem Dev.setSec_sec (d : Dev) (x : Security) : (d.setSec x).sec = x := rfl

/-! ### setMbx -/

@[simp] theorem Dev.setMbx_clk (d : Dev) (x : Mailboxes) : (d.setMbx x).clk = d.clk := rfl
@[simp] theorem Dev.setMbx_regs (d : Dev) (x : Mailboxes) : (d.setMbx x).regs = d.regs := rfl
@[simp] theorem Dev.setMbx_shadow (d : Dev) (x : Mailboxes) : (d.setMbx x).shadow = d.shadow := rfl
@[simp] theorem Dev.setMbx_live (d : Dev) (x : Mailboxes) : (d.setMbx x).live = d.live := rfl
@[simp] theorem Dev.setMbx_commit (d : Dev) (x : Mailboxes) : (d.setMbx x).commit = d.commit := rfl
@[simp] theorem Dev.setMbx_bud (d : Dev) (x : Mailboxes) : (d.setMbx x).bud = d.bud := rfl
@[simp] theorem Dev.setMbx_ev (d : Dev) (x : Mailboxes) : (d.setMbx x).ev = d.ev := rfl
@[simp] theorem Dev.setMbx_flt (d : Dev) (x : Mailboxes) : (d.setMbx x).flt = d.flt := rfl
@[simp] theorem Dev.setMbx_out (d : Dev) (x : Mailboxes) : (d.setMbx x).out = d.out := rfl
@[simp] theorem Dev.setMbx_outShort (d : Dev) (x : Mailboxes) : (d.setMbx x).outShort = d.outShort := rfl
@[simp] theorem Dev.setMbx_fifos (d : Dev) (x : Mailboxes) : (d.setMbx x).fifos = d.fifos := rfl
@[simp] theorem Dev.setMbx_rdata (d : Dev) (x : Mailboxes) : (d.setMbx x).rdata = d.rdata := rfl
@[simp] theorem Dev.setMbx_free (d : Dev) (x : Mailboxes) : (d.setMbx x).free = d.free := rfl
@[simp] theorem Dev.setMbx_latches (d : Dev) (x : Mailboxes) : (d.setMbx x).latches = d.latches := rfl
@[simp] theorem Dev.setMbx_chipId (d : Dev) (x : Mailboxes) : (d.setMbx x).chipId = d.chipId := rfl
@[simp] theorem Dev.setMbx_safeReq (d : Dev) (x : Mailboxes) : (d.setMbx x).safeReq = d.safeReq := rfl
@[simp] theorem Dev.setMbx_time (d : Dev) (x : Mailboxes) : (d.setMbx x).time = d.time := rfl
@[simp] theorem Dev.setMbx_afe (d : Dev) (x : Mailboxes) : (d.setMbx x).afe = d.afe := rfl
@[simp] theorem Dev.setMbx_tdc (d : Dev) (x : Mailboxes) : (d.setMbx x).tdc = d.tdc := rfl
@[simp] theorem Dev.setMbx_lost (d : Dev) (x : Mailboxes) : (d.setMbx x).lost = d.lost := rfl
@[simp] theorem Dev.setMbx_cap (d : Dev) (x : Mailboxes) : (d.setMbx x).cap = d.cap := rfl
@[simp] theorem Dev.setMbx_se (d : Dev) (x : Mailboxes) : (d.setMbx x).se = d.se := rfl
@[simp] theorem Dev.setMbx_col (d : Dev) (x : Mailboxes) : (d.setMbx x).col = d.col := rfl
@[simp] theorem Dev.setMbx_cas (d : Dev) (x : Mailboxes) : (d.setMbx x).cas = d.cas := rfl
@[simp] theorem Dev.setMbx_tq (d : Dev) (x : Mailboxes) : (d.setMbx x).tq = d.tq := rfl
@[simp] theorem Dev.setMbx_outCtl (d : Dev) (x : Mailboxes) : (d.setMbx x).outCtl = d.outCtl := rfl
@[simp] theorem Dev.setMbx_lnk (d : Dev) (x : Mailboxes) : (d.setMbx x).lnk = d.lnk := rfl
@[simp] theorem Dev.setMbx_mbx (d : Dev) (x : Mailboxes) : (d.setMbx x).mbx = x := rfl
@[simp] theorem Dev.setMbx_pwr (d : Dev) (x : Mailboxes) : (d.setMbx x).pwr = d.pwr := rfl
@[simp] theorem Dev.setMbx_dma (d : Dev) (x : Mailboxes) : (d.setMbx x).dma = d.dma := rfl
@[simp] theorem Dev.setMbx_ram (d : Dev) (x : Mailboxes) : (d.setMbx x).ram = d.ram := rfl
@[simp] theorem Dev.setMbx_mon (d : Dev) (x : Mailboxes) : (d.setMbx x).mon = d.mon := rfl
@[simp] theorem Dev.setMbx_grd (d : Dev) (x : Mailboxes) : (d.setMbx x).grd = d.grd := rfl
@[simp] theorem Dev.setMbx_sec (d : Dev) (x : Mailboxes) : (d.setMbx x).sec = d.sec := rfl

end Sys2Proof.Machine
end

