-- ==== Sys2Proof/Laws/Ops.lean ====
section
/-! SUPPORT. The shared operations: tables, register fields, free values, events and counters. Each lemma says all that a later proof needs
of its operation. -/

namespace Sys2Proof.Machine

/-! ### Tables -/

@[simp] theorem kfind_kset_self {α : Type} (m : KMap α) (k : Nat) (v : α) : kfind (kset m k v) k = some v := by
  induction m with
  | nil => simp [kset, kfind]
  | cons p r ih =>
    obtain ⟨k', v'⟩ := p
    unfold kset
    split
    · simp [kfind]
    · split
      · simp [kfind]
      · rename_i h
        simp only [kfind]
        rw [if_neg h]
        exact ih

theorem kfind_kset_ne {α : Type} (m : KMap α) {k j : Nat} (v : α) (h : j ≠ k) : kfind (kset m k v) j = kfind m j := by
  have hk : (k == j) = false := by simpa using fun e => h e.symm
  induction m with
  | nil => simp [kset, kfind, hk]
  | cons p r ih =>
    obtain ⟨k', v'⟩ := p
    unfold kset
    split
    · simp [kfind, hk]
    · split
      · rename_i e
        have e' : k' = k := by simpa using e
        subst e'
        simp [kfind, hk]
      · simp only [kfind]
        split
        · rfl
        · exact ih

@[simp] theorem kget_kset_self {α : Type} (m : KMap α) (k : Nat) (v d : α) : kget (kset m k v) k d = v := by simp [kget]

theorem kget_kset_ne {α : Type} (m : KMap α) {k j : Nat} (v d : α) (h : j ≠ k) : kget (kset m k v) j d = kget m j d := by
  simp [kget, kfind_kset_ne m v h]

/-! ### Registers -/

@[simp] theorem Dev.reg_setReg_self (d : Dev) (k : Nat) (w : Word) : (d.setReg k w).reg k = w := by simp [Dev.reg]

theorem Dev.reg_setReg_ne (d : Dev) {k j : Nat} (w : Word) (h : j ≠ k) : (d.setReg k w).reg j = d.reg j := by
  simp [Dev.reg, kfind_kset_ne d.regs w h]

@[simp] theorem Dev.liveReg_setLive_self (d : Dev) (k : Nat) (w : Word) : (d.setLive k w).liveReg k = w := by simp [Dev.liveReg]

theorem Dev.liveReg_setLive_ne (d : Dev) {k j : Nat} (w : Word) (h : j ≠ k) : (d.setLive k w).liveReg j = d.liveReg j := by
  simp [Dev.liveReg, kfind_kset_ne d.live w h]

@[simp] theorem Dev.shadowReg_setShadow_self (d : Dev) (k : Nat) (w : Word) : (d.setShadow k w).shadowReg k = w := by simp [Dev.shadowReg]

@[simp] theorem Dev.reg_setLive (d : Dev) (k j : Nat) (w : Word) : (d.setLive k w).reg j = d.reg j := rfl
@[simp] theorem Dev.reg_setShadow (d : Dev) (k j : Nat) (w : Word) : (d.setShadow k w).reg j = d.reg j := rfl
@[simp] theorem Dev.liveReg_setReg (d : Dev) (k j : Nat) (w : Word) : (d.setReg k w).liveReg j = d.liveReg j := rfl

/-- A word as its bits above hi, the field, and its bits below lo. -/
theorem setBits_toNat (w : Word) {hi lo : Nat} (v : Nat) (h : hi < 32) (hl : lo ≤ hi) :
    (setBits w hi lo v).toNat = w.toNat / 2 ^ (hi + 1) * 2 ^ (hi + 1) + v % 2 ^ (hi + 1 - lo) * 2 ^ lo + w.toNat % 2 ^ lo := by
  have hw := w.isLt
  unfold setBits nbits
  simp only [Nat.shiftRight_eq_div_pow, BitVec.toNat_ofNat]
  have e0 : 2 ^ (hi + 1) = 2 ^ (hi + 1 - lo) * 2 ^ lo := by rw [← Nat.pow_add]; congr 1; omega
  have e : 2 ^ 32 = 2 ^ (31 - hi) * (2 ^ (hi + 1 - lo) * 2 ^ lo) := by
    rw [← Nat.pow_add, ← Nat.pow_add]; congr 1; omega
  rw [e0]
  generalize w.toNat = W at hw ⊢
  generalize 2 ^ lo = L at e ⊢
  generalize 2 ^ (hi + 1 - lo) = N at e ⊢
  generalize 2 ^ (31 - hi) = A at e
  have hL : 0 < L := by
    rcases Nat.eq_zero_or_pos L with h0 | h0
    · subst h0; simp at e
    · exact h0
  have hN : 0 < N := by
    rcases Nat.eq_zero_or_pos N with h0 | h0
    · subst h0; simp at e
    · exact h0
  have d1 : W = W / L / N * (N * L) + W / L % N * L + W % L := by
    have a1 := Nat.div_add_mod W L
    have a2 := Nat.div_add_mod (W / L) N
    calc W = L * (W / L) + W % L := a1.symm
      _ = L * (N * (W / L / N) + W / L % N) + W % L := by rw [a2]
      _ = _ := by ring
  have hB : W % L < L := Nat.mod_lt _ hL
  have hv : v % N < N := Nat.mod_lt _ hN
  have hq : W / L / N < A := by
    rw [Nat.div_div_eq_div_mul, Nat.div_lt_iff_lt_mul (by positivity)]
    calc W < 2 ^ 32 := hw
      _ = A * (N * L) := e
      _ = A * (L * N) := by ring
  have e1 : W - W / L % N * L + v % N * L = W / L / N * (N * L) + v % N * L + W % L := by
    have : W - W / L % N * L = W / L / N * (N * L) + W % L := by omega
    rw [this]; ring
  rw [e1]
  have lt : W / L / N * (N * L) + v % N * L + W % L < 2 ^ 32 := by
    rw [e]
    have s1 : v % N * L + W % L < N * L := by
      have : (v % N + 1) * L ≤ N * L := Nat.mul_le_mul_right L hv
      have x : (v % N + 1) * L = v % N * L + L := by ring
      omega
    have s2 : (W / L / N + 1) * (N * L) ≤ A * (N * L) := Nat.mul_le_mul_right _ hq
    have s3 : (W / L / N + 1) * (N * L) = W / L / N * (N * L) + N * L := by ring
    omega
  rw [Nat.mod_eq_of_lt lt, Nat.div_div_eq_div_mul, Nat.mul_comm L N]

/-- The bits of a word after a field of it is replaced: the new value in the field. -/
theorem nbits_setBits_self (w : Word) {hi lo : Nat} (v : Nat) (h : hi < 32) (hl : lo ≤ hi) :
    bits (setBits w hi lo v) hi lo = v % 2 ^ (hi + 1 - lo) := by
  unfold bits nbits
  rw [setBits_toNat w v h hl, Nat.shiftRight_eq_div_pow]
  have e1 : 2 ^ (hi + 1) = 2 ^ (hi + 1 - lo) * 2 ^ lo := by rw [← Nat.pow_add]; congr 1; omega
  have b : w.toNat % 2 ^ lo < 2 ^ lo := Nat.mod_lt _ (by positivity)
  have x : w.toNat / 2 ^ (hi + 1) * 2 ^ (hi + 1) + v % 2 ^ (hi + 1 - lo) * 2 ^ lo + w.toNat % 2 ^ lo =
      2 ^ lo * (2 ^ (hi + 1 - lo) * (w.toNat / 2 ^ (hi + 1)) + v % 2 ^ (hi + 1 - lo)) + w.toNat % 2 ^ lo := by
    rw [e1]; ring
  rw [x, Nat.mul_add_div (by positivity), Nat.div_eq_of_lt b, Nat.add_zero, Nat.mul_add_mod, Nat.mod_mod]

/-- Another field of the word keeps its bits. -/
theorem bits_setBits_ne (w : Word) {hi lo h l : Nat} (v : Nat) (hh : hi < 32) (hl : lo ≤ hi) (hd : h < lo ∨ hi < l) :
    bits (setBits w hi lo v) h l = bits w h l := by
  unfold bits nbits
  rw [setBits_toNat w v hh hl]
  simp only [Nat.shiftRight_eq_div_pow]
  generalize w.toNat = W
  have hv : v % 2 ^ (hi + 1 - lo) < 2 ^ (hi + 1 - lo) := Nat.mod_lt _ (by positivity)
  generalize v % 2 ^ (hi + 1 - lo) = V at hv
  rcases hd with hd | hd
  · by_cases hlh : h < l
    · have z : h + 1 - l = 0 := by omega
      rw [z]; simp [Nat.mod_one]
    · have e1 : 2 ^ (hi + 1) = 2 ^ (hi + 1 - lo) * 2 ^ lo := by rw [← Nat.pow_add]; congr 1; omega
      have e2 : 2 ^ lo = 2 ^ (lo - (h + 1)) * 2 ^ (h + 1) := by rw [← Nat.pow_add]; congr 1; omega
      have e3 : 2 ^ (h + 1) = 2 ^ l * 2 ^ (h + 1 - l) := by rw [← Nat.pow_add]; congr 1; omega
      have r (n : Nat) : n / 2 ^ l % 2 ^ (h + 1 - l) = n % 2 ^ (h + 1) / 2 ^ l := by
        rw [e3, Nat.mod_mul_right_div_self]
      rw [r, r]
      congr 1
      have x : W / 2 ^ (hi + 1) * 2 ^ (hi + 1) + V * 2 ^ lo + W % 2 ^ lo = (W / 2 ^ (hi + 1) * 2 ^ (hi + 1 - lo) + V) * 2 ^ lo + W % 2 ^ lo := by
        rw [e1]; ring
      rw [x]
      generalize W / 2 ^ (hi + 1) * 2 ^ (hi + 1 - lo) + V = Q
      have d : 2 ^ (h + 1) ∣ 2 ^ lo := by rw [e2]; exact Nat.dvd_mul_left _ _
      rw [Nat.add_mod, Nat.mod_mod_of_dvd _ d, (Nat.mod_eq_zero_of_dvd (d.mul_left Q)), Nat.zero_add, Nat.mod_mod]
  · have e1 : 2 ^ l = 2 ^ (hi + 1) * 2 ^ (l - (hi + 1)) := by rw [← Nat.pow_add]; congr 1; omega
    have e2 : 2 ^ (hi + 1) = 2 ^ (hi + 1 - lo) * 2 ^ lo := by rw [← Nat.pow_add]; congr 1; omega
    rw [e1, ← Nat.div_div_eq_div_mul, ← Nat.div_div_eq_div_mul]
    congr 2
    have lt : V * 2 ^ lo + W % 2 ^ lo < 2 ^ (hi + 1) := by
      have b : W % 2 ^ lo < 2 ^ lo := Nat.mod_lt _ (by positivity)
      have : (V + 1) * 2 ^ lo ≤ 2 ^ (hi + 1 - lo) * 2 ^ lo := Nat.mul_le_mul_right _ hv
      have x : (V + 1) * 2 ^ lo = V * 2 ^ lo + 2 ^ lo := by ring
      omega
    rw [Nat.add_assoc, Nat.mul_comm, Nat.mul_add_div (by positivity), Nat.div_eq_of_lt lt, Nat.add_zero]

/-- A field written reads as the value, cut to the field. -/
theorem Dev.get_put_self (d : Dev) (f : FRef) (v : Nat) (h : f.hi < 32) (hl : f.lo ≤ f.hi) :
    (d.put f v).get f = v % 2 ^ (f.hi + 1 - f.lo) := by
  simp [Dev.get, Dev.put, nbits_setBits_self _ v h hl]

/-- A write of a field leaves the fields of other registers. -/
theorem Dev.get_put_ne (d : Dev) (f g : FRef) (v : Nat) (h : g.key ≠ f.key) : (d.put f v).get g = d.get g := by
  simp [Dev.get, Dev.put, Dev.reg_setReg_ne d _ h]

/-- A write of a field leaves the other fields of its register. -/
theorem Dev.get_put_field (d : Dev) (f g : FRef) (v : Nat) (h : f.hi < 32) (hl : f.lo ≤ f.hi) (hd : g.hi < f.lo ∨ f.hi < g.lo) :
    (d.put f v).get g = d.get g := by
  by_cases hk : g.key = f.key
  · simp [Dev.get, Dev.put, hk, bits_setBits_ne _ v h hl hd]
  · exact Dev.get_put_ne d f g v hk

/-- A masked write: the bits of the old word outside the mask, those of the new word inside it. -/
theorem mask_merge (w v : Word) (m : Nat) :
    BitVec.ofNat 32 (w.toNat - (w.toNat &&& m) + (v.toNat &&& m)) =
      (w &&& ~~~(BitVec.ofNat 32 m)) ||| (v &&& BitVec.ofNat 32 m) := by
  have cut (x : Word) : x.toNat &&& m = (x &&& BitVec.ofNat 32 m).toNat := by
    rw [BitVec.toNat_and, BitVec.toNat_ofNat]
    apply Nat.eq_of_testBit_eq
    intro i
    rw [Nat.testBit_and, Nat.testBit_and, Nat.testBit_mod_two_pow]
    by_cases h : i < 32
    · simp [h]
    · simp [h, BitVec.testBit_toNat, BitVec.getLsbD_of_ge x i (by omega)]
  generalize BitVec.ofNat 32 m = M at *
  have h0 : (w &&& M) &&& (w &&& ~~~M) = 0#32 := by
    apply BitVec.eq_of_getLsbD_eq
    intro i _
    simp
    cases w.getLsbD i <;> cases M.getLsbD i <;> simp
  have h1 : (w &&& M).toNat + (w &&& ~~~M).toNat = w.toNat := by
    rw [← BitVec.toNat_add_of_and_eq_zero h0, BitVec.add_eq_or_of_and_eq_zero _ _ h0]
    congr 1
    apply BitVec.eq_of_getLsbD_eq
    intro i hi
    simp [hi]
    cases w[i] <;> cases M[i] <;> rfl
  rw [cut, cut]
  have h2 : w.toNat - (w &&& M).toNat = (w &&& ~~~M).toNat := by omega
  have h3 : (w &&& ~~~M) &&& (v &&& M) = 0#32 := by
    apply BitVec.eq_of_getLsbD_eq
    intro i _
    simp
    cases w.getLsbD i <;> cases M.getLsbD i <;> simp
  rw [h2, ← BitVec.toNat_add_of_and_eq_zero h3, BitVec.ofNat_toNat, BitVec.setWidth_eq, BitVec.add_eq_or_of_and_eq_zero _ _ h3]

/-- The bits inside the mask are those written. -/
theorem mask_merge_inside (w v : Word) (m : Nat) :
    (BitVec.ofNat 32 (w.toNat - (w.toNat &&& m) + (v.toNat &&& m))).toNat &&& m = v.toNat &&& m := by
  rw [mask_merge]
  apply Nat.eq_of_testBit_eq
  intro i
  simp only [BitVec.toNat_or, BitVec.toNat_and, BitVec.toNat_not, Nat.testBit_and, Nat.testBit_or, BitVec.toNat_ofNat]
  by_cases h : i < 32
  · rw [show (2 ^ 32 - 1 - m % 2 ^ 32) = (~~~(BitVec.ofNat 32 m)).toNat by simp]
    simp only [BitVec.testBit_toNat, BitVec.getLsbD_not, BitVec.getLsbD_ofNat, h, Nat.testBit_mod_two_pow]
    cases w.getLsbD i <;> cases v.getLsbD i <;> cases m.testBit i <;> simp
  · simp [BitVec.testBit_toNat, BitVec.getLsbD_of_ge _ i (by omega : 32 ≤ i)]

theorem Dev.reg_put_ne (d : Dev) (f : FRef) {k : Nat} (v : Nat) (h : k ≠ f.key) : (d.put f v).reg k = d.reg k := by
  simp [Dev.put, Dev.reg_setReg_ne d _ h]

@[simp] theorem Dev.get_setLive (d : Dev) (k : Nat) (w : Word) (f : FRef) : (d.setLive k w).get f = d.get f := rfl
@[simp] theorem Dev.get_setShadow (d : Dev) (k : Nat) (w : Word) (f : FRef) : (d.setShadow k w).get f = d.get f := rfl

/-- Registers come from the register table alone. -/
theorem Dev.get_congr {d e : Dev} (f : FRef) (h : e.regs = d.regs) : e.get f = d.get f := by simp [Dev.get, Dev.reg, h]

/-! ### Events and counters -/

/-- Two states of the block differ at most in what an event touches: registers, live counters, outgoing messages, the event
state and the item FIFOs. -/
def EvOnly (d e : Dev) : Prop := e = { d with regs := e.regs, live := e.live, out := e.out, ev := e.ev, fifos := e.fifos }

theorem EvOnly.refl (d : Dev) : EvOnly d d := rfl

theorem EvOnly.trans {a b c : Dev} (h : EvOnly a b) (k : EvOnly b c) : EvOnly a c := by
  unfold EvOnly at *
  rw [h] at k
  exact k

theorem evOnly_setReg (d : Dev) (k : Nat) (w : Word) : EvOnly d (d.setReg k w) := rfl
theorem evOnly_setLive (d : Dev) (k : Nat) (w : Word) : EvOnly d (d.setLive k w) := rfl
theorem evOnly_put (d : Dev) (f : FRef) (v : Nat) : EvOnly d (d.put f v) := rfl
theorem evOnly_ev (d : Dev) (v : Events) : EvOnly d { d with ev := v } := rfl
theorem evOnly_sendEvent (e n : Nat) (t : Stamp) (lt : Word) (p : List Word) (d : Dev) : EvOnly d (sendEvent e n t lt p d) := rfl

/-- Counting a message touches only what an event touches, where its COUNTER_SAT does. -/
theorem evOnly_tallyWith (r : List Word → Dev → Dev) (h : ∀ p d, EvOnly d (r p d)) (k : Nat) (d : Dev) : EvOnly d (tallyWith r k d) := by
  unfold tallyWith
  dsimp only
  split
  · exact (evOnly_setLive d k _).trans (h _ _)
  · rfl

/-- Raising an event touches only what an event touches. -/
theorem evOnly_raiseF (n e : Nat) (p : List Word) (d : Dev) : EvOnly d (raiseF n e p d) := by
  induction n generalizing e p d with
  | zero =>
    unfold raiseF
    dsimp only
    repeat' split
    all_goals rfl
  | succ n ih =>
    have t := evOnly_tallyWith (raiseF n E.MBX_COUNTER_SAT) (ih _)
    unfold raiseF
    dsimp only
    split
    · rfl
    · split
      · rfl
      · split
        · exact ((EvOnly.trans (by rfl) (t _ _)).trans (ih _ _ _)).trans (t _ _)
        · exact EvOnly.trans (by rfl) (t _ _)

theorem evOnly_raise (e : Nat) (p : List Word) (d : Dev) : EvOnly d (raise e p d) := evOnly_raiseF 2 e p d

theorem evOnly_raiseOnce (e : Nat) (p : List Word) (d : Dev) : EvOnly d (raiseOnce e p d) := by
  unfold raiseOnce
  dsimp only
  split
  · rfl
  · exact EvOnly.trans (by rfl) (evOnly_raise _ _ _)

/-- Counting touches only what an event touches. -/
theorem evOnly_count (k n : Nat) (d : Dev) : EvOnly d (count k n d) := by
  unfold count
  dsimp only
  split
  · exact EvOnly.trans (by rfl) (evOnly_raise _ _ _)
  · rfl

theorem EvOnly.clk {d e : Dev} (h : EvOnly d e) : e.clk = d.clk := by rw [h]
@[simp] theorem raise_clk (e : Nat) (p : List Word) (d : Dev) : (raise e p d).clk = d.clk := (evOnly_raise e p d).clk
@[simp] theorem raiseOnce_clk (e : Nat) (p : List Word) (d : Dev) : (raiseOnce e p d).clk = d.clk := (evOnly_raiseOnce e p d).clk
@[simp] theorem count_clk (k n : Nat) (d : Dev) : (count k n d).clk = d.clk := (evOnly_count k n d).clk
@[simp] theorem count1_clk (k : Nat) (d : Dev) : (count1 k d).clk = d.clk := (evOnly_count k 1 d).clk
theorem EvOnly.shadow {d e : Dev} (h : EvOnly d e) : e.shadow = d.shadow := by rw [h]
@[simp] theorem raise_shadow (e : Nat) (p : List Word) (d : Dev) : (raise e p d).shadow = d.shadow := (evOnly_raise e p d).shadow
@[simp] theorem raiseOnce_shadow (e : Nat) (p : List Word) (d : Dev) : (raiseOnce e p d).shadow = d.shadow := (evOnly_raiseOnce e p d).shadow
@[simp] theorem count_shadow (k n : Nat) (d : Dev) : (count k n d).shadow = d.shadow := (evOnly_count k n d).shadow
@[simp] theorem count1_shadow (k : Nat) (d : Dev) : (count1 k d).shadow = d.shadow := (evOnly_count k 1 d).shadow
theorem EvOnly.commit {d e : Dev} (h : EvOnly d e) : e.commit = d.commit := by rw [h]
@[simp] theorem raise_commit (e : Nat) (p : List Word) (d : Dev) : (raise e p d).commit = d.commit := (evOnly_raise e p d).commit
@[simp] theorem raiseOnce_commit (e : Nat) (p : List Word) (d : Dev) : (raiseOnce e p d).commit = d.commit := (evOnly_raiseOnce e p d).commit
@[simp] theorem count_commit (k n : Nat) (d : Dev) : (count k n d).commit = d.commit := (evOnly_count k n d).commit
@[simp] theorem count1_commit (k : Nat) (d : Dev) : (count1 k d).commit = d.commit := (evOnly_count k 1 d).commit
theorem EvOnly.bud {d e : Dev} (h : EvOnly d e) : e.bud = d.bud := by rw [h]
@[simp] theorem raise_bud (e : Nat) (p : List Word) (d : Dev) : (raise e p d).bud = d.bud := (evOnly_raise e p d).bud
@[simp] theorem raiseOnce_bud (e : Nat) (p : List Word) (d : Dev) : (raiseOnce e p d).bud = d.bud := (evOnly_raiseOnce e p d).bud
@[simp] theorem count_bud (k n : Nat) (d : Dev) : (count k n d).bud = d.bud := (evOnly_count k n d).bud
@[simp] theorem count1_bud (k : Nat) (d : Dev) : (count1 k d).bud = d.bud := (evOnly_count k 1 d).bud
theorem EvOnly.flt {d e : Dev} (h : EvOnly d e) : e.flt = d.flt := by rw [h]
@[simp] theorem raise_flt (e : Nat) (p : List Word) (d : Dev) : (raise e p d).flt = d.flt := (evOnly_raise e p d).flt
@[simp] theorem raiseOnce_flt (e : Nat) (p : List Word) (d : Dev) : (raiseOnce e p d).flt = d.flt := (evOnly_raiseOnce e p d).flt
@[simp] theorem count_flt (k n : Nat) (d : Dev) : (count k n d).flt = d.flt := (evOnly_count k n d).flt
@[simp] theorem count1_flt (k : Nat) (d : Dev) : (count1 k d).flt = d.flt := (evOnly_count k 1 d).flt
theorem EvOnly.outShort {d e : Dev} (h : EvOnly d e) : e.outShort = d.outShort := by rw [h]
@[simp] theorem raise_outShort (e : Nat) (p : List Word) (d : Dev) : (raise e p d).outShort = d.outShort := (evOnly_raise e p d).outShort
@[simp] theorem raiseOnce_outShort (e : Nat) (p : List Word) (d : Dev) : (raiseOnce e p d).outShort = d.outShort := (evOnly_raiseOnce e p d).outShort
@[simp] theorem count_outShort (k n : Nat) (d : Dev) : (count k n d).outShort = d.outShort := (evOnly_count k n d).outShort
@[simp] theorem count1_outShort (k : Nat) (d : Dev) : (count1 k d).outShort = d.outShort := (evOnly_count k 1 d).outShort
theorem EvOnly.rdata {d e : Dev} (h : EvOnly d e) : e.rdata = d.rdata := by rw [h]
@[simp] theorem raise_rdata (e : Nat) (p : List Word) (d : Dev) : (raise e p d).rdata = d.rdata := (evOnly_raise e p d).rdata
@[simp] theorem raiseOnce_rdata (e : Nat) (p : List Word) (d : Dev) : (raiseOnce e p d).rdata = d.rdata := (evOnly_raiseOnce e p d).rdata
@[simp] theorem count_rdata (k n : Nat) (d : Dev) : (count k n d).rdata = d.rdata := (evOnly_count k n d).rdata
@[simp] theorem count1_rdata (k : Nat) (d : Dev) : (count1 k d).rdata = d.rdata := (evOnly_count k 1 d).rdata
theorem EvOnly.free {d e : Dev} (h : EvOnly d e) : e.free = d.free := by rw [h]
@[simp] theorem raise_free (e : Nat) (p : List Word) (d : Dev) : (raise e p d).free = d.free := (evOnly_raise e p d).free
@[simp] theorem raiseOnce_free (e : Nat) (p : List Word) (d : Dev) : (raiseOnce e p d).free = d.free := (evOnly_raiseOnce e p d).free
@[simp] theorem count_free (k n : Nat) (d : Dev) : (count k n d).free = d.free := (evOnly_count k n d).free
@[simp] theorem count1_free (k : Nat) (d : Dev) : (count1 k d).free = d.free := (evOnly_count k 1 d).free
theorem EvOnly.latches {d e : Dev} (h : EvOnly d e) : e.latches = d.latches := by rw [h]
@[simp] theorem raise_latches (e : Nat) (p : List Word) (d : Dev) : (raise e p d).latches = d.latches := (evOnly_raise e p d).latches
@[simp] theorem raiseOnce_latches (e : Nat) (p : List Word) (d : Dev) : (raiseOnce e p d).latches = d.latches := (evOnly_raiseOnce e p d).latches
@[simp] theorem count_latches (k n : Nat) (d : Dev) : (count k n d).latches = d.latches := (evOnly_count k n d).latches
@[simp] theorem count1_latches (k : Nat) (d : Dev) : (count1 k d).latches = d.latches := (evOnly_count k 1 d).latches
theorem EvOnly.chipId {d e : Dev} (h : EvOnly d e) : e.chipId = d.chipId := by rw [h]
@[simp] theorem raise_chipId (e : Nat) (p : List Word) (d : Dev) : (raise e p d).chipId = d.chipId := (evOnly_raise e p d).chipId
@[simp] theorem raiseOnce_chipId (e : Nat) (p : List Word) (d : Dev) : (raiseOnce e p d).chipId = d.chipId := (evOnly_raiseOnce e p d).chipId
@[simp] theorem count_chipId (k n : Nat) (d : Dev) : (count k n d).chipId = d.chipId := (evOnly_count k n d).chipId
@[simp] theorem count1_chipId (k : Nat) (d : Dev) : (count1 k d).chipId = d.chipId := (evOnly_count k 1 d).chipId
theorem EvOnly.safeReq {d e : Dev} (h : EvOnly d e) : e.safeReq = d.safeReq := by rw [h]
@[simp] theorem raise_safeReq (e : Nat) (p : List Word) (d : Dev) : (raise e p d).safeReq = d.safeReq := (evOnly_raise e p d).safeReq
@[simp] theorem raiseOnce_safeReq (e : Nat) (p : List Word) (d : Dev) : (raiseOnce e p d).safeReq = d.safeReq := (evOnly_raiseOnce e p d).safeReq
@[simp] theorem count_safeReq (k n : Nat) (d : Dev) : (count k n d).safeReq = d.safeReq := (evOnly_count k n d).safeReq
@[simp] theorem count1_safeReq (k : Nat) (d : Dev) : (count1 k d).safeReq = d.safeReq := (evOnly_count k 1 d).safeReq
theorem EvOnly.time {d e : Dev} (h : EvOnly d e) : e.time = d.time := by rw [h]
@[simp] theorem raise_time (e : Nat) (p : List Word) (d : Dev) : (raise e p d).time = d.time := (evOnly_raise e p d).time
@[simp] theorem raiseOnce_time (e : Nat) (p : List Word) (d : Dev) : (raiseOnce e p d).time = d.time := (evOnly_raiseOnce e p d).time
@[simp] theorem count_time (k n : Nat) (d : Dev) : (count k n d).time = d.time := (evOnly_count k n d).time
@[simp] theorem count1_time (k : Nat) (d : Dev) : (count1 k d).time = d.time := (evOnly_count k 1 d).time
theorem EvOnly.afe {d e : Dev} (h : EvOnly d e) : e.afe = d.afe := by rw [h]
@[simp] theorem raise_afe (e : Nat) (p : List Word) (d : Dev) : (raise e p d).afe = d.afe := (evOnly_raise e p d).afe
@[simp] theorem raiseOnce_afe (e : Nat) (p : List Word) (d : Dev) : (raiseOnce e p d).afe = d.afe := (evOnly_raiseOnce e p d).afe
@[simp] theorem count_afe (k n : Nat) (d : Dev) : (count k n d).afe = d.afe := (evOnly_count k n d).afe
@[simp] theorem count1_afe (k : Nat) (d : Dev) : (count1 k d).afe = d.afe := (evOnly_count k 1 d).afe
theorem EvOnly.tdc {d e : Dev} (h : EvOnly d e) : e.tdc = d.tdc := by rw [h]
@[simp] theorem raise_tdc (e : Nat) (p : List Word) (d : Dev) : (raise e p d).tdc = d.tdc := (evOnly_raise e p d).tdc
@[simp] theorem raiseOnce_tdc (e : Nat) (p : List Word) (d : Dev) : (raiseOnce e p d).tdc = d.tdc := (evOnly_raiseOnce e p d).tdc
@[simp] theorem count_tdc (k n : Nat) (d : Dev) : (count k n d).tdc = d.tdc := (evOnly_count k n d).tdc
@[simp] theorem count1_tdc (k : Nat) (d : Dev) : (count1 k d).tdc = d.tdc := (evOnly_count k 1 d).tdc
theorem EvOnly.lost {d e : Dev} (h : EvOnly d e) : e.lost = d.lost := by rw [h]
@[simp] theorem raise_lost (e : Nat) (p : List Word) (d : Dev) : (raise e p d).lost = d.lost := (evOnly_raise e p d).lost
@[simp] theorem raiseOnce_lost (e : Nat) (p : List Word) (d : Dev) : (raiseOnce e p d).lost = d.lost := (evOnly_raiseOnce e p d).lost
@[simp] theorem count_lost (k n : Nat) (d : Dev) : (count k n d).lost = d.lost := (evOnly_count k n d).lost
@[simp] theorem count1_lost (k : Nat) (d : Dev) : (count1 k d).lost = d.lost := (evOnly_count k 1 d).lost
theorem EvOnly.cap {d e : Dev} (h : EvOnly d e) : e.cap = d.cap := by rw [h]
@[simp] theorem raise_cap (e : Nat) (p : List Word) (d : Dev) : (raise e p d).cap = d.cap := (evOnly_raise e p d).cap
@[simp] theorem raiseOnce_cap (e : Nat) (p : List Word) (d : Dev) : (raiseOnce e p d).cap = d.cap := (evOnly_raiseOnce e p d).cap
@[simp] theorem count_cap (k n : Nat) (d : Dev) : (count k n d).cap = d.cap := (evOnly_count k n d).cap
@[simp] theorem count1_cap (k : Nat) (d : Dev) : (count1 k d).cap = d.cap := (evOnly_count k 1 d).cap
theorem EvOnly.se {d e : Dev} (h : EvOnly d e) : e.se = d.se := by rw [h]
@[simp] theorem raise_se (e : Nat) (p : List Word) (d : Dev) : (raise e p d).se = d.se := (evOnly_raise e p d).se
@[simp] theorem raiseOnce_se (e : Nat) (p : List Word) (d : Dev) : (raiseOnce e p d).se = d.se := (evOnly_raiseOnce e p d).se
@[simp] theorem count_se (k n : Nat) (d : Dev) : (count k n d).se = d.se := (evOnly_count k n d).se
@[simp] theorem count1_se (k : Nat) (d : Dev) : (count1 k d).se = d.se := (evOnly_count k 1 d).se
theorem EvOnly.col {d e : Dev} (h : EvOnly d e) : e.col = d.col := by rw [h]
@[simp] theorem raise_col (e : Nat) (p : List Word) (d : Dev) : (raise e p d).col = d.col := (evOnly_raise e p d).col
@[simp] theorem raiseOnce_col (e : Nat) (p : List Word) (d : Dev) : (raiseOnce e p d).col = d.col := (evOnly_raiseOnce e p d).col
@[simp] theorem count_col (k n : Nat) (d : Dev) : (count k n d).col = d.col := (evOnly_count k n d).col
@[simp] theorem count1_col (k : Nat) (d : Dev) : (count1 k d).col = d.col := (evOnly_count k 1 d).col
theorem EvOnly.cas {d e : Dev} (h : EvOnly d e) : e.cas = d.cas := by rw [h]
@[simp] theorem raise_cas (e : Nat) (p : List Word) (d : Dev) : (raise e p d).cas = d.cas := (evOnly_raise e p d).cas
@[simp] theorem raiseOnce_cas (e : Nat) (p : List Word) (d : Dev) : (raiseOnce e p d).cas = d.cas := (evOnly_raiseOnce e p d).cas
@[simp] theorem count_cas (k n : Nat) (d : Dev) : (count k n d).cas = d.cas := (evOnly_count k n d).cas
@[simp] theorem count1_cas (k : Nat) (d : Dev) : (count1 k d).cas = d.cas := (evOnly_count k 1 d).cas
theorem EvOnly.tq {d e : Dev} (h : EvOnly d e) : e.tq = d.tq := by rw [h]
@[simp] theorem raise_tq (e : Nat) (p : List Word) (d : Dev) : (raise e p d).tq = d.tq := (evOnly_raise e p d).tq
@[simp] theorem raiseOnce_tq (e : Nat) (p : List Word) (d : Dev) : (raiseOnce e p d).tq = d.tq := (evOnly_raiseOnce e p d).tq
@[simp] theorem count_tq (k n : Nat) (d : Dev) : (count k n d).tq = d.tq := (evOnly_count k n d).tq
@[simp] theorem count1_tq (k : Nat) (d : Dev) : (count1 k d).tq = d.tq := (evOnly_count k 1 d).tq
theorem EvOnly.outCtl {d e : Dev} (h : EvOnly d e) : e.outCtl = d.outCtl := by rw [h]
@[simp] theorem raise_outCtl (e : Nat) (p : List Word) (d : Dev) : (raise e p d).outCtl = d.outCtl := (evOnly_raise e p d).outCtl
@[simp] theorem raiseOnce_outCtl (e : Nat) (p : List Word) (d : Dev) : (raiseOnce e p d).outCtl = d.outCtl := (evOnly_raiseOnce e p d).outCtl
@[simp] theorem count_outCtl (k n : Nat) (d : Dev) : (count k n d).outCtl = d.outCtl := (evOnly_count k n d).outCtl
@[simp] theorem count1_outCtl (k : Nat) (d : Dev) : (count1 k d).outCtl = d.outCtl := (evOnly_count k 1 d).outCtl
theorem EvOnly.lnk {d e : Dev} (h : EvOnly d e) : e.lnk = d.lnk := by rw [h]
@[simp] theorem raise_lnk (e : Nat) (p : List Word) (d : Dev) : (raise e p d).lnk = d.lnk := (evOnly_raise e p d).lnk
@[simp] theorem raiseOnce_lnk (e : Nat) (p : List Word) (d : Dev) : (raiseOnce e p d).lnk = d.lnk := (evOnly_raiseOnce e p d).lnk
@[simp] theorem count_lnk (k n : Nat) (d : Dev) : (count k n d).lnk = d.lnk := (evOnly_count k n d).lnk
@[simp] theorem count1_lnk (k : Nat) (d : Dev) : (count1 k d).lnk = d.lnk := (evOnly_count k 1 d).lnk
theorem EvOnly.mbx {d e : Dev} (h : EvOnly d e) : e.mbx = d.mbx := by rw [h]
@[simp] theorem raise_mbx (e : Nat) (p : List Word) (d : Dev) : (raise e p d).mbx = d.mbx := (evOnly_raise e p d).mbx
@[simp] theorem raiseOnce_mbx (e : Nat) (p : List Word) (d : Dev) : (raiseOnce e p d).mbx = d.mbx := (evOnly_raiseOnce e p d).mbx
@[simp] theorem count_mbx (k n : Nat) (d : Dev) : (count k n d).mbx = d.mbx := (evOnly_count k n d).mbx
@[simp] theorem count1_mbx (k : Nat) (d : Dev) : (count1 k d).mbx = d.mbx := (evOnly_count k 1 d).mbx
theorem EvOnly.pwr {d e : Dev} (h : EvOnly d e) : e.pwr = d.pwr := by rw [h]
@[simp] theorem raise_pwr (e : Nat) (p : List Word) (d : Dev) : (raise e p d).pwr = d.pwr := (evOnly_raise e p d).pwr
@[simp] theorem raiseOnce_pwr (e : Nat) (p : List Word) (d : Dev) : (raiseOnce e p d).pwr = d.pwr := (evOnly_raiseOnce e p d).pwr
@[simp] theorem count_pwr (k n : Nat) (d : Dev) : (count k n d).pwr = d.pwr := (evOnly_count k n d).pwr
@[simp] theorem count1_pwr (k : Nat) (d : Dev) : (count1 k d).pwr = d.pwr := (evOnly_count k 1 d).pwr
theorem EvOnly.dma {d e : Dev} (h : EvOnly d e) : e.dma = d.dma := by rw [h]
@[simp] theorem raise_dma (e : Nat) (p : List Word) (d : Dev) : (raise e p d).dma = d.dma := (evOnly_raise e p d).dma
@[simp] theorem raiseOnce_dma (e : Nat) (p : List Word) (d : Dev) : (raiseOnce e p d).dma = d.dma := (evOnly_raiseOnce e p d).dma
@[simp] theorem count_dma (k n : Nat) (d : Dev) : (count k n d).dma = d.dma := (evOnly_count k n d).dma
@[simp] theorem count1_dma (k : Nat) (d : Dev) : (count1 k d).dma = d.dma := (evOnly_count k 1 d).dma
theorem EvOnly.ram {d e : Dev} (h : EvOnly d e) : e.ram = d.ram := by rw [h]
@[simp] theorem raise_ram (e : Nat) (p : List Word) (d : Dev) : (raise e p d).ram = d.ram := (evOnly_raise e p d).ram
@[simp] theorem raiseOnce_ram (e : Nat) (p : List Word) (d : Dev) : (raiseOnce e p d).ram = d.ram := (evOnly_raiseOnce e p d).ram
@[simp] theorem count_ram (k n : Nat) (d : Dev) : (count k n d).ram = d.ram := (evOnly_count k n d).ram
@[simp] theorem count1_ram (k : Nat) (d : Dev) : (count1 k d).ram = d.ram := (evOnly_count k 1 d).ram
theorem EvOnly.mon {d e : Dev} (h : EvOnly d e) : e.mon = d.mon := by rw [h]
@[simp] theorem raise_mon (e : Nat) (p : List Word) (d : Dev) : (raise e p d).mon = d.mon := (evOnly_raise e p d).mon
@[simp] theorem raiseOnce_mon (e : Nat) (p : List Word) (d : Dev) : (raiseOnce e p d).mon = d.mon := (evOnly_raiseOnce e p d).mon
@[simp] theorem count_mon (k n : Nat) (d : Dev) : (count k n d).mon = d.mon := (evOnly_count k n d).mon
@[simp] theorem count1_mon (k : Nat) (d : Dev) : (count1 k d).mon = d.mon := (evOnly_count k 1 d).mon
theorem EvOnly.grd {d e : Dev} (h : EvOnly d e) : e.grd = d.grd := by rw [h]
@[simp] theorem raise_grd (e : Nat) (p : List Word) (d : Dev) : (raise e p d).grd = d.grd := (evOnly_raise e p d).grd
@[simp] theorem raiseOnce_grd (e : Nat) (p : List Word) (d : Dev) : (raiseOnce e p d).grd = d.grd := (evOnly_raiseOnce e p d).grd
@[simp] theorem count_grd (k n : Nat) (d : Dev) : (count k n d).grd = d.grd := (evOnly_count k n d).grd
@[simp] theorem count1_grd (k : Nat) (d : Dev) : (count1 k d).grd = d.grd := (evOnly_count k 1 d).grd
theorem EvOnly.sec {d e : Dev} (h : EvOnly d e) : e.sec = d.sec := by rw [h]
@[simp] theorem raise_sec (e : Nat) (p : List Word) (d : Dev) : (raise e p d).sec = d.sec := (evOnly_raise e p d).sec
@[simp] theorem raiseOnce_sec (e : Nat) (p : List Word) (d : Dev) : (raiseOnce e p d).sec = d.sec := (evOnly_raiseOnce e p d).sec
@[simp] theorem count_sec (k n : Nat) (d : Dev) : (count k n d).sec = d.sec := (evOnly_count k n d).sec
@[simp] theorem count1_sec (k : Nat) (d : Dev) : (count1 k d).sec = d.sec := (evOnly_count k 1 d).sec

theorem eventKey_saturated : eventKey E.MBX_COUNTER_SAT = eventKey E.MBX_EVT_LOST := rfl

theorem sendEvent_reg (e n : Nat) (t : Stamp) (lt : Word) (p : List Word) (d : Dev) (k : Nat) : (sendEvent e n t lt p d).reg k = d.reg k := rfl

/-- Counting a message leaves the registers that its COUNTER_SAT leaves. -/
theorem tallyWith_reg (r : List Word → Dev → Dev) (j : Nat) (h : ∀ p d, (r p d).reg j = d.reg j) (k : Nat) (d : Dev) :
    (tallyWith r k d).reg j = d.reg j := by
  unfold tallyWith
  dsimp only
  split
  · rw [h]; rfl
  · rfl

/-- Raising an event leaves every register but its own and, for lost messages, that of the mailboxes. -/
theorem raiseF_reg (n e : Nat) (p : List Word) (d : Dev) {k : Nat} (h : k ≠ eventKey e) (hm : k ≠ eventKey E.MBX_EVT_LOST) :
    (raiseF n e p d).reg k = d.reg k := by
  induction n generalizing e p d with
  | zero =>
    have h1 (w : Word) : (d.setReg (eventKey e) w).reg k = d.reg k := Dev.reg_setReg_ne d _ h
    unfold raiseF
    dsimp only
    repeat' split
    all_goals exact h1 _
  | succ n ih =>
    have h1 (w : Word) : (d.setReg (eventKey e) w).reg k = d.reg k := Dev.reg_setReg_ne d _ h
    have t := tallyWith_reg (raiseF n E.MBX_COUNTER_SAT) k (fun p d => ih _ p d (by rw [eventKey_saturated]; exact hm))
    unfold raiseF
    dsimp only
    split
    · exact h1 _
    · split
      · exact h1 _
      · split
        · rw [t, ih _ _ _ hm, t]; exact h1 _
        · rw [t]; exact h1 _

theorem raise_reg (e : Nat) (p : List Word) (d : Dev) {k : Nat} (h : k ≠ eventKey e) (hm : k ≠ eventKey E.MBX_EVT_LOST) :
    (raise e p d).reg k = d.reg k := raiseF_reg 2 e p d h hm

theorem raise_get (e : Nat) (p : List Word) (d : Dev) (f : FRef) (h : f.key ≠ eventKey e) (hm : f.key ≠ eventKey E.MBX_EVT_LOST) :
    (raise e p d).get f = d.get f := by simp [Dev.get, raise_reg e p d h hm]

theorem raiseOnce_get (e : Nat) (p : List Word) (d : Dev) (f : FRef) (h : f.key ≠ eventKey e) (hm : f.key ≠ eventKey E.MBX_EVT_LOST) :
    (raiseOnce e p d).get f = d.get f := by
  unfold raiseOnce
  dsimp only
  split
  · rfl
  · rw [raise_get _ _ _ _ h hm]; rfl

/-- Counting leaves every register but the event registers of its block and of the mailboxes. -/
theorem count_reg (k n : Nat) (d : Dev) {j : Nat} (h : j ≠ eventKey (k / 65536 * 32 + satBit (k / 65536)))
    (hm : j ≠ eventKey E.MBX_EVT_LOST) : (count k n d).reg j = d.reg j := by
  unfold count
  dsimp only
  split
  · rw [raise_reg _ _ _ h hm]; rfl
  · rfl

theorem count_get (k n : Nat) (d : Dev) (f : FRef) (h : f.key ≠ eventKey (k / 65536 * 32 + satBit (k / 65536)))
    (hm : f.key ≠ eventKey E.MBX_EVT_LOST) : (count k n d).get f = d.get f := by simp [Dev.get, count_reg k n d h hm]

theorem count1_get (k : Nat) (d : Dev) (f : FRef) (h : f.key ≠ eventKey (k / 65536 * 32 + satBit (k / 65536)))
    (hm : f.key ≠ eventKey E.MBX_EVT_LOST) : (count1 k d).get f = d.get f := count_get k 1 d f h hm

/-- Counting a message leaves the live counters that its COUNTER_SAT leaves, but for its own. -/
theorem tallyWith_live (r : List Word → Dev → Dev) {j k : Nat} (h : ∀ p d, (r p d).liveReg j = d.liveReg j) (hk : j ≠ k) (d : Dev) :
    (tallyWith r k d).liveReg j = d.liveReg j := by
  unfold tallyWith
  dsimp only
  split
  · rw [h, Dev.liveReg_setLive_ne _ _ hk]
  · exact Dev.liveReg_setLive_ne _ _ hk

/-- Raising an event leaves every live counter but the two of event messages. -/
theorem raiseF_live (n e : Nat) (p : List Word) (d : Dev) {k : Nat} (h4 : k ≠ R.MBX_COUNT 4) (h5 : k ≠ R.MBX_COUNT 5) :
    (raiseF n e p d).liveReg k = d.liveReg k := by
  induction n generalizing e p d with
  | zero =>
    have l4 (x : Dev) (w : Word) : (x.setLive (R.MBX_COUNT 4) w).liveReg k = x.liveReg k := Dev.liveReg_setLive_ne x w h4
    unfold raiseF
    dsimp only
    repeat' split
    · rfl
    · rfl
    · rw [l4]; rfl
  | succ n ih =>
    have t4 := tallyWith_live (raiseF n E.MBX_COUNTER_SAT) (fun p d => ih _ p d) h4
    have t5 := tallyWith_live (raiseF n E.MBX_COUNTER_SAT) (fun p d => ih _ p d) h5
    unfold raiseF
    dsimp only
    split
    · rfl
    · split
      · rfl
      · split
        · rw [t5, ih, t4]; rfl
        · rw [t4]; rfl

theorem raise_live (e : Nat) (p : List Word) (d : Dev) {k : Nat} (h4 : k ≠ R.MBX_COUNT 4) (h5 : k ≠ R.MBX_COUNT 5) :
    (raise e p d).liveReg k = d.liveReg k := raiseF_live 2 e p d h4 h5

/-- Counting moves the counter on as a counter word moves. -/
theorem count_live_self (k n : Nat) (d : Dev) (h4 : k ≠ R.MBX_COUNT 4) (h5 : k ≠ R.MBX_COUNT 5) :
    (count k n d).liveReg k = countWord (d.liveReg k) n := by
  unfold count
  dsimp only
  split
  · rw [raise_live _ _ _ h4 h5, Dev.liveReg_setLive_self]
  · rw [Dev.liveReg_setLive_self]

/-- Counting leaves every other live counter but the two of event messages. -/
theorem count_live_ne (k n : Nat) (d : Dev) {j : Nat} (h : j ≠ k) (h4 : j ≠ R.MBX_COUNT 4) (h5 : j ≠ R.MBX_COUNT 5) :
    (count k n d).liveReg j = d.liveReg j := by
  unfold count
  dsimp only
  split
  · rw [raise_live _ _ _ h4 h5, Dev.liveReg_setLive_ne _ _ h]
  · rw [Dev.liveReg_setLive_ne _ _ h]

end Sys2Proof.Machine
end

