-- ==== Sys2Proof/Laws/Commit.lean ====
section
/-! SUPPORT. The commit unit: what a note in COMMIT_STATUS says, the slots, and what a seal that passes its checks comes to. -/

namespace Sys2Proof.Machine

theorem bits_lt (w : Word) (hi lo : Nat) : bits w hi lo < 2 ^ (hi + 1 - lo) := Nat.mod_lt _ (by positivity)

/-- A note of a seal leaves slots, shadow and events. -/
theorem noteCommit_keeps (a b t : Nat) (o : Option Nat) (d : Dev) : (noteCommit a b t o d).commit = d.commit ∧ (noteCommit a b t o d).shadow = d.shadow ∧ (noteCommit a b t o d).ev = d.ev := by
  unfold noteCommit; cases o <;> exact ⟨rfl, rfl, rfl⟩

/-- It writes COMMIT_STATUS alone. -/
theorem noteCommit_reg (a b t : Nat) (o : Option Nat) (d : Dev) (j : Nat) (h : j ≠ F.TRN_COMMIT_STATUS_LAST_TAG.key) : (noteCommit a b t o d).reg j = d.reg j := by
  unfold noteCommit
  cases o <;> dsimp only <;> (repeat rw [Dev.reg_put_ne _ _ _ (by exact h)])

/-- LAST_RESULT is the status noted. -/
theorem noteCommit_result (a b t : Nat) (o : Option Nat) (d : Dev) : (noteCommit a b t o d).get F.TRN_COMMIT_STATUS_LAST_RESULT = a % 256 := by
  unfold noteCommit
  cases o <;> dsimp only
  · rw [Dev.get_put_field _ _ _ _ (by decide) (by decide) (by decide), Dev.get_put_field _ _ _ _ (by decide) (by decide) (by decide), Dev.get_put_self _ _ _ (by decide) (by decide)]; rfl
  · rw [Dev.get_put_field _ _ _ _ (by decide) (by decide) (by decide), Dev.get_put_field _ _ _ _ (by decide) (by decide) (by decide), Dev.get_put_field _ _ _ _ (by decide) (by decide) (by decide), Dev.get_put_self _ _ _ (by decide) (by decide)]; rfl

/-- LAST_REASON is the reason noted. -/
theorem noteCommit_reason (a b t : Nat) (o : Option Nat) (d : Dev) : (noteCommit a b t o d).get F.TRN_COMMIT_STATUS_LAST_REASON = b % 16 := by
  unfold noteCommit
  cases o <;> dsimp only
  · rw [Dev.get_put_field _ _ _ _ (by decide) (by decide) (by decide), Dev.get_put_self _ _ _ (by decide) (by decide)]; rfl
  · rw [Dev.get_put_field _ _ _ _ (by decide) (by decide) (by decide), Dev.get_put_field _ _ _ _ (by decide) (by decide) (by decide), Dev.get_put_self _ _ _ (by decide) (by decide)]; rfl

/-- LAST_TAG is the tag noted. -/
theorem noteCommit_tag (a b t : Nat) (o : Option Nat) (d : Dev) : (noteCommit a b t o d).get F.TRN_COMMIT_STATUS_LAST_TAG = t % 256 := by
  unfold noteCommit
  cases o <;> dsimp only
  · rw [Dev.get_put_self _ _ _ (by decide) (by decide)]; rfl
  · rw [Dev.get_put_field _ _ _ _ (by decide) (by decide) (by decide), Dev.get_put_self _ _ _ (by decide) (by decide)]; rfl

/-- LAST_SLOT is the slot noted. -/
theorem noteCommit_slot (a b t i : Nat) (d : Dev) : (noteCommit a b t (some i) d).get F.TRN_COMMIT_STATUS_LAST_SLOT = i % 8 := by
  unfold noteCommit
  dsimp only
  rw [Dev.get_put_self _ _ _ (by decide) (by decide)]; rfl

/-- DEFERRED and REFUSED stay. -/
theorem noteCommit_flag (a b t : Nat) (o : Option Nat) (d : Dev) (f : FRef) (hf : f.lo = 30 ∨ f.lo = 31) : (noteCommit a b t o d).get f = d.get f := by
  unfold noteCommit
  have n1 : F.TRN_COMMIT_STATUS_LAST_RESULT.hi = 7 ∧ F.TRN_COMMIT_STATUS_LAST_REASON.hi = 15 ∧ F.TRN_COMMIT_STATUS_LAST_TAG.hi = 23 ∧ F.TRN_COMMIT_STATUS_LAST_SLOT.hi = 26 := ⟨rfl, rfl, rfl, rfl⟩
  cases o <;> dsimp only
  · rw [Dev.get_put_field _ _ _ _ (by decide) (by decide) (by omega), Dev.get_put_field _ _ _ _ (by decide) (by decide) (by omega), Dev.get_put_field _ _ _ _ (by decide) (by decide) (by omega)]
  · rw [Dev.get_put_field _ _ _ _ (by decide) (by decide) (by omega), Dev.get_put_field _ _ _ _ (by decide) (by decide) (by omega), Dev.get_put_field _ _ _ _ (by decide) (by decide) (by omega), Dev.get_put_field _ _ _ _ (by decide) (by decide) (by omega)]

/-- A slot that the table holds is written. -/
theorem Dev.slot_setSlot (d : Dev) (i : Nat) (x : Slot) (h : i < d.commit.slots.length) : (d.setSlot i x).slot i = x := by
  simp [Dev.slot, Dev.setSlot, h]

/-- Every other slot stays. -/
theorem Dev.slot_setSlot_ne (d : Dev) (i j : Nat) (x : Slot) (h : j ≠ i) : (d.setSlot i x).slot j = d.slot j := by
  simp [Dev.slot, Dev.setSlot, Ne.symm h]

/-- A seal whose set passes its checks (R28, R31, R515): a free slot holds the set, the dirty set empties, COMMIT_STATUS notes it, and a deferral is reported. -/
theorem sealSet_accepted (d : Dev) (tag i : Nat) (k : SealKind) (hd : d.commit.dirty ≠ []) (hk : kindStatus d k = 0) (hf : d.freeSlot = some i)
    (hc : checkSet d d.commit.dirty (d.resultOf (sealSlot d k tag)) (d.valueBefore (sealSlot d k tag)) d.shadowReg (k == .now)
      (d.modeBefore (sealSlot d k tag)) = 0) :
    (sealSet k tag d).2 =
      (let d1 := d.setSlot i (sealSlot d k tag)
      let d2 := { d1 with commit := { d1.commit with dirty := [], nextOrder := d1.commit.nextOrder + 1 } }
      let d3 := noteCommit 0 0 tag (some i) d2
      if k == .next && (sealSlot d k tag).late then raise E.TRN_COMMIT_DEFERRED [] (d3.put F.TRN_COMMIT_STATUS_DEFERRED 1) else d3) := by
  have he : d.commit.dirty.isEmpty = false := by cases h : d.commit.dirty <;> simp_all
  unfold sealSet
  simp only [he, Bool.false_and, Bool.false_eq_true, if_false, hc, hk, hf, bne_self_eq_false]

/-- A write of COMMIT_CTRL is the commit operation of its fields. -/
theorem writeReg_commitCtrl (s : State) (v : Word) : writeReg R.TRN_COMMIT_CTRL v s = { s with dev := commitCtrl (bits v 2 0) (bits v 6 4) (bits v 15 8) s.dev } := by
  unfold writeReg
  have a : s.dev.absentKey R.TRN_COMMIT_CTRL = false := by
    unfold Dev.absentKey; rfl
  have b : dmaKey R.TRN_COMMIT_CTRL s.dev = some R.TRN_COMMIT_CTRL := rfl
  simp only [a, Bool.false_eq_true, if_false, b]
  rfl

/-- Folding entries into a table: an entry listed, or there before, has its value. -/
theorem kfind_foldl_kset {α : Type} (f : Nat → α) (l : List Nat) (m : KMap α) (k : Nat) (h : k ∈ l ∨ kfind m k = some (f k)) :
    kfind (l.foldl (fun m k => kset m k (f k)) m) k = some (f k) := by
  induction l generalizing m with
  | nil => rcases h with h | h
           · cases h
           · exact h
  | cons a r ih =>
    simp only [List.foldl_cons]
    apply ih
    by_cases hk : k = a
    · subst hk; right; simp
    · rcases h with h | h
      · rcases List.mem_cons.1 h with h | h
        · exact absurd h hk
        · exact .inl h
      · right; rw [kfind_kset_ne _ _ hk, h]

end Sys2Proof.Machine
end

