-- ==== Sys2Proof/Laws/Memory.lean ====
section
/-! SUPPORT. The byte memory: reading after writing, and the canonical form that every operation on it keeps. -/

namespace Sys2Proof.Machine

/-- The canonical form, in the terms proofs use: every listed byte differs from its default, and the addresses rise. -/
theorem Memory.wf_iff (m : List Host.Cell) :
    Memory.wf m = true ↔ (∀ c ∈ m, c.2 ≠ memDefault c.1) ∧ m.Pairwise (fun x y => x.1 < y.1) := by
  have chain : ∀ m : List Host.Cell, ((m.zip (m.drop 1)).all (fun p => decide (p.1.1 < p.2.1)) = true) ↔ m.Pairwise (fun x y => x.1 < y.1) := by
    intro m
    induction m with
    | nil => simp
    | cons a r ih =>
      cases r with
      | nil => simp
      | cons b r =>
        simp only [List.drop_succ_cons, List.drop_zero, List.zip_cons_cons, List.all_cons, Bool.and_eq_true, decide_eq_true_eq] at ih ⊢
        rw [ih]
        constructor
        · rintro ⟨h1, h2⟩
          refine List.pairwise_cons.2 ⟨?_, h2⟩
          intro c hc
          rcases List.mem_cons.1 hc with rfl | hc
          · exact h1
          · exact lt_trans h1 ((List.pairwise_cons.1 h2).1 c hc)
        · intro h
          exact ⟨(List.pairwise_cons.1 h).1 b (by simp), (List.pairwise_cons.1 h).2⟩
  unfold Memory.wf
  rw [Bool.and_eq_true, chain]
  simp only [List.all_eq_true, bne_iff_ne, ne_eq]

theorem Memory.wf_nil : Memory.wf [] = true := rfl

/-- Reading after setting a listed byte. -/
theorem memGet_cellSet (m : List Host.Cell) (a x : Nat) (v : Byte) : memGet (cellSet m a v) x = if a = x then v else memGet m x := by
  induction m with
  | nil => simp [cellSet, memGet]
  | cons c r ih =>
    obtain ⟨k, w⟩ := c
    unfold cellSet
    split
    · simp [memGet]
    · split
      · rename_i h1 h2
        have : k = a := by simpa using h2
        subst this
        by_cases hx : k = x <;> simp [memGet, hx]
      · rename_i h1 h2
        have h2 : k ≠ a := by simpa using h2
        by_cases hx : k = x
        · subst hx
          have : ¬ a = k := fun h => h2 h.symm
          simp [memGet, this]
        · simp [memGet, hx, ih]

theorem memGet_of_lt (m : List Host.Cell) (a : Nat) (h : ∀ c ∈ m, a < c.1) : memGet m a = memDefault a := by
  induction m with
  | nil => rfl
  | cons c r ih =>
    have h1 : a < c.1 := h c (by simp)
    have : ¬ c.1 = a := by omega
    obtain ⟨k, w⟩ := c
    simp only at this
    simp [memGet, this, ih (fun c hc => h c (List.mem_cons_of_mem _ hc))]

/-- Reading after a listed byte is dropped from a memory in rising order. -/
theorem memGet_cellDel (m : List Host.Cell) (a x : Nat) (h : m.Pairwise (fun x y => x.1 < y.1)) :
    memGet (cellDel m a) x = if a = x then memDefault a else memGet m x := by
  induction m with
  | nil => simp only [cellDel, memGet]; split <;> simp_all
  | cons c r ih =>
    obtain ⟨k, w⟩ := c
    obtain ⟨h1, h2⟩ := List.pairwise_cons.1 h
    unfold cellDel
    split
    · rename_i hk
      have : k = a := by simpa using hk
      subst this
      by_cases hx : k = x
      · subst hx
        simp [memGet_of_lt r k (fun c hc => h1 c hc)]
      · simp [memGet, hx]
    · rename_i hk
      have hk : k ≠ a := by simpa using hk
      by_cases hx : k = x
      · subst hx
        have : ¬ a = k := fun h => hk h.symm
        simp [memGet, this]
      · simp [memGet, hx, ih h2]

theorem mem_cellSet {m : List Host.Cell} {a : Nat} {v : Byte} {c : Host.Cell} (h : c ∈ cellSet m a v) : c = (a, v) ∨ c ∈ m := by
  induction m with
  | nil => simpa [cellSet] using h
  | cons b r ih =>
    obtain ⟨k, w⟩ := b
    unfold cellSet at h
    split at h
    · simpa using h
    · split at h
      · rcases List.mem_cons.1 h with h | h
        · exact .inl h
        · exact .inr (List.mem_cons_of_mem _ h)
      · rcases List.mem_cons.1 h with h | h
        · exact .inr (by simp [h])
        · rcases ih h with h | h
          · exact .inl h
          · exact .inr (List.mem_cons_of_mem _ h)

theorem cellDel_sublist (m : List Host.Cell) (a : Nat) : (cellDel m a).Sublist m := by
  induction m with
  | nil => exact List.Sublist.refl _
  | cons b r ih =>
    obtain ⟨k, w⟩ := b
    unfold cellDel
    split
    · exact List.sublist_cons_self _ _
    · exact ih.cons_cons _

theorem cellSet_rising {m : List Host.Cell} (a : Nat) (v : Byte) (h : m.Pairwise (fun x y => x.1 < y.1)) :
    (cellSet m a v).Pairwise (fun x y => x.1 < y.1) := by
  induction m with
  | nil => simp [cellSet]
  | cons b r ih =>
    obtain ⟨k, w⟩ := b
    obtain ⟨h1, h2⟩ := List.pairwise_cons.1 h
    unfold cellSet
    split
    · rename_i hk
      refine List.pairwise_cons.2 ⟨?_, h⟩
      intro c hc
      rcases List.mem_cons.1 hc with rfl | hc
      · exact hk
      · exact lt_trans hk (h1 c hc)
    · split
      · rename_i hk hk'
        have : k = a := by simpa using hk'
        subst this
        exact List.pairwise_cons.2 ⟨h1, h2⟩
      · rename_i hk hk'
        have hk' : k ≠ a := by simpa using hk'
        refine List.pairwise_cons.2 ⟨?_, ih h2⟩
        intro c hc
        rcases mem_cellSet hc with rfl | hc
        · show k < a; omega
        · exact h1 c hc

/-- A memory part of which is dropped keeps the canonical form. -/
theorem Memory.wf_sublist {m m' : List Host.Cell} (s : m'.Sublist m) (h : Memory.wf m = true) : Memory.wf m' = true := by
  rw [Memory.wf_iff] at h ⊢
  exact ⟨fun c hc => h.1 c (s.subset hc), h.2.sublist s⟩

theorem Memory.wf_filter {m : List Host.Cell} (p : Host.Cell → Bool) (h : Memory.wf m = true) : Memory.wf (m.filter p) = true :=
  Memory.wf_sublist List.filter_sublist h

/-- Writing a byte keeps the canonical form. -/
theorem Memory.wf_memSet {m : List Host.Cell} (a : Nat) (v : Byte) (h : Memory.wf m = true) : Memory.wf (memSet m a v) = true := by
  unfold memSet
  split
  · exact Memory.wf_sublist (cellDel_sublist m a) h
  · rename_i hv
    rw [Memory.wf_iff] at h ⊢
    refine ⟨?_, cellSet_rising a v h.2⟩
    intro c hc
    rcases mem_cellSet hc with rfl | hc
    · simpa using hv
    · exact h.1 c hc

theorem Memory.wf_memWrite {m : List Host.Cell} (a : Nat) (bs : List Byte) (h : Memory.wf m = true) : Memory.wf (memWrite m a bs) = true := by
  induction bs generalizing a with
  | nil => exact h
  | cons b r ih => exact Memory.wf_memSet a b (ih (a + 1))

/-- A byte reads as written, and every other byte as before. -/
theorem memGet_memSet {m : List Host.Cell} (a x : Nat) (v : Byte) (h : Memory.wf m = true) :
    memGet (memSet m a v) x = if a = x then v else memGet m x := by
  unfold memSet
  split
  · rename_i hv
    have hv : v = memDefault a := by simpa using hv
    rw [memGet_cellDel m a x ((Memory.wf_iff m).1 h).2, hv]
  · exact memGet_cellSet m a x v

/-- Written bytes read back; every byte outside them reads as before. -/
theorem memGet_memWrite {m : List Host.Cell} (a x : Nat) (bs : List Byte) (h : Memory.wf m = true) :
    memGet (memWrite m a bs) x = if a ≤ x ∧ x < a + bs.length then bs.getD (x - a) 0 else memGet m x := by
  induction bs generalizing a with
  | nil =>
    simp [memWrite]
  | cons b r ih =>
    show memGet (memSet (memWrite m (a + 1) r) a b) x = _
    rw [memGet_memSet a x b (Memory.wf_memWrite _ _ h), ih]
    by_cases hx : a = x
    · subst hx; simp
    · by_cases h1 : a + 1 ≤ x ∧ x < a + 1 + r.length
      · have h2 : a ≤ x ∧ x < a + (b :: r).length := by simp; omega
        have h3 : x - a = (x - (a + 1)) + 1 := by omega
        simp only [hx, h1, h2, h3, and_self, if_false, if_true, List.getD_cons_succ]
      · have h2 : ¬ (a ≤ x ∧ x < a + (b :: r).length) := by simp; omega
        simp only [hx, h1, h2, if_false]

/-- The flips of a mask over a unit's bytes. -/
theorem Memory.wf_foldl_memSet (l : List Nat) (f : List Host.Cell → Nat → List Host.Cell)
    (hf : ∀ m i, Memory.wf m = true → Memory.wf (f m i) = true) {m : List Host.Cell} (h : Memory.wf m = true) :
    Memory.wf (l.foldl f m) = true := by
  induction l generalizing m with
  | nil => exact h
  | cons i r ih => exact ih (hf m i h)

/-- A write over the fabric keeps the canonical form. -/
theorem fabWrite_wf (a : Nat) (bs : List Byte) (poison : List Nat) (access master : Nat) (s : State) (h : Memory.wf s.mem = true) :
    Memory.wf (fabWrite a bs poison access master s).mem = true := by
  unfold fabWrite
  repeat' split
  all_goals try exact h
  all_goals dsimp only
  all_goals split
  all_goals first
    | exact Memory.wf_memWrite _ _ h
    | (refine Memory.wf_foldl_memSet _ _ ?_ (Memory.wf_memWrite _ _ h)
       intro m i hm
       split
       · exact hm
       · exact Memory.wf_memSet _ _ hm)

/-- A write over the fabric leaves the queue of commands. -/
theorem fabWrite_pending (a : Nat) (bs : List Byte) (poison : List Nat) (access master : Nat) (s : State) :
    (fabWrite a bs poison access master s).pending = s.pending := by
  unfold fabWrite
  repeat' split
  all_goals rfl

end Sys2Proof.Machine
end

