-- ==== Sys2Proof/Laws/Messages.lean ====
section
/-! SUPPORT. Messages: what serving an accepted request comes to, and what putting a response into a mailbox touches. -/

namespace Sys2Proof.Machine

open Sys2Proof.Safety

/-- An accepted request runs its message, and the message's status and words are its response. -/
theorem direct_accepted {id : Nat} {c : MsgCtx} {w : List Word} {s : State} (h : Accepted id c w s) :
    direct id c w s = answer id c (message id c w s).2.1 (withCommitWords id w (message id c w s).2.2) (message id c w s).1 := by
  obtain ⟨h1, h2, h3, h4, p, h5, h6⟩ := h
  have hm : c.mbx % 8 = c.mbx := Nat.mod_eq_of_lt h3
  unfold direct
  simp only [h1, h2, Bool.not_true, Bool.or_self, Bool.false_eq_true, if_false, hm]
  unfold serve
  simp only [h4, bne_self_eq_false, Bool.false_eq_true, if_false, h5, h6, Bool.not_true]
  rfl

/-- A request that the access rules turn away changes nothing but its mailbox. -/
theorem direct_denied {id : Nat} {c : MsgCtx} {w : List Word} {s : State} (h1 : s.dev.horefRuns = true) (h2 : s.dev.sec.halted = false)
    (h3 : c.mbx < 8) (h4 : accessStatus id c s.dev ≠ 0) :
    direct id c w s = answer id c (accessStatus id c s.dev) (withCommitWords id w []) s := by
  have hm : c.mbx % 8 = c.mbx := Nat.mod_eq_of_lt h3
  have h4' : (accessStatus id c s.dev != 0) = true := by simpa using h4
  unfold direct
  simp only [h1, h2, Bool.not_true, Bool.or_self, Bool.false_eq_true, if_false, hm]
  unfold serve
  simp only [h4', if_true]
  rfl

/-- Words put into a mailbox touch registers only. -/
theorem ramPut_regs (m i : Nat) (ws : List Word) (d : Dev) : ramPut m i ws d = { d with regs := (ramPut m i ws d).regs } := by
  induction ws generalizing i d with
  | nil => rfl
  | cons w r ih =>
    unfold ramPut
    rw [ih]
    split <;> rfl

/-- Where the words of a message stand in the mailbox RAM, and that nothing else is written. -/
theorem ramPut_reg (m i : Nat) (ws : List Word) (d : Dev) (hm : m < 8) (hl : i + ws.length ≤ 128) :
    (∀ j, j < ws.length → (ramPut m i ws d).reg (ramKey m (i + j)) = wordAt ws j) ∧
    (∀ k, (∀ j, j < ws.length → k ≠ ramKey m (i + j)) → (ramPut m i ws d).reg k = d.reg k) := by
  have inj (a b : Nat) : ramKey m a = ramKey m b → a = b := by
    unfold ramKey R.MBX_RAM R.MBX_RAM_S R.MBX_RAM_U
    split
    · omega
    · split <;> omega
  induction ws generalizing i d with
  | nil => exact ⟨fun j hj => absurd hj (by simp), fun k _ => rfl⟩
  | cons w r ih =>
    have hi : i < 128 := by simp at hl; omega
    have hl' : i + 1 + r.length ≤ 128 := by simp at hl; omega
    obtain ⟨i1, i2⟩ := ih (i + 1) (d.setReg (ramKey m i) w) hl'
    have e : ramPut m i (w :: r) d = ramPut m (i + 1) r (d.setReg (ramKey m i) w) := by
      show ramPut m (i + 1) r (if i < 128 then d.setReg (ramKey m i) w else d) = _
      rw [if_pos hi]
    rw [e]
    constructor
    · intro j hj
      cases j with
      | zero =>
        rw [i2 _ (fun j _ h => by have := inj _ _ h; omega)]
        exact Dev.reg_setReg_self _ _ _
      | succ j =>
        have := i1 j (by simpa using hj)
        rw [show i + (j + 1) = i + 1 + j by omega, this]; rfl
    · intro k hk
      rw [i2 k (fun j hj => by have := hk (j + 1) (by simpa using hj); rwa [show i + (j + 1) = i + 1 + j by omega] at this),
        Dev.reg_setReg_ne _ _ (by simpa using hk 0 (by simp))]

/-- With no flip armed and no byte marked, writing a mailbox writes its words and nothing else (R380, R393). -/
theorem mbxPut_plain (m i : Nat) (ws : List Word) (d : Dev) (ha : d.is F.MEM_FLIP_CTRL_ARM = false) (hp : d.ram.poison = []) (hf : d.ram.faulty = [])
    (hk : (ramPut m i ws d).is F.MEM_FLIP_CTRL_ARM = d.is F.MEM_FLIP_CTRL_ARM) : mbxPut m i ws d = ramPut m i ws d := by
  have hr : (ramPut m i ws d).ram = d.ram := by rw [ramPut_regs]
  unfold mbxPut unitsWritten
  simp [hr, hp, hf, hk, ha]

/-- A request that finds its mailbox empty (R300, R301). -/
theorem arrive_empty (path m : Nat) (ws : List Word) (d : Dev) (h : d.mbxState m = 0) : arrive path m ws d =
    (let e := count1 (R.MBX_COUNT 0) (setBell R.MBX_DOORBELL_IN m true (setMbxPath m path (setMbxState m 1 (mbxPut m 0 ws d))))
     e.setMbx { e.mbx with order := e.mbx.order ++ [m], got := kset e.mbx.got m ws.length }) := by
  unfold arrive; simp [h]

/-- A configuring message with KIND 0, with no set in its way: its writes, the set open under its mailbox, and the commit response. -/
theorem direct_configure_open (id : Nat) (hid : isConfiguring id = true) (hs : (id == 0x0102) = false) (s : State) (c : MsgCtx) (w : List Word) (a : Accepted id c w s)
    (hc : cbOk w = true) (hk : cbKind w = 0) (hb : setBusy (ownerOf c) s.dev = false) (hp : (planOf id w s.dev).status = 0) :
    direct id c w s = answer id c 0 (commitNone (cbTag w) 0) (
      { ((planOf id w s.dev).writes.foldl (fun s x => cfgWrite x s) s) with dev := ((planOf id w s.dev).writes.foldl (fun s x => cfgWrite x s) s).dev.setMbx { ((planOf id w s.dev).writes.foldl (fun s x => cfgWrite x s) s).dev.mbx with openSet := some (ownerOf c, 0) } }) := by
  rw [direct_accepted a]
  have : message id c w s = configure (ownerOf c) (id == 0x0102) w (planOf id w s.dev) s := by unfold message; rw [hid]; rfl
  rw [this, hs]
  unfold configure
  simp only [hc, Bool.not_true, Bool.false_eq_true, if_false, hp, bne_self_eq_false, hb, Bool.false_and]
  unfold cfgSeal
  simp only [hk, beq_self_eq_true, if_true]
  have e : withCommitWords id w (commitNone (cbTag w) 0) = commitNone (cbTag w) 0 := by
    unfold withCommitWords
    have : (commitNone (cbTag w) 0).isEmpty = false := rfl
    rw [this]; simp
  rw [e]; rfl

end Sys2Proof.Machine
end

