-- ==== Sys2Proof/Laws/Time.lean ====
section
/-! SUPPORT. Array time: the timing ports, turn numbers and deltas in message words, and free roundings. -/

namespace Sys2Proof.Machine

/-- A timing port that State holds is written. -/
theorem Dev.tport_setTport (d : Dev) (p : Nat) (t : TPort) (h : p < d.time.ports.length) : (d.setTport p t).tport p = t := by
  simp [Dev.setTport, Dev.tport, h]

/-- A turn number in two words is read back. -/
theorem turnOf_hiLo (n : Nat) (h : n < 2 ^ 48) : turnOf (toWord (n / 2 ^ 32)) (toWord n) = n := by
  unfold turnOf bits nbits toWord
  simp only [Nat.shiftRight_eq_div_pow, BitVec.toNat_ofNat]
  norm_num
  omega

/-- A signed 64-bit delta in two words is read back. -/
theorem signedOf_hiLo (d : Int) (h1 : -(2 ^ 31 * 33554432) ≤ d) (h2 : d ≤ (2 ^ 31 - 1) * 33554432 + 32767) :
    signedOf 64 ((toWord (ofSigned 64 d / 2 ^ 32)).toNat * 2 ^ 32 + (toWord (ofSigned 64 d)).toNat) = d := by
  have hx : ofSigned 64 d < 2 ^ 64 := by
    unfold ofSigned
    have := Int.emod_lt_of_pos d (show (0 : Int) < ((2 ^ 64 : Nat) : Int) by norm_num)
    have := Int.emod_nonneg d (show ((2 ^ 64 : Nat) : Int) ≠ 0 by norm_num)
    omega
  have e : (toWord (ofSigned 64 d / 2 ^ 32)).toNat * 2 ^ 32 + (toWord (ofSigned 64 d)).toNat = ofSigned 64 d := by
    unfold toWord
    simp only [BitVec.toNat_ofNat]
    omega
  rw [e]
  unfold signedOf ofSigned
  norm_num at h1 h2 ⊢
  split <;> omega

/-- A rounding that the spec leaves open touches no register and no event. -/
theorem roundFree_keeps (n : Int) (den : Nat) (d : Dev) : (roundFree n den d).2.regs = d.regs ∧ (roundFree n den d).2.ev = d.ev := by
  unfold roundFree drawFree; split <;> exact ⟨rfl, rfl⟩

/-- A fold keeps what each of its steps keeps. -/
theorem foldl_keep {α β γ : Type} (p : β → γ) (f : β → α → β) (hf : ∀ b a, p (f b a) = p b) (l : List α) (b : β) : p (l.foldl f b) = p b := by
  induction l generalizing b with
  | nil => rfl
  | cons a r ih => exact (ih _).trans (hf b a)

/-- Loading the DAC cores changes the front end alone. -/
theorem loadCores_afe (w : List (Nat × Word)) (d : Dev) : ∃ a, loadCores w d = { d with afe := a } := by
  unfold loadCores
  generalize List.range 64 = l
  induction l generalizing d with
  | nil => exact ⟨_, rfl⟩
  | cons n r ih =>
    simp only [List.foldl_cons]
    split
    · exact ih d
    · obtain ⟨a, h⟩ := ih (d.setAfeCh n { d.afeCh n with cores := if (d.afeCh n).core then (_, (d.afeCh n).cores.2) else ((d.afeCh n).cores.1, _) })
      exact ⟨a, h⟩

end Sys2Proof.Machine
end

