-- ==== Sys2Proof/WellFormed.lean ====
section
/-! DEFINITION. Well-formed commands: the operands lie in the ranges of what the spec numbers (channels, units, ports, lanes,
mailboxes, slots, turns), and a payload is one that a message can hold (R304). -/

namespace Sys2Proof

/-- Turn numbers have 48 bits (R17). -/
def turnBound : Nat := 2 ^ 48

/-- The header fields of a request fit their widths (R304). -/
def ctxOk (c : MsgCtx) : Bool := c.mbx < 8 && c.seq < 256 && c.id < 65536 && c.key < 256

/-- The same where a request context is given. -/
def reqOk (c : Option MsgCtx) : Bool :=
  match c with
  | some c => ctxOk c
  | none => true

/-- Tap counts of the five chains of a TDC unit; 320 and above stand for a chain that resolved nothing (R95). -/
def tapsOk (k : List Nat) : Bool := k.length == 5

/-- Readings for the 64 channels and the 18 lanes (R91, R286). -/
def envOk (e : BoundaryEnv) : Bool := e.imon.length ≤ 64 && e.nodeDev.all (· < 64) && e.eyes.length ≤ 18 && e.adapt.all (·.1 < 18) && e.chars.all (·.1 < 18)

/-- An upstream port, the I²C target or the control core (R300). -/
def pathOk (p : Path) : Bool :=
  match p with
  | .vl1 q => q < 2
  | .i2c => true
  | .core => true

/-- A code of the 24-bit monitor converter (R398). -/
def adcOk (r : Int) : Bool := -8388608 ≤ r && r ≤ 8388607

/-- The operands of a command are in range. -/
def wellFormed : Instr → Bool
  | .turnBoundary env => envOk env
  | .guardWindowOpen => true
  | .slotFreeze => true
  | .pipBoundary => true
  | .sliceBoundary => true
  | .shadowWrite _ off _ => off < 0x1000000
  | .sealNow tag => tag < 256
  | .sealNext tag => tag < 256
  | .sealAt tag => tag < 256
  | .commitCtrlBadOp op tag slot => (op == 6 || op == 7) && tag < 256 && slot < 8
  | .cancel req slot tag => reqOk req && slot < 8 && tag < 256
  | .discard req tag => reqOk req && tag < 256
  | .counterClear off _ => off < 0x1000000
  | .registerWrite _ width off _ => (width == 8 || width == 16 || width == 32) && off < 0x1000000
  | .turnLoRead => true
  | .stLoRead => true
  | .markLoRead => true
  | .txtsFineRead p => p < 4
  | .tableDataRead => true
  | .linDataAccess _ => true
  | .adjDataAccess _ => true
  | .descSelWrite _ => true
  | .fltPop _ => true
  | .budgetGrant r => r < 3
  | .burstComplete r held => r < 3 && held ≤ 32
  | .budgetBurst r => r < 3
  | .beaconReceive p _ _ k => p < 2 && tapsOk k
  | .steerApply => true
  | .delayReqSend p t3fb => p < 2 && t3fb < 2048
  | .delayRespReceive p _ _ => p < 2
  | .exchangeTimeout p => p < 2
  | .timeStepExplicit req n _ => ctxOk req && n < turnBound
  | .timeStepAdopt req p n => ctxOk req && p < 2 && n < turnBound
  | .timeStepCancel req => ctxOk req
  | .stepStretchEnd => true
  | .stTick => true
  | .stPersist => true
  | .blankingEnd ch => ch < 64
  | .testPulseLaunch => true
  | .comparatorEdge ch _ _ ct k => ch < 64 && ct < 32768 && tapsOk k
  | .pulseClose u => u < 132
  | .longPulseTimeout u => u < 132
  | .diceCollectDone u q hist => u < 132 && q < 5 && hist.length == 321
  | .diceIntegrateDone u q => u < 132 && q < 5
  | .diceAlignDone u q dist => u < 132 && q < 5 && dist.length == 1024
  | .diceCheck u q => u < 132 && q < 5
  | .tdcFullCal req => reqOk req
  | .initialCalDone => true
  | .trigInEdge _ ct k => ct < 32768 && tapsOk k
  | .freqInEdge _ ct k => ct < 32768 && tapsOk k
  | .gateInEdge _ => true
  | .freqResult e => e < 4
  | .warmupDone ch => ch < 64
  | .itrimUpdate ch corr => ch < 64 && corr.length == 48
  | .levelCrossing ch _ _ _ => ch < 64
  | .swTrigger req _ _ => reqOk req
  | .acceptReceive p _ _ _ => p < 2
  | .acceptHoldRelease => true
  | .copyStart ch => ch < 64
  | .copyDone ch _ _ _ => ch < 64
  | .recutComplete ch => ch < 64
  | .primitiveForm turn pip => turn < turnBound && pip < 1024
  | .trigOutPulseStart => true
  | .trigOutPulseEnd => true
  | .getCapture req w => ctxOk req && w.length ≤ 126
  | .recordDone k found => k < 8 && found.1 ≤ 2
  | .seFifoRoom k => k < 8
  | .gainRatioUpdate ch => ch < 64
  | .collectorEmit e => e.err < 4
  | .collectorDrainStart => true
  | .frameTailEmit => true
  | .capabilityReceive lane bytes _ => lane < 18 && bytes.length == 14
  | .frameHeadReceive j => j < 8
  | .frameTailReceive j => j < 8
  | .ownFrameSplice => true
  | .primitiveReceive j _ _ _ => j < 8
  | .summaryReceive j _ _ _ => j < 8
  | .clusterEvaluate turn pip => turn < turnBound && pip < 1024
  | .clusterAcceptSend => true
  | .acceptDelayedSend j => j < 8
  | .arrayAcceptReceive p _ _ _ => p < 2
  | .vl1MessageRoute p => p < 2
  | .downstreamMessageRelay j => j < 8
  | .portForward req w => ctxOk req && w.length ≤ 126
  | .frameSendStart p => p < 2
  | .frameSendDone p => p < 2
  | .turnAckReceive p _ _ _ => p < 2
  | .verdictAcceptReceive p _ _ _ => p < 2
  | .verdictRejectReceive p _ _ _ => p < 2
  | .giveUpReceive p _ _ _ => p < 2
  | .ackTimeout turn => turn < turnBound
  | .verdictTimeout turn => turn < turnBound
  | .reclaim => true
  | .markSet req target => reqOk req && target < turnBound
  | .markClear req => reqOk req
  | .rewind req first count => reqOk req && first < turnBound && count < 65536
  | .rewindSend => true
  | .getQueue req w => ctxOk req && w.length ≤ 126
  | .getQueues req w => ctxOk req && w.length ≤ 126
  | .giveUp req force => reqOk req && force < 4
  | .creditTimeout p => p < 2
  | .recodeDone j _ => j < 8
  | .jobStart req w => reqOk req && w.length ≤ 126
  | .jobResume req w _ => reqOk req && w.length ≤ 126
  | .jobAbort req w => reqOk req && w.length ≤ 126
  | .jobBlockDone _ _ => true
  | .laneDetectProbe l _ => l < 18
  | .laneTrainDone l a => l < 18 && a.adapt.length == 5
  | .laneTrainTimeout l => l < 18
  | .laneLockDone l => l < 18
  | .laneLockTimeout l => l < 18
  | .laneRetry l => l < 18
  | .linkFail l => l < 18
  | .laneFailedRestart l => l < 18
  | .exchangeFailTick l => l < 18
  | .lockLoss l => l < 18
  | .tsReceiveActive l => l < 18
  | .blockReceive lane _ payload _ _ _ => lane < 18 && payload.length < 64
  | .blockLostTimeout p vl => p < 12 && (vl == 1 || vl == 2)
  | .blockSend lane fb => lane < 18 && fb < 2048
  | .creditReturn p vl => p < 12 && (vl == 1 || vl == 2)
  | .lpDeepEntryReceive l => l < 18
  | .lpDeepWake l => l < 18
  | .linkRetrain req p => reqOk req && p < 16
  | .linkRestart req p => reqOk req && p < 16
  | .prbsStart req l len => reqOk req && l < 32 && len < 16
  | .prbsStop req l => reqOk req && l < 32
  | .prbsDone l _ => l < 18
  | .getPort req w => ctxOk req && w.length ≤ 126
  | .mailboxRequest path _ => pathOk path
  | .i2cMessageWrite m _ => m < 6
  | .i2cResponseRead m => m < 6
  | .i2cReadyRead => true
  | .i2cEventPop => true
  | .requestExecute => true
  | .responseSend m => m < 8
  | .userMessage req id w => ctxOk req && 0x8000 ≤ id && id < 0x10000 && w.length ≤ 126
  | .handlerReturn m status payload => m < 8 && status < 10 && payload.length ≤ 126
  | .handlerTimeout m => m < 8
  | .openSetExpire => true
  | .eventIntervalEnd block bit => block < 19 && bit < 32
  | .telemRecord id => id < 0x3FFF
  | .event req w => ctxOk req && w.length ≤ 126
  | .getFeatures req w => ctxOk req && w.length ≤ 126
  | .setChipId req w => ctxOk req && w.length ≤ 126
  | .ping req w => ctxOk req && w.length ≤ 126
  | .getEventLog req w => ctxOk req && w.length ≤ 126
  | .safeAck req w => ctxOk req && w.length ≤ 126
  | .setMode req w => ctxOk req && w.length ≤ 126
  | .seal req w => ctxOk req && w.length ≤ 126
  | .getSlots req w => ctxOk req && w.length ≤ 126
  | .setBudget req w => ctxOk req && w.length ≤ 126
  | .setChannel req w => ctxOk req && w.length ≤ 126
  | .getChannel req w => ctxOk req && w.length ≤ 126
  | .setTestPulse req w => ctxOk req && w.length ≤ 126
  | .getUnit req w => ctxOk req && w.length ≤ 126
  | .getTable req w => ctxOk req && w.length ≤ 126
  | .getTime req w => ctxOk req && w.length ≤ 126
  | .monInject req w => reqOk req && w.length ≤ 126
  | .calZero req w => reqOk req && w.length ≤ 126
  | .calFull req w => reqOk req && w.length ≤ 126
  | .calStore req w => reqOk req && w.length ≤ 126
  | .calAbort req w => reqOk req && w.length ≤ 126
  | .calStepDone _ => true
  | .monRead req w => ctxOk req && w.length ≤ 126
  | .guardLoadGpb req w => reqOk req && w.length ≤ 126
  | .guardConfirm req w => reqOk req && w.length ≤ 126
  | .guardClear req w => reqOk req && w.length ≤ 126
  | .getFaults req w => ctxOk req && w.length ≤ 126
  | .getFirstError req w => ctxOk req && w.length ≤ 126
  | .setReaction req w => ctxOk req && w.length ≤ 126
  | .getAttestation req w => ctxOk req && w.length ≤ 126
  | .setTime req w => ctxOk req && w.length ≤ 126
  | .claimOwnership req w => ctxOk req && w.length ≤ 126
  | .fwBegin req w => ctxOk req && w.length ≤ 126
  | .fwSlotPrepared => true
  | .fwChunk req w => ctxOk req && w.length ≤ 126
  | .fwVerify req w => ctxOk req && w.length ≤ 126
  | .fwCommit req w => ctxOk req && w.length ≤ 126
  | .fwCommitCopyDone => true
  | .activateReset => true
  | .debugChallenge req w => ctxOk req && w.length ≤ 126
  | .jtagSecMsg words => words.length ≤ 128
  | .peek req w => ctxOk req && w.length ≤ 126
  | .poke req w => ctxOk req && w.length ≤ 126
  | .telemDefine req w => ctxOk req && w.length ≤ 126
  | .telemList req w => ctxOk req && w.length ≤ 126
  | .scanWindowOpen => true
  | .scanStepEnd => true
  | .powerOnReset => true
  | .porRelease => true
  | .resetNAssert => true
  | .resetRelease => true
  | .noRefclkTimeout => true
  | .bootPllLock => true
  | .bootSramInitDone => true
  | .bootMonitorVerify => true
  | .bootHorefVerify => true
  | .bootUserVerify => true
  | .bootSdramTrainDone gib _ => gib < 64
  | .bootEnd => true
  | .watchdogExpire _ => true
  | .wdogKick _ => true
  | .lockstepMismatch _ => true
  | .dmaKick c => c < 16
  | .dmaResume c => c < 16
  | .dmaAbort c => c < 16
  | .dmaReset c => c < 16
  | .descriptorFetch c _ _ => c < 16
  | .dmaBurst c _ _ => c < 16
  | .descriptorComplete c => c < 16
  | .scrubStep m _ _ => m < 3
  | .bucketLeak f => f < 10
  | .sweepLate => true
  | .rowCopyDone => true
  | .flipArm _ => true
  | .fifoFlush cls => cls < 4
  | .freeListRebuild => true
  | .monEntryStart => true
  | .monSettleDone => true
  | .monConversionDone raw => adcOk raw
  | .monEntryEnd => true
  | .excitationTrip => true
  | .refReady => true
  | .biasLoopPost => true
  | .openHoldExpire k => k < 8
  | .guardDataLoss l => l < 3
  | .guardHvStale ch => ch < 2
  | .hvSettleEnd => true
  | .guardInChange _ _ => true
  | .guardEquivTimeout => true
  | .chainEdge _ => true
  | .chainLoss => true
  | .guardVote words => words.length == 3
  | .outputTestStart _ => true
  | .testFeedbackCheck => true
  | .outputTestEnd => true
  | .feedbackChange _ _ => true
  | .feedbackMismatch _ => true
  | .selftestStart => true
  | .selftestDone _ => true
  | .faultAccept => true
  | .faultFlush => true
  | .feClear _ => true
  | .worldMapWrite off _ => off < 0x1000000
  | .symbolLock l => l < 18
  | .debugPortAccess _ => true
  | .parityAlert => true

end Sys2Proof
end

