-- ==== Sys2Proof/Tests/Slice0.lean ====
section
/-! SUPPORT. The model's own tests: ill-formed commands that wellFormed refuses; small runs of one command each, with results
worked out from the spec's words; and for every statement with hypotheses a concrete state and operands that meet them together. -/

namespace Sys2Proof.Tests

open Sys2Proof Sys2Proof.Machine Sys2Proof.Safety

set_option Elab.async false

/-- The machine after reset with the block changed as `f` says. -/
def from0 (f : Dev → Dev) : State := { State.reset with dev := f State.reset.dev }

/-- The block after one command. -/
def after (c : Instr) (s : State) : Dev :=
  match exec c s with
  | .next t => t.dev
  | _ => s.dev

/-- The block in mode `m`. -/
def inMode (m : Nat) (d : Dev) : Dev := d.put F.PWR_STATUS_MODE m

/-- The block as a concentrator with `n` downstream ports. -/
def asConc (n : Nat) (d : Dev) : Dev := (d.put F.CAS_CFG_ROLE 1).put F.PWR_FEATURES_DN_PORTS n

/-- A request of mailbox 0 that is signed by the owner. -/
def ctx : MsgCtx := { mbx := 0, seq := 7, signed := true, key := 1 }

/-- What `Accepted` asks, as a test that computes. -/
theorem acc {id : Nat} {c : MsgCtx} {w : List Word} {s : State}
    (h : s.dev.horefRuns = true ∧ s.dev.sec.halted = false ∧ c.mbx < 8 ∧ accessStatus id c s.dev = 0 ∧ (paySpec id).any (payOk · w) = true) :
    Accepted id c w s := by
  obtain ⟨h1, h2, h3, h4, h5⟩ := h
  refine ⟨h1, h2, h3, h4, ?_⟩
  cases hp : paySpec id with
  | none => rw [hp] at h5; cases h5
  | some p => exact ⟨p, rfl, by rw [hp] at h5; exact h5⟩

/-- The n octets of a number, most significant first. -/
def octets (n v : Nat) : List Byte := (List.range n).map (fun i => BitVec.ofNat 8 (v / 256 ^ (n - 1 - i)))


/-! ### Ill-formed commands are refused -/

theorem test_wf_context :
    wellFormed (.ping { ctx with mbx := 8 } []) = false ∧ wellFormed (.ping { ctx with seq := 256 } []) = false ∧
      wellFormed (.ping { ctx with id := 65536 } []) = false ∧ wellFormed (.ping { ctx with key := 256 } []) = false ∧
      wellFormed (.ping ctx []) = true := by decide

theorem test_wf_optional_context :
    wellFormed (.cancel (some { ctx with mbx := 8 }) 0 0) = false ∧ wellFormed (.cancel none 0 0) = true := by decide

theorem test_wf_taps :
    wellFormed (.comparatorEdge 0 false false 0 [0, 0, 0, 0]) = false ∧ wellFormed (.comparatorEdge 0 false false 32768 [0, 0, 0, 0, 0]) = false ∧
      wellFormed (.trigInEdge false 0 []) = false ∧ wellFormed (.freqInEdge false 0 [1]) = false ∧ wellFormed (.beaconReceive 0 [] .none []) = false := by decide

theorem test_wf_boundary_readings :
    wellFormed (.turnBoundary { imon := List.replicate 65 0 }) = false ∧ wellFormed (.turnBoundary { nodeDev := [64] }) = false ∧
      wellFormed (.turnBoundary { eyes := List.replicate 19 (0, 0) }) = false ∧ wellFormed (.turnBoundary { adapt := [(18, [])] }) = false ∧
      wellFormed (.turnBoundary {}) = true := by decide

theorem test_wf_mailboxes :
    wellFormed (.mailboxRequest (.vl1 2) []) = false ∧ wellFormed (.i2cMessageWrite 6 []) = false ∧ wellFormed (.i2cResponseRead 6) = false ∧
      wellFormed (.responseSend 8) = false ∧ wellFormed (.handlerTimeout 8) = false ∧ wellFormed (.handlerReturn 0 10 []) = false ∧
      wellFormed (.userMessage ctx 0x7FFF []) = false ∧ wellFormed (.userMessage ctx 0x10000 []) = false ∧
      wellFormed (.telemRecord 0x3FFF) = false ∧
      wellFormed (.eventIntervalEnd 19 0) = false ∧ wellFormed (.eventIntervalEnd 0 32) = false := by decide

theorem test_wf_codes :
    wellFormed (.monConversionDone 8388608) = false ∧ wellFormed (.monConversionDone (-8388609)) = false ∧ wellFormed (.monConversionDone 8388607) = true := by decide

theorem test_wf_sets :
    wellFormed (.shadowWrite false 0x1000000 0) = false ∧ wellFormed (.sealNow 256) = false ∧ wellFormed (.sealNext 256) = false ∧
      wellFormed (.sealAt 256) = false ∧ wellFormed (.commitCtrlBadOp 5 0 0) = false ∧ wellFormed (.cancel none 8 0) = false ∧
      wellFormed (.discard none 256) = false ∧ wellFormed (.budgetGrant 3) = false ∧ wellFormed (.burstComplete 0 33) = false := by decide

theorem test_wf_units_and_channels :
    wellFormed (.pulseClose 132) = false ∧ wellFormed (.diceCollectDone 0 5 (List.replicate 321 0)) = false ∧ wellFormed (.diceCollectDone 0 0 []) = false ∧
      wellFormed (.diceAlignDone 0 0 []) = false ∧ wellFormed (.blankingEnd 64) = false ∧ wellFormed (.itrimUpdate 0 []) = false ∧
      wellFormed (.freqResult 4) = false ∧ wellFormed (.copyStart 64) = false ∧ wellFormed (.recordDone 8 (0, [])) = false ∧ wellFormed (.recordDone 0 (3, [])) = false := by decide

theorem test_wf_turns_and_ports :
    wellFormed (.ackTimeout (2 ^ 48)) = false ∧ wellFormed (.timeStepExplicit ctx (2 ^ 48) 0) = false ∧ wellFormed (.primitiveForm 0 1024) = false ∧
      wellFormed (.frameHeadReceive 8) = false ∧ wellFormed (.frameSendStart 2) = false ∧ wellFormed (.rewind none 0 65536) = false ∧
      wellFormed (.giveUp none 4) = false ∧ wellFormed (.markSet none (2 ^ 48)) = false ∧ wellFormed (.creditTimeout 2) = false := by decide

theorem test_wf_lanes :
    wellFormed (.lockLoss 18) = false ∧ wellFormed (.capabilityReceive 0 [] .none) = false ∧ wellFormed (.laneTrainDone 0 ⟨[], 0, 0⟩) = false ∧
      wellFormed (.blockReceive 0 0 (List.replicate 64 0) true .none false) = false ∧ wellFormed (.blockLostTimeout 0 0) = false ∧
      wellFormed (.blockSend 0 2048) = false ∧ wellFormed (.creditReturn 12 1) = false ∧ wellFormed (.prbsStart none 0 16) = false ∧
      wellFormed (.linkRetrain none 16) = false := by decide

theorem test_wf_engines :
    wellFormed (.dmaKick 16) = false ∧ wellFormed (.scrubStep 3 [] []) = false ∧ wellFormed (.bucketLeak 10) = false ∧
      wellFormed (.fifoFlush 4) = false ∧ wellFormed (.openHoldExpire 8) = false ∧ wellFormed (.guardDataLoss 3) = false ∧
      wellFormed (.guardHvStale 2) = false ∧ wellFormed (.guardVote []) = false ∧ wellFormed (.bootSdramTrainDone 64 0) = false ∧
      wellFormed (.jtagSecMsg (List.replicate 129 0)) = false ∧ wellFormed (.worldMapWrite 0x1000000 0) = false := by decide +kernel

theorem test_wf_payload : wellFormed (.setMode ctx (List.replicate 127 0)) = false ∧ wellFormed (.setMode ctx (List.replicate 126 0)) = true := by
  decide +kernel

/-! ### Results that the spec works out -/

/-- The check values of CRC-32C and of the I²C framing polynomial over "123456789". -/
theorem test_crcs :
    crc32c [0x31, 0x32, 0x33, 0x34, 0x35, 0x36, 0x37, 0x38, 0x39] = 0xE3069283 ∧
      crc16 [0x31, 0x32, 0x33, 0x34, 0x35, 0x36, 0x37, 0x38, 0x39] = 0x29B1 := by decide +kernel

/-- 00_scope, the worked example of R11. -/
theorem test_extend_turn : extendTurn 0x01238005 0x7FFE = 0x01237FFE := by decide

/-- 07_records, the worked example: 0x4CD0 and 0xCD0 agree in their low 12 bits. -/
theorem test_turn_head :
    (turnHead 5000400 0 false 0 0 ({ mode := 5, chip := 0x0123, gen := 0x2A, at_ := 2 } : HeadFields)).map (·.toNat) =
      [0xC0510000004C4CD0, 0x01232A8000000000, 0] := by decide +kernel

/-- 07_records: the HIT of channel 3. -/
theorem test_hit_word : (hitItem 6 51 false { turn := 5000400, ct := 2000, fb := 77 }).words = [0x000C0679A03E804D] := by decide

/-- 02_array_time: D is the mean of both ways, and θ takes LINK_ASYM off. -/
theorem test_theta :
    (let d := (State.reset.dev.setReg (R.TIME_PORT_CAL 0 2) 120).setTport 0 { ds := [6575593 + 6576377] }
    delay2 d 0 = 2 * 6575985 ∧ thetaOf d 0 6575593 = -512) := by decide +kernel

/-- 02_array_time: the servo after θ = −512 with the default gains. -/
theorem test_servo :
    servoStep 8 17 (-512 * 256) { i := 1200000 * 256 } = ({ i := 1200128 * 256, steer := 1265664 }, false) := by decide

/-- A table that reads `v` at entry k. -/
def flatTable (k v : Nat) : List Nat := List.replicate k 0 ++ [v]

/-- 04_tdc: the edge at ct 5 000 of four service chains; its stamp before SKEW is 10 238 452 fb into the turn. -/
theorem test_edge_stamp :
    (let c (k v a : Nat) : Chain := { tbl := some (flatTable k v), a := a, service := true, phase := .idle }
    let x : TUnit := { initial := false, chains := [c 197 356352 39680, c 194 352000 44544, c 196 354560 41728, c 197 357760 38400, {}] }
    edgeStamp 0 0 5000 [197, 194, 196, 197, 320] (State.reset.dev.setUnit 0 x) = some 10238452) := by decide +kernel

/-- 04_tdc: the fit of five edges of a nominally 10 MHz source. -/
theorem test_freq_fit :
    (let g : Gate := { opened := 0, closed := some 600000, kind := 0, src := 129, stopSrc := 129, pol := 0, prescale := 0, n := 5, st := 1310720, sit := 3932155, sdd := 131074 ^ 2 + 262143 ^ 2 + 393217 ^ 2 + 524286 ^ 2 }
    let d := (freqResult 0 (State.reset.dev.setGates 0 [g]))
    (d.reg (R.TDC_FR_PERIOD_HI 0)).toNat * 2 ^ 32 + (d.reg (R.TDC_FR_PERIOD_LO 0)).toNat = 0x01FFFF800000 ∧ (d.reg (R.TDC_FR_N 0)).toNat = 5) := by decide +kernel

/-- 03_front_end: amplitude 500 in range 0 is 250 fC, in units of 0.5 fC. -/
theorem test_pulse_charge : pulseCharge 0 500 = 500 ∧ pulseCharge 1 500 = 16000 := by decide

/-- The 16 samples of 10_compression's example. -/
def sixteen : List Nat := [129, 128, 130, 131, 129, 140, 190, 260, 300, 290, 250, 205, 170, 150, 138, 132]

/-- 10_compression: the data sections of the four predictors, the residuals and the predictor that is chosen. -/
theorem test_compression :
    (List.range 4).map (fun p => (dataSection p (sixteen, [])).length) = [142, 122, 113, 192] ∧ choosePred (sixteen, []) = 2 ∧
      residuals 2 129 129 none (sixteen.drop 1) = [1, 6, 1, 5, 26, 78, 40, 59, 99, 59, 9, 20, 30, 16, 12] ∧
      bestK [1, 6, 1, 5, 26, 78, 40, 59, 99, 59, 9, 20, 30, 16, 12] = 4 := by decide +kernel

/-- 11_ports: header of a first block of a frame, SEQ 517, 32 words; without the CREDIT that the example returns. -/
theorem test_block_header : (blockHdr 0 true true 517 32 State.reset.dev).toNat / 1024 * 1024 = 0xB02C0000 := by decide +kernel

/-- 01_turns: a NEXT seal at turn 70 001, ct 16 371 targets turn 70 003 and is DEFERRED. -/
theorem test_guard_window_defers :
    (let d := { State.reset.dev with clk := { State.reset.dev.clk with turn := 70001, ct := 16371 } }
    (sealPlace d .next).target = 70003 ∧ (sealPlace d .next).late = true) := by decide +kernel

/-- 01_turns: the default SDRAM budgets sum to 331, (R16). -/
theorem test_budget_sums :
    (budgetSum State.reset.dev.reg 1, (List.range 7).map fun a => bits (State.reset.dev.reg (R.TRN_BUDGET 1 a)) 9 0) = (331, [1, 0, 2, 8, 64, 256, 0]) := by decide +kernel

/-- 16_monitor: x = 1.116 729 gives 30.000 °C within the accuracy of R408. -/
theorem test_cvd :
    ((cvdSolve (10 ^ 15) 3908300000000 (-577500000) (-4183) 1116729 1000000 (3383 * 2 ^ 16) 32 minI32) - 1966080).natAbs ≤ 65 := by decide +kernel

/-- 12_mailbox: SET_MODE of the worked session, word for word. The request passes, and its response names the slot, the tag
and the turn. -/
theorem test_worked_set_mode :
    (let d := State.reset.dev.put F.TRN_STATUS_TURN_VALID 1
    let d := { d with chipId := 0x0123, clk := { d.clk with turn := 2001021 } }
    let r := serve 0x0101 { mbx := 0, seq := 7, id := 0x0123, signed := true, key := 1 } [0x30110000, 0x001E88CC, 5] { State.reset with dev := d }
    r.2 = (0, [0x00110000, 0, 0x001E88CC]) ∧ (r.1.dev.slot 0).target = 2001100 ∧ (r.1.dev.slot 0).tag = 0x11) := by decide +kernel
/-! ### Witnesses: boundaries, commits, registers, budgets -/

theorem witness_StepRunsFrontCommand : (step { State.reset with pending := [.stTick] } matches .next _) = true := by decide

theorem witness_IdleStepIsOneTick : State.reset.pending = [] ∧ (from0 fun d => { d with clk := { d.clk with ct := 16383 } }).pending = [] := by decide

theorem witness_MemoryStaysCanonical : Canonical { State.reset with mem := [(0x02000003, 1), (0x02000004, 255)] } := by
  unfold Canonical
  decide

theorem witness_OtherCommandsKeepMemory : mayStore .stTick = false ∧ mayStore .requestExecute = true := by decide

theorem witness_TurnBoundaries :
    ((from0 fun d => d.setPwr { d.pwr with porHeld := true }).dev.pwr.porHeld = true) ∧
    ((from0 fun d => d.setPwr { d.pwr with boot := .inReset }).dev.pwr.boot = .inReset ∧ State.reset.dev.pwr.porHeld = false) ∧
    ((from0 fun d => d.setPwr { d.pwr with boot := .pll }).dev.pwr.boot ≠ .inReset ∧ (from0 fun d => d.setPwr { d.pwr with boot := .pll }).dev.pwr.boot ≠ .ended ∧
      ∀ x ∈ (from0 fun d => d.setPwr { d.pwr with boot := .pll }).dev.commit.slots, x.st = .free) ∧
    State.reset.dev.pwr.boot = .ended ∧ State.reset.dev.clk.stepped = false ∧ State.reset.dev.time.toValid = false ∧ State.reset.dev.time.step = none := by decide

/-- A NOW slot, and AT and NEXT slots of the turn that follows, one of them in another turn. -/
def slotted (d : Dev) : Dev :=
  ((d.setSlot 0 { st := .next, target := 1, words := [(R.PWR_MODE_CTRL, 1)] }).setSlot 1 { st := .at, target := 2 }).setSlot 2 { st := .due, target := 1 }

theorem witness_SlotsBeforeTheBoundary :
    State.reset.dev.time.step = none ∧ (State.reset.dev.clk.ct < 16368 ∧ State.reset.dev.cap.swPend = false ∧ ∀ x ∈ State.reset.dev.commit.slots, x.st ≠ .now) ∧
    (16368 ≤ (from0 fun d => { d with clk := { d.clk with ct := 16368 } }).dev.clk.ct) ∧
    ((from0 fun d => { d with clk := { d.clk with ct := 16367 } }).dev.clk.ct < 16368) ∧
    ((from0 slotted).dev.slot 0).st = .next ∧ ((from0 slotted).dev.slot 0).late = false ∧ ((from0 slotted).dev.slot 1).st = .at ∧
    (let s := from0 fun d => { (slotted d).setSlot 7 { st := .now, pip := 16 } with clk := { d.clk with ct := 15 } }
    s.dev.commit.slots.length = 8 ∧ (∀ j, j < 8 → j ≠ 7 → s.dev.slot j ≠ s.dev.slot 7) ∧ (s.dev.slot 7).st = .now ∧ (s.dev.slot 7).late = false ∧
      (s.dev.slot 7).pip ≤ (s.dev.clk.ct / 16 + 1) * 16) := by decide

/-- MODE_CTRL is SH alone. -/
theorem witness_ShadowWriteIsDirtyNotActive :
    R.PWR_MODE_CTRL < 0x130000 ∧ State.reset.dev.secureAt (regBase + R.PWR_MODE_CTRL) true = false ∧ State.reset.dev.absentKey R.PWR_MODE_CTRL = false ∧
      dmaKey R.PWR_MODE_CTRL State.reset.dev = some R.PWR_MODE_CTRL ∧ R.PWR_MODE_CTRL ≠ R.CMP_JOB_CMD ∧ commandWrite R.PWR_MODE_CTRL 4 State.reset.dev = none ∧
      (regRow R.PWR_MODE_CTRL).any (fun r => !r.cnt && r.sh != 0 && r.rw == r.sh && r.w1c == 0 && r.w1s == 0) = true := by decide

theorem witness_CountersClearAndSaturate :
    R.MEM_COUNT 0 < 0x130000 ∧ State.reset.dev.absentKey (R.MEM_COUNT 0) = false ∧ dmaKey (R.MEM_COUNT 0) State.reset.dev = some (R.MEM_COUNT 0) ∧
      R.MEM_COUNT 0 ≠ R.CMP_JOB_CMD ∧ (∀ v, commandWrite (R.MEM_COUNT 0) v State.reset.dev = none) ∧ (regRow (R.MEM_COUNT 0)).any (·.cnt) = true ∧
      R.MEM_COUNT 0 ≠ R.MBX_COUNT 4 ∧ R.MEM_COUNT 0 ≠ R.MBX_COUNT 5 :=
  ⟨by decide, by decide, by decide, by decide, fun _ => rfl, by decide, by decide, by decide⟩

/-- One word dirty: the allowance of REWIND on fabric. -/
def dirtied (d : Dev) : Dev := shadowWrite (R.TRN_BUDGET 0 6) 0x3FF 2 d

theorem witness_SealTakesLowestFreeSlot :
    (let ok (k : SealKind) (s : State) : Bool := s.dev.commit.dirty != [] && kindStatus s.dev k == 0 && s.dev.freeSlot == some 0 && decide (0 < s.dev.commit.slots.length) &&
      (let x := sealSlot s.dev k 255
      checkSet s.dev s.dev.commit.dirty (s.dev.resultOf x) (s.dev.valueBefore x) s.dev.shadowReg (k == .now) (s.dev.modeBefore x) == 0)
    ok .now (from0 fun d => { dirtied d with clk := { d.clk with ct := 16363 } }) = true ∧ ok .now (from0 fun d => { dirtied d with clk := { d.clk with ct := 16364 } }) = true ∧
    ok .next (from0 fun d => { dirtied d with clk := { d.clk with ct := 16367 } }) = true ∧
    let at_ (n : Nat) : Bool := (let s := from0 fun d => ((dirtied d).put F.TRN_STATUS_TURN_VALID 1).setReg R.TRN_COMMIT_TARGET_LO (toWord n)
      ok (.at n) s && ((s.dev.reg R.TRN_COMMIT_TARGET_HI).toNat % 65536 * 2 ^ 32 + (s.dev.reg R.TRN_COMMIT_TARGET_LO).toNat == n))
    at_ 2 = true ∧ at_ 32767 = true) := by decide

theorem witness_NextSealInGuardWindowIsDeferred :
    (let s := from0 fun d => { dirtied d with clk := { d.clk with ct := 16368 } }
    let x := sealSlot s.dev .next 0
    16368 ≤ s.dev.clk.ct ∧ s.dev.commit.dirty ≠ [] ∧ s.dev.freeSlot = some 0 ∧ 0 < s.dev.commit.slots.length ∧ s.dev.time.step = none ∧
      checkSet s.dev s.dev.commit.dirty (s.dev.resultOf x) (s.dev.valueBefore x) s.dev.shadowReg false (s.dev.modeBefore x) = 0) := by decide

/-- A budget set over 409 pips fails its check. -/
theorem witness_RefusedCancelledDiscarded :
    (let s := from0 fun d => shadowWrite (R.TRN_BUDGET 0 6) 0x3FF 0x3FF d
    let x := sealSlot s.dev .next 1
    s.dev.commit.dirty ≠ [] ∧ checkSet s.dev s.dev.commit.dirty (s.dev.resultOf x) (s.dev.valueBefore x) s.dev.shadowReg false (s.dev.modeBefore x) = 2) ∧
    (let s := from0 slotted
    7 < s.dev.commit.slots.length ∧ s.dev.clk.ct < 16368 ∧ (s.dev.slot 0).st = .next ∧ (s.dev.slot 1).st = .at ∧ (s.dev.slot 2).st = .due ∧ (s.dev.slot 7).st = .free) ∧
    ((from0 fun d => (slotted d).setSlot 7 { st := .now }).dev.slot 7).st = .now ∧ 16368 ≤ (from0 fun d => { slotted d with clk := { d.clk with ct := 16368 } }).dev.clk.ct ∧
    Accepted 0x0103 ctx [toWord 1] (from0 slotted) ∧ Accepted 0x0104 ctx [] (from0 slotted) ∧ (from0 slotted).dev.mbx.openSet = none ∧
    (Accepted 0x0104 ctx [] (from0 fun d => (slotted d).setMbx { d.mbx with openSet := some (ownerOf ctx, 0) })) :=
  ⟨by decide, by decide, by decide, by decide, acc (by decide +kernel), acc (by decide +kernel), by decide, acc (by decide +kernel)⟩

theorem witness_SetsWithAbsentUnitsAreRefused :
    (let s := from0 fun d => { d.put F.PWR_FEATURES_DN_PORTS 0 with commit := { d.commit with dirty := [R.CAS_PORT_CFG 0] } }
    s.dev.is F.TRN_STATUS_DIRTY_OVF = false ∧ s.dev.commit.dirty.length ≤ 512 ∧ R.CAS_PORT_CFG 0 ∈ s.dev.commit.dirty ∧
      s.dev.absentKey (R.CAS_PORT_CFG 0) = true) := by decide

theorem witness_WritesThatMissTheirRegister :
    State.reset.dev.secureAt (0x10000000 + 0x18000) true = true ∧ State.reset.dev.secureAt (0x10000000 + 0x12FFFC) true = true ∧
      State.reset.dev.secureAt 0x10000000 true = false ∧
    (let k := R.TRN_COMMIT_TARGET_LO
    k < 0x130000 ∧ State.reset.dev.secureAt (0x10000000 + k) true = false ∧ State.reset.dev.absentKey k = false ∧ dmaKey k State.reset.dev = some k ∧ k ≠ R.CMP_JOB_CMD ∧
      commandWrite k 5 State.reset.dev = none ∧ (regRow k).any (fun r => r.sh == 0 && !r.cnt) = true) := by decide

theorem witness_ReservedOffsetsReadZero :
    (∀ b, b ∈ [2, 5, 7, 8, 9, 10, 11, 16, 18] → regRow (b * 65536 + 0xFFFC) = none ∧ (b * 65536 + 0xFFFC) / 65536 = b) ∧
    regRow 0x20DFC = none ∧ State.reset.dev.secureAt 0x10020DFC true = false := by decide

/-- Windows with something in each: a stamp, selected entries, a fault. -/
theorem witness_ReadWindows :
    (from0 fun d => { d with time := { d.time with txts := [[(1, { ct := 3, fb := 2047 })], [], [], []] } }).dev.time.txts.getD 0 [] = [(1, { ct := 3, fb := 2047 })] ∧
    (State.reset.dev.get F.TDC_TABLE_SEL_KIND = 0 ∧ State.reset.dev.get F.TDC_TABLE_SEL_UNIT ≤ 131 ∧ State.reset.dev.get F.TDC_TABLE_SEL_CHAIN ≤ 4 ∧ State.reset.dev.get F.TDC_TABLE_SEL_ENTRY < 320) ∧
    (let s := from0 fun d => (d.put F.SE_LIN_SEL_BANK 1).put F.SE_LIN_SEL_ENTRY 64
    s.dev.get F.SE_LIN_SEL_ENTRY < linSize (s.dev.get F.SE_LIN_SEL_KIND) ∧ s.dev.get F.SE_LIN_SEL_BANK ≠ s.dev.get F.SE_CFG_LIN_BANK ∧ bits (0xFFFF : Word) 15 0 ≠ 0) ∧
    (let s := from0 fun d => ((d.put F.CAS_ADJ_SEL_BANK 1).put F.CAS_ADJ_SEL_PIXEL 575).put F.CAS_ADJ_SEL_WORD 1
    s.dev.get F.CAS_ADJ_SEL_PIXEL < 576 ∧ adjProtected (s.dev.get F.CAS_ADJ_SEL_BANK) s.dev = false ∧ s.dev.get F.CAS_ADJ_SEL_WORD = 1) ∧
    (from0 fun d => d.setFlt { d.flt with q := [(1, 2)] }).dev.flt.q = (1, 2) :: [] ∧ State.reset.dev.flt.q = [] := by decide

theorem witness_BudgetBursts :
    (let s := from0 fun d => d.setBudAct 0 2 { allow := 1, want := 1 }
    2 < s.dev.bud.burst.length ∧ s.dev.bud.burst.getD 0 none = none ∧ (∀ b, b < 7 → ((s.dev.budAct 0 b).want = 0 ∨ (s.dev.budAct 0 b).allow ≠ 0)) ∧
      (robinOrder (s.dev.bud.last.getD 0 6)).find? (fun b => (s.dev.budAct 0 b).want != 0 && (s.dev.budAct 0 b).allow != 0 && s.dev.budgetPips 0 b != 0) = some 2) ∧
    (from0 fun d => { d with bud := { d.bud with burst := [none, none, some { act := 6, ct := 9 }] } }).dev.bud.burst.getD 2 none = some { act := 6, ct := 9 } ∧
    ({ act := 6, ct := 9 } : Burst).left = none ∧ State.reset.dev.sec.chunks = [] := by decide
/-! ### Witnesses: messages and mailboxes -/

theorem witness_MessagesThatRead :
    Accepted 0x0004 ctx [] State.reset ∧ Accepted 0x0004 ctx (List.replicate 126 5) State.reset ∧
    (Accepted 0x0002 ctx [] State.reset ∧ ∃ h, State.reset.dev.runHeader 2 = some h) ∧ Accepted 0x0005 ctx [0] State.reset ∧
    Accepted 0x0105 ctx [] State.reset ∧ Accepted 0x0402 ctx [] State.reset ∧ Accepted 0x0501 ctx [] State.reset ∧ Accepted 0x0607 ctx [] State.reset ∧
    Accepted 0x0803 ctx [63] State.reset ∧ Accepted 0x0D03 ctx [] State.reset ∧ Accepted 0x0604 ctx [0xFFFF, 5] State.reset ∧
    (Accepted 0x0702 ctx [11] State.reset ∧ State.reset.dev.absentKey (R.LNK_PORT_CFG 11) = false) ∧
    (Accepted 0x0302 ctx [0x5C28] State.reset ∧ Accepted 0x0302 ctx [0x5D28] State.reset) ∧
    (Accepted 0x0202 ctx [0x18003F01] State.reset ∧ bits (0x18003F01 : Word) 31 27 = 3 ∧ bits (0x18003F01 : Word) 26 23 = 0 ∧ bits (0x18003F01 : Word) 6 0 ≠ 0 ∧
      bits (0x18003F01 : Word) 13 8 + bits (0x18003F01 : Word) 6 0 ≤ 64) :=
  ⟨acc (by decide +kernel), acc (by decide +kernel), ⟨acc (by decide +kernel), _, rfl⟩, acc (by decide +kernel), acc (by decide +kernel), acc (by decide +kernel), acc (by decide +kernel), acc (by decide +kernel), acc (by decide +kernel),
    acc (by decide +kernel), acc (by decide +kernel), ⟨acc (by decide +kernel), by decide +kernel⟩, ⟨acc (by decide +kernel), acc (by decide +kernel)⟩, acc (by decide +kernel), by decide +kernel⟩

/-- A queue that holds turn 5. -/
def holds5 (st : QState) (d : Dev) : Dev := d.setQueue 5 { st := st, turn := 5 }

theorem witness_GetQueueHeld : ((from0 (holds5 .closed)).dev.holding 5).isSome = true ∧ (State.reset.dev.holding 5).isSome = false := by decide +kernel

theorem witness_ConfiguringMessages :
    (cbOk [0, 0] = true ∧ cbKind [0, 0] = 0 ∧ setBusy (ownerOf ctx) State.reset.dev = false) ∧ Accepted 0x0101 ctx [0, 0, 4] State.reset ∧
    (Accepted 0x0106 ctx [0, 0, 0xB00003FF] State.reset ∧ (([0, 0, 0xB00003FF] : List Word).drop 2).all (fun e => bits e 31 30 != 3 && bits e 29 27 != 7) = true) ∧
    (Accepted 0x0201 ctx [0, 0, 0xFFFFFFFF, 1, 0x18000000, 0xFFF, 5] State.reset ∧ (planChannel [0, 0, 0xFFFFFFFF, 1, 0x18000000, 0xFFF, 5]).status = 0) ∧
    Accepted 0x0203 ctx [0, 0, 0xFFFF, 0xFFFFFFFF, 0x3FFF, 0x8000FFFF] State.reset ∧
    (Accepted 0x0A03 ctx [0, 0, 0x04220001] State.reset ∧ (([0, 0, 0x04220001] : List Word).drop 2).all (fun e => (faultKind (bits e 31 26)).isSome && bits e 7 0 != 0) = true) ∧
    (Accepted 0x0C02 ctx [0, 0, 0, 1] State.reset ∧ (wordPairs (([0, 0, 0, 1] : List Word).drop 2)).all (fun p => offsetStatus (bits p.1 23 0) true State.reset.dev == 0) = true) :=
  ⟨by decide +kernel, acc (by decide +kernel), ⟨acc (by decide +kernel), by decide +kernel⟩, ⟨acc (by decide +kernel), by decide +kernel⟩, acc (by decide +kernel), ⟨acc (by decide +kernel), by decide +kernel⟩, acc (by decide +kernel), by decide +kernel⟩

/-- A set of one word, opened by mailbox 0. -/
def opened (d : Dev) : Dev := (dirtied d).setMbx { d.mbx with openSet := some (0, 4095) }

theorem witness_SealMessage :
    Accepted 0x0102 ctx [0x20030000, 0] (from0 opened) ∧ cbOk [0x20030000, 0] = true ∧ cbKind [0x20030000, 0] = 2 ∧
    (from0 opened).dev.mbx.openSet = some (ownerOf ctx, 4095) ∧
    (sealSet .next (cbTag [0x20030000, 0]) ((from0 opened).dev.setMbx { (from0 opened).dev.mbx with openSet := some (ownerOf ctx, 0) })).1.status = 0 :=
  ⟨acc (by decide +kernel), by decide +kernel⟩

theorem witness_DenialsAndResponses :
    State.reset.dev.horefRuns = true ∧ State.reset.dev.sec.halted = false ∧ accessStatus 0x0003 ctx (inMode 4 State.reset.dev) = 3 ∧
    (6 ≤ ({ ctx with mbx := 7 } : MsgCtx).mbx ∧ paySpec 0x0004 ≠ none ∧ State.reset.dev.is F.PWR_STATUS_RECOVERY = false) ∧
    (needsSignature 0x0B02 = true ∧ ({ mbx := 7 } : MsgCtx).signed = false) ∧ (List.replicate 128 (0 : Word)).length ≤ 128 ∧
    State.reset.dev.is F.MEM_FLIP_CTRL_ARM = false ∧
    (let d := (State.reset.dev.put F.MEM_FLIP_CTRL_ARM 1).put F.MEM_FLIP_CTRL_FAMILY 3
    d.is F.MEM_FLIP_CTRL_ARM = true ∧ d.get F.MEM_FLIP_CTRL_FAMILY = 3 ∧ d.is F.MEM_FLIP_CTRL_ADDR_MATCH = false) := by decide +kernel

/-- A PING of no words for mailbox 5, and I²C switched on. -/
def pingWords : List Word := [0x00040100, 0x0000_0500]
/-- I²C on. -/
def withI2c (d : Dev) : Dev := d.put F.MBX_I2C_CFG_EN 1

theorem witness_RequestArrives :
    (let s := from0 withI2c
    wordsOfBytes [0, 4, 1, 0, 0, 0, 5, 0] = pingWords ∧ hdrMbx (wordAt pingWords 1) = 5 ∧ 2 ≤ pingWords.length ∧ pingWords.length ≤ 128 ∧ s.dev.i2cOn = true ∧ s.dev.mbxState 5 = 0 ∧ s.dev.is F.MEM_FLIP_CTRL_ARM = false) ∧
    (let s := from0 fun d => { withI2c d with chipId := 0x1234 }
    let core : List Word := [0x00040100, 0x0600]
    let vl1 : List Word := [0x00040100, 0x12340500]
    hdrMbx (wordAt core 1) = 6 ∧ s.dev.mbxState 6 = 0 ∧ hdrMbx (wordAt vl1 1) = 5 ∧ hdrChip (wordAt vl1 1) = s.dev.chipId ∧ s.dev.chipId ≠ 0 ∧
      s.dev.mbxState 5 = 0 ∧ s.dev.horefRuns = true ∧ s.dev.is F.MEM_FLIP_CTRL_ARM = false) ∧
    (from0 fun d => d.put F.MBX_I2C_CFG_EN 0).dev.i2cOn = false ∧ (from0 fun d => setMbxState 5 1 (withI2c d)).dev.mbxState 5 = 1 ∧
    (from0 fun d => setMbxState 5 2 (withI2c d)).dev.mbxState 5 = 2 := by decide +kernel

/-- A response of one word stands in mailbox 7, asked for over I²C, and one of UA in mailbox 0. -/
def answered (d : Dev) : Dev := respond 7 [0x00040101, 0x8700, 9] (setMbxPath 7 2 (respond 0 [0x00040100, 0x8001] d))

theorem witness_ResponseLeaves :
    (let s := from0 answered
    bit (s.dev.reg R.MBX_DOORBELL_OUT) 7 = true ∧ 7 ∉ s.dev.mbx.remains ∧ (∀ f ∈ s.dev.mbx.forward, f.1 ≠ 7) ∧ 2 ≤ s.dev.mbxPath 7 ∧
    bit (s.dev.reg R.MBX_DOORBELL_OUT) 0 = true ∧ s.dev.mbxPath 0 < 2 ∧ bit (s.dev.reg R.MBX_DOORBELL_OUT) 1 = false) := by decide +kernel

/-- The first byte of mailbox m carries a mark. -/
def marked (m : Nat) (d : Dev) : Dev := { d with ram := { d.ram with poison := [unitKey 3 (512 * m)] } }

/-- A response that can be read, and one whose first byte is marked. -/
theorem witness_ResponseRead :
    mbxCheck 7 (heldWords 7 (from0 answered).dev).length (from0 answered).dev = (false, (from0 answered).dev) ∧
    ((from0 fun d => marked 0 (answered d)).dev.mbxPath 0 < 2 ∧ bit ((from0 fun d => marked 0 (answered d)).dev.reg R.MBX_DOORBELL_OUT) 0 = true ∧
      (mbxCheck 0 3 (from0 fun d => marked 0 (answered d)).dev).1 = true) := ⟨rfl, by decide +kernel⟩

/-- A request waits in mailbox 5. -/
def waiting (d : Dev) : Dev := arrive 2 5 pingWords (withI2c d)

theorem witness_RequestIsAnswered :
    (let s := from0 waiting
    let d0 := setBell R.MBX_DOORBELL_IN 5 false (setMbxState 5 2 (s.dev.setMbx { s.dev.mbx with order := [] }))
    let w0 := d0.reg (ramKey 5 0)
    let w1 := d0.reg (ramKey 5 1)
    let ws := ramWords 5 (2 + min 126 (hdrLen w0)) d0
    s.dev.horefRuns = true ∧ s.dev.sec.halted = false ∧ s.dev.executing = false ∧ s.dev.mbx.order = 5 :: [] ∧
      headerBad (d0.mbxPath 5) (kget s.dev.mbx.got 5 0) w0 w1 = false ∧ wordAt ws 0 = w0 ∧ wordAt ws 1 = w1 ∧ hdrSig w1 = false ∧
      d0.mbxPath 5 = 2 ∧ hdrChip w1 = 0 ∧ hdrId w0 < 0x8000 ∧ hdrId w0 = 4 ∧ accessStatus 4 (ctxOf 5 w0 w1 (ws.drop 2)) d0 = 0) ∧
    (from0 (inMode 11)).dev.horefRuns = false ∧ State.reset.dev.mbx.order = [] ∧ (from0 fun d => setMbxState 1 2 d).dev.executing = true ∧
    (let s := from0 fun d => arrive 2 5 [0x00040102, 0x0500] (withI2c d)
    let d0 := setBell R.MBX_DOORBELL_IN 5 false (setMbxState 5 2 (s.dev.setMbx { s.dev.mbx with order := [] }))
    let w0 := d0.reg (ramKey 5 0)
    let w1 := d0.reg (ramKey 5 1)
    let ws := ramWords 5 (2 + min 126 (hdrLen w0)) d0
    s.dev.mbx.order = 5 :: [] ∧ headerBad (d0.mbxPath 5) (kget s.dev.mbx.got 5 0) w0 w1 = true ∧ wordAt ws 0 = w0 ∧ wordAt ws 1 = w1) := by decide +kernel

/-- Its words pass the check, or its first byte is marked. -/
theorem witness_RequestRead :
    (let s := from0 waiting
    let d0 := setBell R.MBX_DOORBELL_IN 5 false (setMbxState 5 2 (s.dev.setMbx { s.dev.mbx with order := [] }))
    mbxCheck 5 2 d0 = (false, d0)) ∧
    (let s := from0 fun d => marked 5 (waiting d)
    let d0 := setBell R.MBX_DOORBELL_IN 5 false (setMbxState 5 2 (s.dev.setMbx { s.dev.mbx with order := [] }))
    s.dev.mbx.order = 5 :: [] ∧ (mbxCheck 5 2 d0).1 = true) := ⟨rfl, by decide +kernel⟩

/-- A handler of mailbox 3 that runs, or is late. -/
def handled (late : Bool) (d : Dev) : Dev :=
  d.setMbx { d.mbx with handlers := [{ mbx := 3, id := 0x8001, seq := 0, hdrMbx := 3, stamp := false, late := late, dirty := [] }] }

/-- Which handlers user firmware registers is a value of Config: with no user image none is called. -/
theorem witness_UserHandlers :
    State.reset.dev.handles 0x8000 = false ∧ ((from0 (handled false)).dev.mbx.handlers.map fun h => (h.mbx, h.late, h.dirty)) = [(3, false, (from0 (handled false)).dev.commit.dirty)] ∧
    ((from0 (handled true)).dev.mbx.handlers.map fun h => (h.mbx, h.late, h.dirty)) = [(3, true, (from0 (handled true)).dev.commit.dirty)] := by decide +kernel

/-- The same where an image runs and has the handler. -/
theorem witness_UserHandlersCalled (h : Config.hasHandler 0x8001 = true) :
    (let s := from0 fun d => d.setSec { d.sec with run := [some 0, some 0, some 0] }
    s.dev.handles 0x8001 = true ∧ s.dev.mbx.handlers = []) := by
  refine ⟨?_, rfl⟩
  unfold Dev.handles
  rw [h]
  rfl

/-- An interval of event bit (18, 31), of age and count as given. -/
def interval (age count : Nat) (d : Dev) : Dev :=
  { d with ev := { d.ev with open_ := [{ evt := 18 * 32 + 31, age := age, count := count, first := {}, firstLt := 0, detail := [] }] } }

theorem witness_HorefTimesAndI2cReads :
    (from0 fun d => d.setMbx { d.mbx with openSet := some (5, 4096) }).dev.mbx.openSet = some (5, 4096) ∧ (from0 opened).dev.mbx.openSet = some (0, 4095) ∧
    ((from0 (interval 256 0)).dev.ev.open_.map fun x => (x.evt, x.age, x.count)) = [(18 * 32 + 31, 256, 0)] ∧
    ((from0 (interval 256 1)).dev.ev.open_.map fun x => (x.evt, x.age, x.count)) = [(18 * 32 + 31, 256, 1)] ∧ (from0 (interval 256 1)).dev.ev.i2c.length < 64 ∧
    (let s (got : Nat) := from0 fun d => (d.setBudAct 0 2 { got := got }).setMbx { d.mbx with telem := [{ id := 0x3FFE, period := 1, phase := 0, toMbx := false, offsets := [], waiting := true }] }
    ((s 16).dev.mbx.telem.map fun t => (t.id, t.waiting, t.toMbx)) = [(0x3FFE, true, false)] ∧ 16 ≤ ((s 16).dev.budAct 0 2).got ∧
      ((s 15).dev.mbx.telem.map fun t => (t.id, t.waiting)) = [(0x3FFE, true)] ∧ ((s 15).dev.budAct 0 2).got < 16) ∧
    ((from0 fun d => setMbxState 5 3 (withI2c d)).dev.i2cOn = true ∧ (from0 fun d => setMbxState 5 3 (withI2c d)).dev.mbxState 5 = 3) ∧
    (from0 fun d => { withI2c d with ev := { d.ev with i2c := [[1], [2]] } }).dev.ev.i2c = [1] :: [[2]] := by decide +kernel

theorem witness_MessagesOfHorefItself :
    (Accepted 0x0003 ctx [0xFFFE] State.reset ∧ bits (0xFFFE : Word) 15 0 ≠ 0 ∧ bits (0xFFFE : Word) 15 0 ≠ 0xFFFF) ∧
    (Accepted 0x0003 ctx [0xFFFF] State.reset ∧ Accepted 0x0003 ctx [0] State.reset) ∧
    (Accepted 0x0D01 ctx [0x3FFE, 0, 7, 0] State.reset ∧ bits (0x3FFE : Word) 13 0 ≠ 0x3FFF ∧ bits (0 : Word) 15 0 = 0) ∧
    (Accepted 0x0D01 ctx [0x3FFE, 0xFFFF, 0xFFFE, 1, 0x11000] State.reset ∧ bits (0xFFFE : Word) 15 0 < bits (0xFFFF : Word) 15 0 ∧
      (([0x3FFE, 0xFFFF, 0xFFFE, 1, 0x11000] : List Word).drop 4).all (fun o => offsetStatus (bits o 23 0) false State.reset.dev == 0) = true ∧ State.reset.dev.mbx.telem = []) ∧
    (Accepted 0x0C01 ctx [0x10FE10, 124] State.reset ∧ bits (0x10FE10 : Word) 23 0 % 4 = 0 ∧ bits (0x10FE10 : Word) 23 0 + 4 * bits (124 : Word) 6 0 ≤ 0x130000 ∧
      Accepted 0x0C01 ctx [0, 1] State.reset ∧ ∀ j, j < 1 → State.reset.dev.secureAt (regBase + 0 + 4 * j) false = false) ∧
    (Accepted 0x0303 ctx [0xE0E7FC78] State.reset ∧ bits (0xE0E7FC78 : Word) 6 0 ≤ 120 ∧ bits (0xE0E7FC78 : Word) 29 22 = 131 ∧ bits (0xE0E7FC78 : Word) 21 19 = 4) ∧
    (let s := from0 fun d => (asConc 8 d).put (F.CAS_PORT_STATUS_STATE 7) 3
    let inner : List Word := [0x00040102, 0x0500, 1, 2]
    Accepted 0x0601 ctx (7 :: inner) s ∧ hdrLen (wordAt inner 0) ≤ 123 ∧ inner.length = hdrLen (wordAt inner 0) + 2 ∧ 7 < s.dev.get F.PWR_FEATURES_DN_PORTS ∧
      s.dev.isConc = true ∧ s.dev.portOpen 7 = true) :=
  ⟨⟨acc (by decide +kernel), by decide +kernel⟩, ⟨acc (by decide +kernel), acc (by decide +kernel)⟩, ⟨acc (by decide +kernel), by decide +kernel⟩, ⟨acc (by decide +kernel), by decide +kernel⟩,
    ⟨acc (by decide +kernel), by decide +kernel, by decide +kernel, acc (by decide +kernel), by decide +kernel⟩, ⟨acc (by decide +kernel), by decide +kernel⟩, acc (by decide +kernel), by decide +kernel⟩

/-- A message of two words on each of ports 0 and 9. -/
def queued (chip : Nat) (d : Dev) : Dev :=
  let m : List (List Word) := [[0x00040100, toWord (chip * 65536 + 5 * 256)]]
  (d.setPort 0 { d.port 0 with msgs := m }).setPort 9 { d.port 9 with msgs := m }

theorem witness_MessagesAreRouted :
    (State.reset.dev.port 1).msgs = [] ∧
    (let s := from0 fun d => { queued 0x1234 d with chipId := 0x1234 }
    s.dev.horefRuns = true ∧ hdrChip (wordAt ((s.dev.port 0).msgs.headD []) 1) = s.dev.chipId ∧ s.dev.chipId ≠ 0 ∧ hdrMbx (wordAt ((s.dev.port 0).msgs.headD []) 1) = 5) ∧
    (let s := from0 (queued 0x1234)
    hdrChip (wordAt ((s.dev.port 0).msgs.headD []) 1) ≠ s.dev.chipId ∧ hdrChip (wordAt ((s.dev.port 0).msgs.headD []) 1) ≠ 0xFFFF ∧ s.dev.isConc = false) ∧
    (let s (st n : Nat) := from0 fun d => { (queued 0x1234 (asConc 8 d)).put (F.CAS_PORT_STATUS_STATE 7) st |>.put (F.CAS_PORT_STATUS_LEARNED_ID 7) 0x1234 with
      out := List.replicate n { dst := .active, words := [], relay := some 7 } }
    let taken (d : Dev) : Dev := d.setPort 9 { d.port 9 with msgs := [] }
    let room (d : Dev) : Nat := (d.out.filter (fun o => o.relay == some 7)).length
    (s 3 0).dev.isConc = true ∧ routeOf 0x1234 ((s 3 0).dev.setPort 0 { (s 3 0).dev.port 0 with msgs := [] }) = some 7 ∧
      ((s 3 7).dev.port 9).msgs.length = 1 ∧ (taken (s 3 7).dev).portOpen 7 = true ∧ room (s 3 7).dev < 8 ∧
      (taken (s 3 8).dev).portOpen 7 = true ∧ 8 ≤ room (s 3 8).dev ∧
      (taken (s 4 0).dev).portOpen 7 = false ∧ (taken (s 4 0).dev).portState 7 ≠ 5 ∧ (taken (s 5 0).dev).portState 7 = 5 ∧ hdrRsp (0x8000 : Word) = true) := by decide +kernel

/-! ### Witnesses: array time, front end, TDC -/

/-- A unit with chain 0 in service, its table one entry long. -/
def served (u : Nat) (d : Dev) : Dev :=
  d.setUnit u ((({ initial := false } : TUnit).setChain 0 { tbl := some [0], service := true, phase := .idle }))

/-- Port TPA up, exchanged and LOCKED. -/
def locked (d : Dev) : Dev :=
  (((((served 130 d).put (F.LNK_LANE_STATUS_STAGE 16) 5).put (upField 0) 1).put (delayValidField 0) 1).put F.TIME_STATUS_AT_STATE 2).put F.TRN_STATUS_TURN_VALID 1

/-- The beacon of turn n, master 1, that leaves lag coarse ticks late, with its CRC. -/
def beacon (n lag : Nat) : List Byte :=
  let b := (octets 6 n) ++ [8] ++ octets 2 lag
  b ++ [BitVec.ofNat 8 (crc8 b)]

/-- A beacon that fits, one beyond the jump limit, and one with a wrong CRC. -/
theorem witness_BeaconsAndSteering :
    (let s := from0 locked
    let lag := bytesNat ((beacon 0 0).drop 7 |>.take 2) % 8192
    (beacon 0 0).length = 10 ∧ crc8 ((beacon 0 0).take 9) = ((beacon 0 0).getD 9 0).toNat ∧ lag < 5120 ∧ s.dev.get (F.LNK_LANE_STATUS_STAGE 16) = 5 ∧
      unitInitial 130 s.dev = false ∧ edgeStamp 130 s.dev.clk.turn s.dev.clk.ct [0] s.dev = some 0 ∧ s.dev.turnValid = true ∧ s.dev.is (upField 0) = true ∧ s.dev.is (delayValidField 0) = true ∧
      0 < s.dev.time.ports.length ∧ s.dev.atSrc = 0 ∧ s.dev.atState = 2 ∧ ((thetaOf s.dev 0 0).natAbs : Int) ≤ s.dev.jumpLimit ∧
      s.dev.jumpLimit < ((thetaOf s.dev 0 (-(2 ^ 25 : Nat))).natAbs : Int)) ∧
    crc8 (List.replicate 9 0) ≠ (1 : Byte).toNat ∧
    (from0 fun d => { d with time := { d.time with newSteer := some 5 } }).dev.time.newSteer = some 5 ∧
    16 ≤ ((from0 fun d => d.setBudAct 2 6 { got := 16 }).dev.budAct 2 6).got ∧ ((from0 fun d => d.setBudAct 2 6 { got := 15 }).dev.budAct 2 6).got < 16 := by decide +kernel

/-- A Delay_Resp of domain 0 with sequenceId 0, 44 octets and its CRC. -/
def delayResp : List Byte :=
  let m : List Byte := 0x19 :: 0x12 :: (List.replicate 42 0)
  m ++ octets 4 (crc32c m)

/-- An exchange that waits since boundary 0, t boundaries later. -/
def exchanging (t : Nat) (d : Dev) : Dev :=
  ({ d with clk := { d.clk with bounds := t } }.put (upField 1) 1).setTport 1 { exch := [{ seq := 0, turn := 0, t3c := 5, diff := some 7 }] }

theorem witness_DelayExchange :
    (let s := from0 fun d => (d.put (F.LNK_LANE_STATUS_STAGE 17) 5)
    1 < s.dev.time.ports.length ∧ exchangeTurn s.dev = true ∧ s.dev.get (F.LNK_LANE_STATUS_STAGE (16 + 1)) = 5 ∧ s.dev.is F.TIME_CTRL_EXCH_TXTS = false) ∧
    (let s := from0 (exchanging 3)
    let m := delayResp.take (delayResp.length - 4)
    34 ≤ delayResp.length - 4 ∧ m.getD 1 0 = 0x12 ∧ crc32c m = bytesNat (delayResp.drop (delayResp.length - 4)) ∧ bytesNat (m.drop 4 |>.take 1) = s.dev.get F.TIME_CTRL_DOMAIN ∧
      (m.getD 0 0).toNat % 16 = 9 ∧ ((s.dev.tport 1).exch.map fun e => (e.seq, e.diff)) = [(bytesNat (m.drop 30 |>.take 2), some 7)] ∧ s.dev.is (upField 1) = true ∧
      ((s.dev.tport 1).exch.map fun e => decide (s.dev.clk.bounds < e.turn + 4)) = [true]) ∧
    (((from0 (exchanging 4)).dev.tport 1).exch.map fun e => decide (e.turn + 4 ≤ (from0 (exchanging 4)).dev.clk.bounds)) = [true] := by decide +kernel

/-- A pending step to turn 2, due or not. -/
def stepPending (due : Bool) (d : Dev) : Dev :=
  { d.put F.TRN_STATUS_TURN_VALID 1 with time := { d.time with step := some { mode := .explicit, n := 2, delta := some 5, due := due } } }

/-- Steps to the first and the last turn in range, of the largest and the smallest δ. -/
theorem witness_TimeStepRequests :
    (let s := from0 fun d => d.put F.TRN_STATUS_TURN_VALID 1
    (Accepted 0x0502 ctx (0 :: hiLo 2 ++ hiLo (ofSigned 64 (-(2 ^ 31 * 33554432)))) s ∧ Accepted 0x0502 ctx (0 :: hiLo 32767 ++ hiLo (ofSigned 64 ((2 ^ 31 - 1) * 33554432 + 32767))) s ∧
      Accepted 0x0502 ctx (toWord (1 + 1) :: hiLo 32767 ++ [0, 0]) s) ∧ s.dev.turnValid = true ∧ s.dev.clk.turn + 2 ≤ 2 ∧ 32767 ≤ s.dev.clk.turn + 32767 ∧ s.dev.time.step = none) ∧
    (Accepted 0x0502 ctx (0 :: hiLo 3 ++ hiLo 0) (from0 (stepPending false)) ∧ (from0 (stepPending false)).dev.time.step.isSome = true) ∧
    (let last (n : Nat) (d : Dev) : Dev := { stepPending false d with clk := { d.clk with ct := 16368, turn := n } }
    Accepted 0x0502 ctx [3, 0, 0, 0, 0] (from0 (stepPending false)) ∧ Accepted 0x0502 ctx [3, 0, 0, 0, 0] (from0 (stepPending true)) ∧
      Accepted 0x0502 ctx [3, 0, 0, 0, 0] (from0 (last 1)) ∧ (from0 (stepPending false)).dev.clk.ct < 16368 ∧ 16368 ≤ (from0 (last 1)).dev.clk.ct ∧
      (from0 (last 1)).dev.time.step.map (·.n) = some (((from0 (last 1)).dev.clk.turn + 1) % 2 ^ 48)) ∧
    (let s (done : Bool) := from0 fun d => { d with clk := { d.clk with stepped := true, stepF := -1, stretchDone := done } }
    (s false).dev.clk.stepped = true ∧ (s false).dev.clk.stepF < 0 ∧ (s false).dev.clk.stretchDone = false ∧ (s true).dev.clk.stretchDone = true ∧
      State.reset.dev.clk.stepped = false) :=
  ⟨⟨⟨acc (by decide +kernel), acc (by decide +kernel), acc (by decide +kernel)⟩, by decide +kernel⟩, ⟨acc (by decide +kernel), by decide +kernel⟩,
    ⟨acc (by decide +kernel), acc (by decide +kernel), acc (by decide +kernel), by decide +kernel⟩, by decide +kernel⟩

/-- Channel 63 on, its units in service. -/
def edged (d : Dev) : Dev := served 126 (served 127 (d.put (F.AFE_CH_CFG_EN 63) 1))

theorem witness_TestPulsesAndEdges :
    State.reset.dev.tpOccurs State.reset.dev.clk.turn = false ∧
    (let s := from0 fun d => (inMode 4 (d.put F.AFE_TP_CTRL_ENABLE 1)).put F.AFE_TP_POS_CT 16383
    s.dev.tpOccurs s.dev.clk.turn = true ∧ tpMode s.dev.mode = true ∧ s.dev.ctOccurs (s.dev.get F.AFE_TP_POS_CT) = true ∧ s.dev.afe.tpFired = false) ∧
    (State.reset.dev.comparatorOn 63 0 16384 = false ∧ State.reset.dev.comparatorOn 63 0 0 = false) ∧
    (from0 fun d => (edged d).setAfeCh 63 { blank := (0, 16384) }).dev.comparatorOn 63 0 16383 = false ∧
    (let s := from0 edged
    s.dev.comparatorOn 63 s.dev.clk.turn (s.dev.clk.ctBase + 16384 : Nat) = true ∧ edgeStamp 127 s.dev.clk.turn 16383 [0] s.dev = some 33552384 ∧
      edgeStamp 126 s.dev.clk.turn 0 [0] s.dev = some 0 ∧ turnOfFb 33552384 = 0 ∧ s.dev.comparatorOn 63 0 (s.dev.periodOf 33552384) = true ∧
      (s.dev.unit 127).lastLead = none ∧ (s.dev.unit 127).lastTrail = none ∧ edgeStamp 127 s.dev.clk.turn 16383 [320] s.dev = none ∧
      s.dev.comparatorOn 63 s.dev.clk.turn (s.dev.clk.ctBase + 16383 : Nat) = true) ∧
    (let p : OpenPulse := { lead := 0, shift := 0, trail := none, trailLost := false, uncal := false, edges := false, emits := true, leadSent := false, longDone := false }
    let s := from0 fun d => setPulse 127 (some p) (edged d)
    edgeStamp 127 s.dev.clk.turn 16383 [320] s.dev = none ∧ s.dev.comparatorOn 63 s.dev.clk.turn (s.dev.clk.ctBase + 16383 : Nat) = true ∧
      ((s.dev.unit 127).pulse).map (·.trail) = some none) ∧
    (let s (y : Int) := from0 fun d => (edged d).setUnit 127 { (edged d).unit 127 with lastLead := some y, lastTrail := some y }
    edgeStamp 127 (s 0).dev.clk.turn 16383 [0] (s (33552384 - 2097)).dev = some 33552384 ∧ (s 0).dev.skewAt 0 63 = 0 ∧
      ((s (33552384 - 2097)).dev.unit 127).lastLead = some (33552384 - 2097) ∧ ((s 33552385).dev.unit 127).lastTrail = some 33552385) ∧
    (33552384 : Int) ≤ 33552384 - 2097 + 2097 ∧ (33552384 : Int) - 2098 + 2097 < 33552384 ∧ (33552384 : Int) < 33552385 := by decide +kernel

/-- An open pulse that began at 0. -/
def pulseAt (trail : Option Int) (lost edges emits : Bool) : OpenPulse :=
  { lead := 0, shift := 0, trail := trail, trailLost := lost, uncal := false, edges := edges, emits := emits, leadSent := false, longDone := false }

theorem witness_PulsesPair :
    (let s := from0 fun d => (d.put (F.AFE_CH_CFG_EN 63) 1).put (F.TDC_CH_CFG_HIGH_EN 63) 1
    (s.dev.unit 127).pulse = none ∧ (s.dev.unit 127).lastLead = none ∧ (pairCfg 127 0 s.dev).1 = true) ∧
    (∀ p ∈ [pulseAt (some 787) false false true, pulseAt (some 787) false false false, pulseAt (some 786) false false true, pulseAt none true false true,
        pulseAt none false false true, pulseAt none false true true],
      ((from0 fun d => setPulse 131 (some p) d).dev.unit 131).pulse = some p) := by decide +kernel

/-- Chain 4 of unit 131 in a phase, with what the phases before it left. -/
def dicing (ph : DicePhase) (lost : Nat) (d : Dev) : Dev :=
  d.setUnit 131 (({} : TUnit).setChain 4 { phase := ph, overrun := lost, hist := some (List.replicate 320 0), new := some (List.replicate 320 0, 0), spread := (1024, 0) })

theorem witness_DiceRuns :
    (∀ ph ∈ [DicePhase.idle, .collect, .integrate, .align, .check], (((from0 (dicing ph 0)).dev.unit 131).chain 4).phase = ph) ∧
    State.reset.dev.outOfUse (.chain 131 4) = false ∧ State.reset.dev.unitRuns 131 = true ∧ (from0 fun d => d.setUnit 131 { off := true }).dev.unitRuns 131 = false ∧
    32 ≤ ((from0 fun d => (dicing .integrate 0 d).setBudAct 0 1 { got := 32 }).dev.budAct 0 1).got ∧ ((from0 fun d => (dicing .integrate 0 d).setBudAct 0 1 { got := 31 }).dev.budAct 0 1).got < 32 ∧
    (let s := from0 (dicing .check 0)
    let c := (s.dev.unit 131).chain 4
    c.overrun = 0 ∧ maxBin (c.hist.getD []) ≤ s.dev.get F.TDC_QUAL_CFG_MAX_BIN_FB * 128 ∧
      c.spread.2 ≤ (s.dev.get F.TDC_QUAL_CFG_ALIGN_RMS_FB * 64 * c.spread.1) ^ 2 ∧ driftApplies c s.dev = false) ∧
    (((from0 (dicing .check 1)).dev.unit 131).chain 4).overrun ≠ 0 ∧ (((from0 (dicing .check 1)).dev.unit 131).chain 4).failRun = 0 := by decide +kernel

theorem witness_Calibrations :
    (from0 (inMode 2)).dev.mode = .calibrate ∧ Accepted 0x0301 ctx [] (from0 (inMode 2)) ∧
    (from0 fun d => (inMode 2 d).put F.TDC_STATUS_FULL_RUNNING 1).dev.get F.TDC_STATUS_FULL_RUNNING = 1 ∧ State.reset.dev.mode = .standby ∧
    (from0 fun d => d.put F.TDC_STATUS_INIT_DONE 1).dev.get F.TDC_STATUS_INIT_DONE = 1 ∧
    (let s := from0 fun d => { d with tdc := { d.tdc with units := (List.range 132).map fun u => (u, { initial := u == 131, off := u == 131 }) } }
    s.dev.get F.TDC_STATUS_INIT_DONE = 0 ∧ s.dev.tdc.fullReq = false ∧ s.dev.mode ≠ .test ∧ allUnits.all (fun u => !(s.dev.unit u).initial || (s.dev.unit u).off) = true) :=
  ⟨by decide +kernel, acc (by decide +kernel), by decide +kernel⟩

/-- Gates of engine 3. -/
def gated (gs : List Gate) (d : Dev) : Dev := d.setGates 3 gs
/-- A gate of kind k opened at 0, of n edges, closed at 1 or open. -/
def gate (k n : Nat) (open_ : Bool) : Gate :=
  { opened := 0, gmode := 1, closed := if open_ then none else some 1, kind := k, src := 0, stopSrc := 0, pol := 0, prescale := 0, n := n }

theorem witness_AuxiliaryInputsAndGates :
    (let s := from0 fun d => served auxTrig (served auxFreq ((d.put F.TDC_AUX_CFG_TRIG_EN 1).put F.TDC_AUX_CFG_FREQ_EN 1))
    s.dev.isAt s.dev.clk.turn F.TDC_AUX_CFG_TRIG_EN = true ∧ s.dev.isAt s.dev.clk.turn F.TDC_AUX_CFG_FREQ_EN = true ∧
      edgeStamp auxTrig s.dev.clk.turn 16383 [320] s.dev = none ∧ edgeStamp auxFreq s.dev.clk.turn 16383 [320] s.dev = none ∧
      edgeStamp auxTrig s.dev.clk.turn 16383 [0] s.dev = some 33552384 ∧ edgeStamp auxFreq s.dev.clk.turn 0 [0] s.dev = some 0 ∧
      turnOfFb 33552384 = 0 ∧ (s.dev.unit auxTrig).lastLead = none ∧ (s.dev.unit auxFreq).lastTrail = none) ∧
    (let s := from0 fun d => served auxTrig (served auxFreq d)
    edgeStamp auxTrig s.dev.clk.turn 16383 [0] s.dev = some 33552384 ∧ edgeStamp auxFreq s.dev.clk.turn 0 [0] s.dev = some 0 ∧
      s.dev.isAt 0 F.TDC_AUX_CFG_TRIG_EN = false ∧ s.dev.isAt 0 F.TDC_AUX_CFG_FREQ_EN = false ∧ (s.dev.unit auxTrig).pulse = none ∧ (s.dev.unit auxFreq).pulse = none) ∧
    (let near (u : Nat) (y : Int) (d : Dev) : Dev := d.setUnit u { d.unit u with lastLead := some y, lastTrail := some y }
    let s := from0 fun d => near auxTrig (33552384 - 2097) (near auxFreq 0 (served auxTrig (served auxFreq ((d.put F.TDC_AUX_CFG_TRIG_EN 1).put F.TDC_AUX_CFG_FREQ_EN 1))))
    edgeStamp auxTrig s.dev.clk.turn 16383 [0] s.dev = some 33552384 ∧ (s.dev.unit auxTrig).lastTrail = some (33552384 - 2097) ∧
      edgeStamp auxFreq s.dev.clk.turn 0 [0] s.dev = some 0 ∧ (s.dev.unit auxFreq).lastLead = some 0 ∧ s.dev.isAt 0 F.TDC_AUX_CFG_FREQ_EN = true) ∧
    State.reset.dev.tdc.gateIn = false ∧
    (∀ m, m = 1 ∨ m = 2 →
      (let s := from0 fun d => (List.range 4).foldl (fun d j => d.put (F.TDC_FR_GATE_GMODE j) (if j = 3 then m else 0)) d
      ∀ j, j < 4 → (s.dev.get (F.TDC_FR_GATE_GMODE j) = m ↔ j = 3) ∧ s.dev.get (F.TDC_FR_GATE_GMODE j) ≠ 3 - m ∧ s.dev.gatesOf j = [])) ∧
    (let s := from0 fun d => { gated [gate 0 0 true] d with tdc := { (gated [gate 0 0 true] d).tdc with gateIn := true } }
    s.dev.tdc.gateIn = true ∧ s.dev.gatesOf 3 = [gate 0 0 true] ∧ (gate 0 0 true).closed = none ∧ (gate 0 0 true).gmode = 1 ∧
      (s.dev.now.fbs : Int) ≤ (gate 0 0 true).full ∧ s.dev.gatesOf 0 = [] ∧ s.dev.gatesOf 1 = [] ∧ s.dev.gatesOf 2 = []) ∧
    (from0 (gated [gate 0 1 false])).dev.gatesOf 3 = [gate 0 1 false] ∧ (from0 (gated [gate 1 1 false, gate 0 0 false])).dev.gatesOf 3 = [gate 1 1 false, gate 0 0 false] ∧
    (from0 (gated [gate 2 0 false])).dev.gatesOf 3 = [gate 2 0 false] ∧ (gate 1 1 false).opened < 1 ∧ (gate 1 1 false).closed = some 1 := by
  refine ⟨by decide +kernel, by decide +kernel, by decide +kernel, by decide +kernel, ?_, by decide +kernel⟩
  rintro m (rfl | rfl) <;> decide +kernel

/-! ### Witnesses: capture, slices, collector, cascade, queues -/

/-- A segment of a record of one sample about time 0. -/
def seg (j : Nat) (st : SegState) : Segment :=
  { j := j, st := st, t := 0, pre := 0, post := 1, w := 256, size := 16, srcs := 1, prio := 0, gov := 0, noLocal := false, tdc := true, cls := none, force := false, untrimmed := false }

/-- Channel 63 in a state, at tick ct. -/
def chan (ct : Nat) (c : CapChannel) (d : Dev) : Dev := { d with clk := { d.clk with ct := ct } }.setCapCh 63 c

theorem witness_ChannelStates :
    (let s := from0 (chan 16383 { st := .warmup })
    (s.dev.capCh 63).st = .warmup ∧ (s.dev.capCh 63).validFrom + (s.dev.geomAt s.dev.clk.turn).1 ≤ s.dev.nowSample) ∧
    (let s := from0 (chan 0 { st := .warmup, validFrom := 1 })
    s.dev.nowSample < (s.dev.capCh 63).validFrom + (s.dev.geomAt s.dev.clk.turn).1) ∧
    (let s := from0 (chan 16383 { st := .recut, adcOn := true })
    (s.dev.capCh 63).segs = [] ∧ (s.dev.capCh 63).recutFrom + (s.dev.geomAt s.dev.clk.turn).1 ≤ s.dev.nowSample ∧
      (s.dev.capCh 63).validFrom + (s.dev.geomAt s.dev.clk.turn).1 ≤ s.dev.nowSample) ∧
    (let s := from0 (chan 0 { st := .recut, adcOn := false })
    (s.dev.capCh 63).st = .recut ∧ (s.dev.capCh 63).segs = []) ∧ ((from0 (chan 0 { st := .recut, segs := [seg 0 .ready] })).dev.capCh 63).segs ≠ [] ∧
    (from0 fun d => { d with cap := { d.cap with trimNext := (0, true) } }).dev.cap.trimNext.2 = true ∧
    (let s (got : Nat) := from0 fun d => (let d := (chan 0 { trim := .converging } d).setBudAct 0 1 { got := got }
      { d with cap := { d.cap with trimNext := (63, false) } })
    (s 16).dev.cap.trimNext.2 = false ∧ trimTarget (s 16).dev.cap.trimNext.1 (s 16).dev = some 63 ∧ 16 ≤ ((s 16).dev.budAct 0 1).got ∧ ((s 15).dev.budAct 0 1).got < 16) ∧
    (let s (up : Bool) := from0 fun d => (chan 0 { st := .run, adcOn := true, armed := up } d).put (F.CAP_CH_CFG_LEVEL_THR 63) 9
    let thr : Int := ((s true).dev.get (F.CAP_CH_CFG_LEVEL_THR 63) * 4096 : Nat)
    ((s true).dev.capCh 63).adcOn = true ∧ ((s true).dev.capCh 63).st ≠ .off ∧ 36863 < thr ∧ thr ≤ 36864 ∧ ((s true).dev.capCh 63).armed = true ∧
      ((s false).dev.capCh 63).armed = false ∧ 4095 < thr - 32768 ∧ thr - 32768 ≤ 4096) := by decide +kernel

/-- Mode HYBRID and channel 63 running, DISC_LOW enabled, with segments. -/
def armed (segs : List Segment) (d : Dev) : Dev :=
  chan 1024 { st := .run, adcOn := true, segs := segs } ((inMode 5 ((d.put F.PWR_MODE_CTRL_MODE 5).put (F.CAP_CH_CFG_SRC_EN 63) 1)).put F.CAP_REC_PRE 0)

/-- A trigger of DISC_LOW. -/
def disc (t : Int) : Trig := { src := 0, gov := 0, t := t, noLocal := false, tdc := true, cls := none, force := false }

theorem witness_TriggersClaimSegments :
    srcMode (State.reset.dev.modeAt 0) 0 = false ∧ (State.reset.dev.capCh 63).powered (sampleOf (State.reset.dev.present 0)) = false ∧
    (let s := from0 (armed [])
    srcMode (s.dev.modeAt 0) 0 = true ∧ srcEnabled 63 0 0 s.dev = true ∧ (s.dev.capCh 63).powered (sampleOf (s.dev.present 0)) = true ∧ (s.dev.capCh 63).st = .run ∧ s.dev.se.off.contains (63 / 8) = false ∧ (s.dev.capCh 63).segs = [] ∧
      ((s.dev.capCh 63).validFrom : Int) ≤ sampleOf (s.dev.present 0) - s.dev.getAt 0 F.CAP_REC_PRE ∧ 0 < segCount (s.dev.geomAt 0).1 (s.dev.geomAt 0).2) ∧
    (let s := from0 fun d => armed ((List.range (segCount (d.geomAt 0).1 (d.geomAt 0).2)).map fun j => { seg j .ready with t := -16384 }) d
    (List.range (segCount (s.dev.geomAt 0).1 (s.dev.geomAt 0).2)).all (fun k => (s.dev.capCh 63).segs.any (fun h => h.j == k)) = true ∧
      (s.dev.capCh 63).segs.all (fun h => decide (8 * 2048 ≤ ((0 : Int) - h.t).natAbs)) = true) ∧
    (let s := from0 (armed [seg 0 .waiting])
    (s.dev.capCh 63).segs = [seg 0 .waiting] ∧ (s.dev.present (disc 16383).t - s.dev.present (seg 0 .waiting).t).natAbs < 8 * 2048 ∧
      srcMode (s.dev.modeAt (disc 16383).gov) 0 = true ∧ (s.dev.capCh 63).powered (sampleOf (s.dev.present (disc 16383).t)) = true) ∧
    (let s := from0 (chan 0 { segs := [seg 0 .waiting] })
    nextWaiting (s.dev.capCh 63).segs = some 0 ∧ (s.dev.nowSample : Int) < sampleOf (s.dev.present 0) + 1) ∧
    (let s := from0 (chan 56 { segs := [seg 0 .waiting] })
    sampleOf (s.dev.present 0) + 1 ≤ (s.dev.nowSample : Int) ∧ (s.dev.nowSample : Int) - (sampleOf (s.dev.present 0) - 0) ≤ (256 : Int) - 32) ∧
    (let s := from0 (chan 57 { segs := [seg 0 .waiting] })
    (256 : Int) - 32 < (s.dev.nowSample : Int) - (sampleOf (s.dev.present 0) - 0)) ∧
    ((from0 (chan 0 { segs := [seg 0 .copying] })).dev.capCh 63).segs.any (fun h => h.st == .copying) = true := by decide +kernel

theorem witness_CopyMakesSegmentReady :
    (State.reset.dev.capCh 63).segs = [] ∧
    (let s := from0 (chan 0 { segs := [seg 3 .ready, seg 5 .copying] })
    (s.dev.capCh 63).segs.findIdx (fun g => g.st == .copying) = 1 ∧ (s.dev.capCh 63).segs[1]?.map (·.bad) = some [] ∧ adcMask 63 0 s.dev = 0 ∧ adcMask 63 1 s.dev = 0) := by decide +kernel

/-- Lane 0 of both upstream ports ACTIVE. -/
def lanesUp (d : Dev) : Dev := (d.put (F.LNK_LANE_STATUS_STAGE 0) 5).put (F.LNK_LANE_STATUS_STAGE 4) 5

theorem witness_AcceptsAndTriggerPins :
    State.reset.dev.get (F.LNK_LANE_STATUS_STAGE 4) ≠ 5 ∧
    ((from0 lanesUp).dev.get (F.LNK_LANE_STATUS_STAGE 4) = 5 ∧ vl0Good (acceptWords 2 0 false 0 0 0) = true ∧ vl0Kind (acceptWords 2 0 false 0 0 0) = 2) ∧
    State.reset.dev.cap.holds = [] ∧
    (let a (pip : Nat) : Accept := { array := false, cls := 0, turn := 0, pip := pip }
    let s (x y : Nat) := from0 fun d => { d with cap := { d.cap with holds := [a x, a y] } }
    a 1 ≠ a 0 ∧ (s 1 0).dev.tickBefore (a 0) (a 1) = true ∧ (s 0 1).dev.tickBefore (a 1) (a 0) = false) ∧
    (from0 fun d => { d with cap := { d.cap with holds := [{ array := false, cls := 0, turn := 0, pip := 0 }], trigEvents := [5] } }).dev.cap.trigEvents = [5] ∧
    (srcMode (from0 (inMode 5)).dev.mode 5 = true ∧ Accepted 0x0401 ctx [1, 2] (from0 (inMode 5))) ∧
    (srcMode State.reset.dev.mode 5 = false ∧ Accepted 0x0401 ctx [1, 2] State.reset) ∧ primForms 0 State.reset.dev = false ∧
    (let s := from0 fun d => (d.put F.PWR_MODE_CTRL_MODE 5).put F.CAP_CFG_PRIM_EN 1
    primForms 0 s.dev = true ∧ s.dev.isConc = false ∧ (from0 fun _ => asConc 8 s.dev).dev.isConc = true ∧ primForms 0 (asConc 8 s.dev) = true) :=
  ⟨by decide +kernel, by decide +kernel, by decide +kernel, by decide +kernel, by decide +kernel, ⟨by decide +kernel, acc (by decide +kernel)⟩, ⟨by decide +kernel, acc (by decide +kernel)⟩,
    by decide +kernel⟩

/-- Engine 7 with channel 63's segment j. -/
def engined (items : List Entry) (d : Dev) : Dev := (chan 0 { st := .run, segs := [seg 2 .reading] } d).setEngine 7 { run := some (63, 2), items := items }

theorem witness_SliceEngines :
    (((from0 (engined [])).dev.engine 7).run.isSome = true ∧ ((from0 (engined [])).dev.engine 7).items = [] ∧
      ((from0 (engined [])).dev.capCh 63).segs.find? (fun g => g.j == 2) = some (seg 2 .reading)) ∧
    ((from0 (engined [{ t := {}, src := 63 * 2 + 1, words := [0] }])).dev.engine 7).items ≠ [] ∧
    (let s := from0 fun d => { d with clk := { d.clk with ct := 2047 } }.setCapCh 56 { st := .run, segs := [seg 0 .ready] }
    s.dev.clk.ct < 2048 ∧ (s.dev.engine 7).run = none ∧ s.dev.se.off.contains 7 = false ∧ s.dev.underTest (.engine 7) = false) ∧
    (let s := from0 fun d => d.setCapCh 56 { st := .run, segs := [seg 0 .ready] }
    pickSegment s.dev (8 * 7) = some (seg 0 .ready)) ∧
    (State.reset.dev.gainSums 63).next = none ∧
    (let s := from0 fun d => ((d.setGainSums 63 { next := some (2 ^ 17 - 1) }).setBudAct 0 1 { got := 16 }).put (F.SE_CH_GAIN_GR_MODE 63) 0
    (s.dev.gainSums 63).next = some (2 ^ 17 - 1) ∧ s.dev.is (F.SE_CH_GAIN_GR_MODE 63) = false ∧ 16 ≤ (s.dev.budAct 0 1).got) ∧ (seg 2 .reading).bad = [] := by decide +kernel

/-- One HIT of unit 127 at the end of a turn, and the turns that have a frame. -/
def oneHit (framed : List (Nat × Nat)) (build : Option FrameBuild) (d : Dev) : Dev :=
  { d with
    clk := { d.clk with turn := 5 }
    fifos := [(126, [{ t := { turn := 5, ct := 0, fb := 0 }, src := 126, words := [0] }])]
    col := { d.col with framed := framed, build := build } }

theorem witness_CollectorEmitsInKeyOrder :
    (let s := from0 (oneHit [] none)
    s.dev.col.group = none ∧ s.dev.col.closing = none ∧ (smallest ((examined s.dev).filter (fun x => !awaitsOwnFrame x.2 s.dev))).map (fun x => (x.1, x.2.err, entryFate x.2 s.dev)) =
      some (some 0, 0, some .noFrame) ∧ s.dev.framed 5 = false ∧ s.dev.col.build = none ∧ s.dev.cap.gaps = []) ∧
    (let s := from0 fun d => { oneHit [(5, 5)] (some { turn := 5, own := true }) d with clk := { d.clk with turn := 5, ct := 1 } }
    (smallest ((examined s.dev).filter (fun x => !awaitsOwnFrame x.2 s.dev))).map (fun x => entryFate x.2 s.dev) = none ∨
      (smallest ((examined s.dev).filter (fun x => !awaitsOwnFrame x.2 s.dev))).map (fun x => entryFate x.2 s.dev) = some none) ∧
    (examined State.reset.dev).filter (fun x => !awaitsOwnFrame x.2 State.reset.dev) = [] ∧
    (from0 fun d => { d with col := { d.col with build := some { turn := 0, own := true } } }).dev.col.build.isSome = true ∧
    (from0 fun d => { d with col := { d.col with closing := some none } }).dev.col.closing = some none ∧
    (let s := from0 fun d => { d with
      fifos := [(126, [{ t := {}, src := 126, words := [0], cont := true }])]
      col := { d.col with group := some (126, 0, .inTime) } }
    s.dev.col.group = some (126, 0, .inTime) ∧ (nextCont ((kget s.dev.fifos 126 []).drop 0) 0).map (fun x => (x.1, x.2.err)) = some (0, 0)) ∧
    (let s := from0 fun d => { d with lost := [(126, ({}, 3))] }
    s.dev.col.group = none ∧ s.dev.col.closing = none ∧
      (smallest ((examined s.dev).filter (fun x => !awaitsOwnFrame x.2 s.dev))).map (fun x => (x.1, entryFate x.2 s.dev)) = some (none, some .noFrame)) := by decide +kernel

/-- A concentrator whose port 7 is ACTIVE and ATTACHED. -/
def below (d : Dev) : Dev := ((asConc 8 (lanesUp d)).put (F.LNK_LANE_STATUS_STAGE 15) 5).put (F.CAS_PORT_STATUS_STATE 7) 3

/-- A PRIMITIVE of tick 0, and a SUMMARY. -/
def short3 (kind : Nat) : List Word := [toWord (kind * 2 ^ 29), 1, 2]

theorem witness_PrimitivesAndAccepts :
    ((from0 below).dev.get (F.LNK_LANE_STATUS_STAGE (8 + 7)) = 5 ∧ vl0Good (short3 4) = true ∧ vl0Kind (short3 4) = 4 ∧ vl0Good (short3 1) = true ∧ vl0Kind (short3 1) = 1 ∧
      (from0 below).dev.portState 7 = 3 ∧ (from0 fun d => (below d).put (F.CAS_PORT_STATUS_STATE 7) 2).dev.portState 7 ≠ 3) ∧
    (let due (d : Dev) : Int := d.periodOf ((0 * 32768 : Nat) : Int) + (d.getAt 0 F.CAS_TRIG_CFG_D_CT : Nat) - 32
    let late := from0 fun d => { below d with clk := { d.clk with ct := 16383 } }
    let early := from0 fun d => (below d).put F.CAS_TRIG_CFG_D_CT 32
    extendTurn 0 (bits (wordAt (short3 1) 0) 27 13) = 0 ∧ tickNo 0 (bits (wordAt (short3 1) 0) 12 3) = 0 ∧
      due late.dev < (late.dev.nowCt : Int) ∧ (early.dev.nowCt : Int) ≤ due early.dev ∧ due early.dev = 0) ∧
    State.reset.dev.isConc = false ∧
    (let s := from0 fun d => (below d).put F.PWR_MODE_CTRL_MODE 5
    s.dev.isConc = true ∧ primMode (s.dev.modeAt 0) = true ∧ s.dev.isAt 0 F.CAS_TRIG_CFG_CT_EN = false ∧ s.dev.getAt 0 F.CAS_CFG_UP_PRIM = 0) ∧
    (let s (en : Nat) := from0 fun d => (let d := ((((below d).put F.PWR_MODE_CTRL_MODE 5).put F.CAS_TRIG_CFG_CT_EN 1).put (F.CAS_RULE_EN 3) en).put (F.CAS_RULE_KIND 3) 1
      { d with cas := { d.cas with prims := [(0, 7)] } })
    let fired (en : Nat) := (List.range 4).filter (fun r =>
      (ruleStep 0 0 r { (s en).dev with cas := { (s en).dev.cas with maps := [(0, clusterMap 0 0 (s en).dev)] } }).1)
    (s 1).dev.isAt 0 F.CAS_TRIG_CFG_CT_EN = true ∧ (s 1).dev.isConc = true ∧ primMode ((s 1).dev.modeAt 0) = true ∧ fired 0 = [] ∧ fired 1 = 3 :: []) ∧
    (let s := from0 fun d => { (below d).put F.CAS_TRIG_CFG_UP_MULT 1 with cap := { d.cap with bucket := (32, 32) } }
    s.dev.cas.held.span = 0 ∧ s.dev.getAt 0 F.CAS_TRIG_CFG_UP_MULT ≤ popcount 1 576 ∧ 16 ≤ s.dev.bucketFill s.dev.primPort ∧ s.dev.cas.held.slots = 0 ∧
      s.dev.cas.held.mult = 0 ∧ s.dev.cas.held.rules = 0 ∧ s.dev.get (F.LNK_LANE_STATUS_STAGE (4 * s.dev.primPort)) = 5) ∧
    (let a : DueAccept := { turn := 0, pip := 0, cls := 0, coarse := false }
    let s (ct : Nat) := from0 fun d => (let d := (below d).put F.CAS_TRIG_CFG_D_CT 64
      { d with clk := { d.clk with ct := ct }, cas := { d.cas with due := [a] } })
    (s 63).dev.cas.due.head? = some a ∧ ((s 63).dev.nowCt : Int) < a.leaves (s 63).dev ∧ a.leaves (s 64).dev ≤ ((s 64).dev.nowCt : Int) ∧ (s 64).dev.cas.due = [a]) ∧
    (let body := acceptWords 3 0 false 0 0 0
    vl0Good body = true ∧ vl0Kind body = 3 ∧ (from0 below).dev.get (F.LNK_LANE_STATUS_STAGE 4) = 5 ∧ (from0 below).dev.upState 1 ≠ 1 ∧
      (from0 fun d => (below d).put F.TQ_STATUS_UB_STATE 1).dev.upState 1 = 1 ∧ (from0 below).dev.cas.relayed = [] ∧ (from0 below).dev.mode ≠ .boot ∧
      (from0 below).dev.mode ≠ .test ∧ (from0 below).dev.mode ≠ .dormant) ∧
    State.reset.dev.cas.due = [] ∧
    (from0 fun d => { d with cas := { d.cas with due := [{ turn := 0, pip := 1023, cls := 7, coarse := true }], delayed := [(7, [1, 2])] } }).dev.cas.delayed = [(7, [1, 2])] ∧
    (from0 fun d => { d with outShort := [{ port := 2 + 7, body := [1, 2] }] }).dev.outShort.map (·.port) = [2 + 7] := by
  decide +kernel

/-- The words of a frame of turn t without items, of chip ID 7. -/
def emptyFrame (t : Nat) : List Word64 :=
  let h : List Word64 := [BitVec.ofNat 64 (0xC * 2 ^ 60 + 2 ^ 48 + t), BitVec.ofNat 64 (7 * 2 ^ 48), 0]
  h ++ [BitVec.ofNat 64 (0xD * 2 ^ 60), 0]

/-- The words of a frame of turn 0 with a good TURN_TAIL: a TURN_REFUSED stub. -/
def goodFrame : List Word64 := stubFrame 0 false State.reset.dev

/-- Port 7 with a frame on its way. -/
def framing (r : RxFrame) (d : Dev) : Dev := (asConc 8 d).setCasPort 7 { rx := some r }

theorem witness_FramesFromBelow :
    (State.reset.dev.casPort 7).rx = none ∧ (State.reset.dev.casPort 7).pipe = [] ∧
    (let s := from0 (framing { words := emptyFrame 0 })
    (s.dev.casPort 7).rx.map (·.stage) = some .head ∧ 3 ≤ (emptyFrame 0).length ∧ wbits ((emptyFrame 0).headD 0) 63 60 = 0xC ∧
      headFails 7 ((emptyFrame 0).headD 0) ((emptyFrame 0).getD 1 0) s.dev = some 4) ∧
    ((emptyFrame 0).take 2).length < 3 ∧ (3 ≤ ((emptyFrame 0).drop 1).length ∧ wbits (((emptyFrame 0).drop 1).headD 0) 63 60 ≠ 0xC) ∧
    (let s := from0 fun d => ({ d with cas := { d.cas with frames := [{ turn := 0, level := 1, owed := [] }] } }).put (F.CAS_PORT_STATUS_LEARNED_ID 7) 7
    headFails 7 ((emptyFrame 0).headD 0) ((emptyFrame 0).getD 1 0) s.dev = none) ∧
    wholeFrame ((emptyFrame 0).take 4) = none ∧ (wholeFrame (emptyFrame 0)).map frameGood = some false ∧
    (wholeFrame goodFrame).map (fun x => (frameGood x, itemType (x.getD 1 []) != 0xA)) = some (true, true) ∧
    ((from0 (framing { stage := .body, words := emptyFrame 0 })).dev.casPort 7).rx.map (fun r => (r.stage, r.recode)) = some (.body, false) ∧
    ((from0 (framing { stage := .body, words := goodFrame, recode := true })).dev.casPort 7).rx.map (fun r => (r.stage, r.recode)) = some (.body, true) ∧
    (let s (fs : List CasFrame) := from0 fun d => { (d.setCasPort 7 { pipe := [{ done := goodFrame, recode := true }] }) with cas := { (d.setCasPort 7 { pipe := [{ done := goodFrame, recode := true }] }).cas with frames := fs } }
    ((s []).dev.casPort 7).pipe.length = 1 ∧ closedOrDuplicate (goodFrame.headD 0) (goodFrame.getD 1 0) (s []).dev = some 3 ∧
      closedOrDuplicate (goodFrame.headD 0) (goodFrame.getD 1 0) (s [{ turn := 0, level := 1, owed := [] }]).dev = none) ∧
    State.reset.dev.col.ownDone = [] ∧
    (let s (rec : Bool) := from0 fun d => { d with col := { d.col with ownDone := [{ turn := 5, words := [], pages := [], recode := rec }] } }
    ((s true).dev.col.ownDone.map (·.recode) = [true] ∧ (s false).dev.col.ownDone.map (·.recode) = [false]) ∧ (s true).dev.queueOpen 5 = false) ∧
    (from0 fun d => { d with col := { d.col with ownDone := [{ turn := 5, words := [], pages := [], recode := true, overflow := true }] } }).dev.col.ownDone.map (·.overflow) = [true] ∧
    (from0 (holds5 .open_)).dev.queueOpen 5 = true := by decide +kernel

/-- Upstream port UA ACTIVE and up. -/
def upUA (d : Dev) : Dev := (d.put F.TQ_STATUS_UA_STATE 1).put (F.LNK_PORT_STATUS_ACTIVE 0) 1

theorem witness_FramesLeave :
    nextSend 0 State.reset.dev = none ∧
    (let s := from0 fun d => holds5 .closed (upUA d)
    (s.dev.upPort 0).job = none ∧ nextSend 0 s.dev = some (5, .first) ∧ (s.dev.holding 5).isSome = true ∧ s.dev.ram.faulty = [] ∧ (s.dev.holding 5).map (·.bad) = some []) ∧
    (let s := from0 fun d => { upUA d with tq := { d.tq with refusals := [(6, 1)] } }
    nextSend 0 s.dev = some (6, .stub)) ∧
    (let s := from0 fun d => (holds5 .sent (upUA d)).setUpPort 0 { replay := [5] }
    nextSend 0 s.dev = some (5, .replay) ∧ (s.dev.holding 5).map (fun x => (x.st, x.bad)) = some (.sent, []) ∧ (s.dev.upPort 0).job = none) ∧
    (from0 fun d => d.setUpPort 1 { job := some { turn := 5, kind := .stub, left := [] } }).dev.sendsFrame 1 5 = false ∧
    (let s := from0 fun d => (holds5 .sent d).setUpPort 1 { job := some { turn := 5, kind := .first, left := [] } }
    (s.dev.upPort 1).job = some { turn := 5, kind := .first, left := [] } ∧ (s.dev.holding 5).isSome = true) ∧
    ((from0 fun d => d.setUpPort 1 { job := some { turn := 5, kind := .first, left := [1] } }).dev.upPort 1).job.map (·.left) = some [1] := by decide +kernel

/-- A link control body of one turn. -/
def control (op t : Nat) : List Word := [toWord (op * 2 ^ 28 + t / 2 ^ 32), toWord t]

/-- A queue sent at boundary 1, t boundaries after reset. -/
def sentAt (t : Nat) (d : Dev) : Dev := { d with clk := { d.clk with bounds := t } }.setQueue 5 { st := .sent, turn := 5, lastSend := some 1 }

/-- A closed queue that waits for a verdict since boundary 0, t boundaries after reset. -/
def judged (t : Nat) (d : Dev) : Dev := ({ d with clk := { d.clk with bounds := t } }.put F.TQ_CFG_POLICY 1).setQueue 5 { st := .closed, turn := 5 }

theorem witness_AcknowledgementsAndVerdicts :
    (from0 lanesUp).dev.get (F.LNK_LANE_STATUS_STAGE 4) = 5 ∧
    ([0, 1, 2, 3, 4].map fun op => wbits (BitVec.ofNat 64 ((wordAt (control op 5) 0).toNat * 2 ^ 32 + (wordAt (control op 5) 1).toNat) : Word64) 63 60) = [0, 1, 2, 3, 4] ∧
    (let s := from0 (sentAt 5)
    (s.dev.holding 5).map (fun x => (x.st, x.lastSend, x.inflight, x.turn)) = some (.sent, some 1, false, 5) ∧ s.dev.is F.TQ_CFG_RETAIN = false ∧ s.dev.pinned 5 = false ∧
      s.dev.clk.bounds < 1 + s.dev.get F.TQ_CFG_ACK_WAIT) ∧
    (let s := from0 fun d => sentAt (1 + d.get F.TQ_CFG_ACK_WAIT) d
    1 + s.dev.get F.TQ_CFG_ACK_WAIT ≤ s.dev.clk.bounds) ∧
    State.reset.dev.holding 5 = none ∧
    (let s := from0 (judged 1)
    (s.dev.holding 5).map (fun x => (x.st, x.verdict)) = some (.closed, 0) ∧ s.dev.verdictPolicy = true ∧ (s.dev.holding 5).map (fun x => decide (s.dev.clk.bounds < x.closedAt + s.dev.get F.TQ_LIMITS_VERDICT_LIMIT)) = some true) ∧
    (let s := from0 fun d => (judged (d.get F.TQ_LIMITS_VERDICT_LIMIT) d).put F.TQ_CFG_VERDICT_DEFAULT 1
    (s.dev.holding 5).map (fun x => decide (x.closedAt + s.dev.get F.TQ_LIMITS_VERDICT_LIMIT ≤ s.dev.clk.bounds)) = some true ∧ s.dev.is F.TQ_CFG_VERDICT_DEFAULT = true) ∧
    256 ≤ State.reset.dev.freePages ∧ (from0 fun d => d.setReg R.TQ_AREA_PAGES 255).dev.freePages < 256 ∧
    ((from0 fun d => d.setUpPort 1 { waitTurns := 4 }).dev.upPort 1).waitTurns = 4 ∧ ((from0 fun d => d.setUpPort 1 { waitTurns := 3 }).dev.upPort 1).waitTurns < 4 := by
  decide +kernel

/-- Closed turns up to 40 000 and r rewinds queued. -/
def rewinding (r : Nat) (d : Dev) : Dev :=
  { d with clk := { d.clk with turn := 40001 }, tq := { d.tq with newestClosed := some 40000, rewinds := List.replicate r { next := 40000, left := 1 } } }

theorem witness_MarksAndRewinds :
    (Accepted 0x0602 ctx (1 :: hiLo 32767) State.reset ∧ State.reset.dev.clk.turn ≤ 32767 + 32767 ∧ 32767 ≤ State.reset.dev.clk.turn + 32767) ∧
    (Accepted 0x0602 ctx (1 :: hiLo 32768) State.reset ∧ ¬ (State.reset.dev.clk.turn ≤ 32768 + 32767 ∧ 32768 ≤ State.reset.dev.clk.turn + 32767)) ∧
    Accepted 0x0602 ctx [2, 0, 0] State.reset ∧
    (let s := from0 (rewinding 3)
    Accepted 0x0603 ctx (hiLo 7234 ++ [toWord 32767]) s ∧ s.dev.clk.turn ≤ 7234 + 32767 ∧ s.dev.tq.newestClosed = some 40000 ∧ 7234 + 32767 ≤ 40000 + 1 ∧ s.dev.tq.rewinds.length < 4) ∧
    (let s := from0 fun d => { rewinding 3 d with clk := { d.clk with turn := 40000 } }
    Accepted 0x0603 ctx (hiLo 7233 ++ [toWord 0]) s ∧ s.dev.clk.turn ≤ 7233 + 32767 ∧ s.dev.tq.newestClosed = some 40000 ∧ 7233 + 32768 ≤ 40000 + 1) ∧
    (Accepted 0x0603 ctx (hiLo 40000 ++ [toWord 1]) (from0 (rewinding 4)) ∧ 4 ≤ (from0 (rewinding 4)).dev.tq.rewinds.length) ∧
    (Accepted 0x0603 ctx (hiLo 40001 ++ [toWord 1]) (from0 (rewinding 0)) ∧ ¬ 40001 + 1 ≤ 40000 + 1) ∧
    (let s := from0 fun d => rewinding 1 (upUA d)
    s.dev.tq.rewinds = [{ next := 40000, left := 1 }] ∧ s.dev.carriesTurn 0 40000 = true ∧ (s.dev.upPort 0).job = none ∧ nextSend 0 s.dev = none ∧ s.dev.holding 40000 = none) ∧
    (let s (got : Nat) := from0 fun d => ((rewinding 1 (upUA d)).setQueue (qIndex 40000) { st := .sent, turn := 40000 }).setBudAct 1 5 { got := got }
    (s 0).dev.carriesTurn 0 40000 = true ∧ nextSend 0 (s 0).dev = none ∧ ((s 0).dev.holding 40000).map (fun x => (x.st, x.bad)) = some (.sent, []) ∧
      (s 0).dev.reservoir = false ∧ 16 * rewindPips (8 * 0) (s 0).dev ≤ ((s 0).dev.budAct 1 5).got ∧ (s 0).dev.ram.faulty = [] ∧ 0 < (s 0).dev.tq.up.length) ∧
    (let s (got : Nat) := from0 fun d => ((rewinding 1 (upUA d)).setQueue (qIndex 40000) { st := .sent, turn := 40000, words := [0] }).setBudAct 1 5 { got := got }
    ((s 15).dev.budAct 1 5).got < 16 * rewindPips (8 * 1) (s 15).dev ∧ 16 * rewindPips (8 * 1) (s 16).dev ≤ ((s 16).dev.budAct 1 5).got ∧
      ((s 15).dev.holding 40000).map (·.words.length) = some 1) ∧
    (let s := from0 fun d => rewinding 1 ((upUA d).setUpPort 0 { job := some { turn := 5, kind := .first, left := [] } })
    s.dev.carriesTurn 0 40000 = true ∧ (s.dev.upPort 0).job.isSome = true) ∧
    (State.reset.dev.carriesTurn 0 5 = false ∧ State.reset.dev.carriesTurn 1 5 = false) ∧ Accepted 0x0605 ctx [toWord 3] State.reset ∧
    (let s := from0 upUA
    s.dev.upState 0 = 1 ∧ (s.dev.upPort 0).gaveUp = none ∧ 1 < s.dev.tq.up.length) :=
  ⟨⟨acc (by decide +kernel), by decide +kernel⟩, ⟨acc (by decide +kernel), by decide +kernel⟩, acc (by decide +kernel), ⟨acc (by decide +kernel), by decide +kernel⟩,
    ⟨acc (by decide +kernel), by decide +kernel⟩, ⟨acc (by decide +kernel), by decide +kernel⟩, ⟨acc (by decide +kernel), by decide +kernel⟩, by decide +kernel,
    by decide +kernel, by decide +kernel, by decide +kernel, by decide +kernel, acc (by decide +kernel), by decide +kernel⟩

/-! ### Witnesses: decompression, lanes, monitor, guard -/

/-- A secure job in a state over n input bytes at the start of the data RAM, its output behind it. -/
def jobbed (st n : Nat) (d : Dev) : Dev :=
  (((((d.setReg R.SEC_WORLD_HI 8).put F.CMP_JOB_STATUS_STATE st).setReg R.CMP_JOB_IN_LO 0x02000000).setReg R.CMP_JOB_IN_LEN (toWord n)).setReg R.CMP_JOB_OUT_LO 0x02001000).setReg R.CMP_JOB_OUT_SPACE 4096

/-- JOB registers that name no input: the operands of a JOB_START. -/
def jobOperands : List Word := List.replicate 7 0

/-- Seven words that name n bytes of input at an address, and no output. -/
def input (hi lo n : Word) : List Word := [hi, lo, n, 0, 0, 0, 0]

theorem witness_DecompressionJobs :
    (∀ st ∈ [0, 1, 2], (from0 (jobbed st 0)).dev.absentKey R.CMP_JOB_CMD = false ∧ (putRegs (forRegs jobRegs jobOperands) (from0 (jobbed st 0))).dev.absentKey R.CMP_JOB_CMD = false ∧
      (putRegs (forRegs jobRegs jobOperands) (from0 (jobbed st 0))).dev.jobState = st) ∧
    (∀ k ∈ [1, 2, 6, 3], Accepted 0x0606 ctx (jobPayload (input 0 0x02000000 8) k) State.reset ∧
      Accepted 0x0606 ctx (jobPayload (input 1 0 8) k) (from0 fun d => d.put F.MEM_STATUS_SDRAM_OK 0)) ∧
    (∀ k ∈ [1, 2, 6, 3], ∀ st ∈ [0, 1, 2], Accepted 0x0606 ctx (jobPayload (input 0 0 0) k) (from0 (jobbed st 0))) ∧
    ((input 0 0x02000000 8).length = 7 ∧ State.reset.dev.rangeSecure 0x02000000 8 false = true) ∧
    (let s := from0 fun d => d.put F.MEM_STATUS_SDRAM_OK 0
    s.dev.sdramMissing 0x100000000 8 = true ∧ s.dev.rangeSecure 0x100000000 8 false = false ∧ s.dev.rangeSecure 0 0 true = false) ∧
    (∀ st ∈ [0, 1, 2], (let s := from0 (jobbed st 0)
      s.dev.jobState = st ∧ s.dev.rangeSecure 0 0 false = false ∧ s.dev.rangeSecure 0 0 true = false ∧ s.dev.sdramMissing 0 0 = false)) := by
  refine ⟨by decide +kernel, ?_, ?_, by decide +kernel, by decide +kernel, by decide +kernel⟩
  · intro k hk
    simp only [List.mem_cons, List.not_mem_nil, or_false] at hk
    rcases hk with rfl | rfl | rfl | rfl <;> exact ⟨acc (by decide +kernel), acc (by decide +kernel)⟩
  · intro k hk st hs
    simp only [List.mem_cons, List.not_mem_nil, or_false] at hk hs
    rcases hk with rfl | rfl | rfl | rfl <;> rcases hs with rfl | rfl | rfl <;> exact acc (by decide +kernel)

/-- A coded block of one item of five values. -/
def codedBlock : List (List Word64) := codeRun 0 [waveItem false false 63 0 0 [5, 6, 7, 8, 9]]
/-- The block with bit b of word j flipped. -/
def flipped (j b : Nat) : List (List Word64) := codedBlock.modify 0 (fun l => l.modify j (fun x => x ^^^ (1#64 <<< b)))

/-- A job that reads items of the data RAM, with space for `space` bytes of output, and its pips. -/
def blockJob (items : List (List Word64)) (space : Nat) : State :=
  { from0 (fun d => (((jobbed 1 (8 * (items.map List.length).sum) d).setReg R.CMP_JOB_OUT_SPACE (toWord space)).setBudAct 0 4 { got := 64 }).setBudAct 1 4 { got := 64 }) with
    mem := memWrite [] 0x02000000 (storedBytes items) }

/-- The next read of a job, and what its block decodes to. -/
def blockRead (s : State) : BlockRead × Dev := readBlock s.mem [] [] (s.dev.jobIn + s.dev.jobLen) (s.dev.jobLen / 8 + 1) (s.dev.jobIn + s.dev.jobInDone) [] s.dev
/-- Whether it was full, and how it failed. -/
def blockEnd (s : State) (items : List (List Word64)) : Bool × Option BlockFail := (decodeBlock s.dev.jobCap (s.dev.jobSpace - s.dev.jobOutDone) (blockBytes items)).2.2

theorem witness_DecompressionBlocks :
    State.reset.dev.jobState ≠ 1 ∧ ((from0 (jobbed 1 0)).dev.jobState = 1 ∧ (from0 (jobbed 1 0)).dev.tq.skip = false ∧
      (from0 (jobbed 1 0)).dev.jobLen ≤ (from0 (jobbed 1 0)).dev.jobInDone) ∧
    (blockRead (from0 (jobbed 1 8))).1 = .stop 4 0x02000008 ∧ (takeAll 4 (jobNeeds 0x02000000 8 0 0 (from0 (jobbed 1 8)).dev) (from0 (jobbed 1 8)).dev).1 = false ∧
    (takeAll 4 (jobNeeds 0x02000000 8 0 0 (blockJob [[0]] 0).dev) (blockJob [[0]] 0).dev).1 = true ∧ (blockRead (blockJob [[0xF000000000000000]] 0)).1 = .end_ 0x02000008 ∧
    (from0 fun d => { jobbed 1 8 d with tq := { d.tq with skip := true } }).dev.tq.skip = true ∧
    (let n := 8 * (codedBlock.map List.length).sum
    let s := blockJob codedBlock 4096
    let x := decodeBlock s.dev.jobCap (s.dev.jobSpace - s.dev.jobOutDone) (blockBytes codedBlock)
    (blockRead s).1 = .block codedBlock (0x02000000 + n) ∧ blockFraming codedBlock = true ∧ x.2.2 = (false, none) ∧
      (takeAll 4 (jobNeeds 0x02000000 n 0x02001000 (storedBytes x.1).length s.dev) s.dev).1 = true ∧ (jobAccess 0x02001000 true s.dev).1 = true ∧
      (jobAccess 0xF0000000 true s.dev).1 = false ∧ blockEnd (blockJob codedBlock 8) codedBlock = (true, none) ∧
      blockEnd { s with dev := s.dev.put F.CMP_JOB_CAP_OUT_CAP 8 } codedBlock = (false, some .expansion)) ∧
    (∀ f ∈ [(flipped 1 6, some BlockFail.crcFail), (flipped 2 0, some .format)],
      (blockRead (blockJob f.1 4096)).1 = .block f.1 0x02000020 ∧ blockFraming f.1 = true ∧ blockEnd (blockJob f.1 4096) f.1 = (false, f.2)) ∧
    (let mixed : List (List Word64) := [[0xB040800000000000, 0], [0xB041400000000000, 0]]
    (blockRead (blockJob mixed 4096)).1 = .block mixed 0x02000020 ∧ blockFraming mixed = false) := by decide +kernel

/-- Lane l in a stage. -/
def laneAt (l st : Nat) (d : Dev) : Dev := d.put (F.LNK_LANE_STATUS_STAGE l) st

theorem witness_LaneBringUp :
    (∀ st ∈ [0, 1, 2, 3, 4, 6, 7], (from0 (laneAt 17 st)).dev.stage 17 = st) ∧ ((from0 (laneAt 17 1)).dev.lane 17).probe = false ∧
    ((from0 fun d => (laneAt 17 1 d).setLane 17 { probe := true }).dev.lane 17).probe = true ∧ ((from0 (laneAt 17 2)).dev.lane 17).idle = false ∧
    ((from0 fun d => (laneAt 17 2 d).setLane 17 { idle := true }).dev.lane 17).idle = true ∧
    (from0 (laneAt 17 3)).dev.is (F.LNK_LANE_STATUS_SYM_LOCK 17) = false ∧ (from0 fun d => (laneAt 17 3 d).put (F.LNK_LANE_STATUS_SYM_LOCK 17) 1).dev.is (F.LNK_LANE_STATUS_SYM_LOCK 17) = true ∧
    (from0 fun d => (laneAt 17 2 d).put (F.LNK_LANE_STATUS_PRBS_BUSY 17) 1).dev.is (F.LNK_LANE_STATUS_PRBS_BUSY 17) = true ∧
    (from0 (laneAt 17 2)).dev.is (F.LNK_LANE_STATUS_PRBS_BUSY 17) = false ∧ ((from0 (laneAt 17 2)).dev.lane 17).warm = false ∧
    ((from0 fun d => (laneAt 17 2 d).setLane 17 { warm := true }).dev.lane 17).warm = true ∧
    17 < State.reset.dev.lnk.lanes.length ∧ isTiming (portOf 17) = true ∧ isTiming (portOf 15) = false ∧ (State.reset.dev.port (portOf 15)).rate ≠ 0 ∧
    (let s := from0 fun d => (laneAt 15 2 d).setPort (portOf 15) { rate := 0 }
    (s.dev.port (portOf 15)).rate = 0 ∧ s.dev.stage 15 = 2) := by decide +kernel

/-- A capability set with its CRC. -/
def capBytes : List Byte := List.replicate 12 0 ++ octets 2 (crc16 (List.replicate 12 0))

theorem witness_ActiveLanes :
    (from0 (laneAt 15 5)).dev.stage 15 = 5 ∧ isTiming (portOf 15) = false ∧ (from0 (laneAt 15 6)).dev.stage 15 = 6 ∧ (from0 (laneAt 15 4)).dev.stage 15 = 4 ∧
    capBytes.length = 14 ∧ crc16 (capBytes.take 12) = bytesNat (capBytes.drop 12) ∧ ((from0 (laneAt 15 4)).dev.lane 15).caps = none ∧
    (let s := from0 fun d => (laneAt 15 5 d).put (F.LNK_PORT_STATUS_ACTIVE (portOf 15)) 1
    s.dev.is (F.LNK_PORT_STATUS_ACTIVE (portOf 15)) = true ∧ capMoved (portOf 15) capBytes s.dev = true ∧ portOf 15 < s.dev.lnk.ports.length) ∧
    crc16 ((List.replicate 14 (1 : Byte)).take 12) ≠ bytesNat ((List.replicate 14 (1 : Byte)).drop 12) := by decide +kernel

/-- Port UA ACTIVE on lanes 0 to 3. -/
def active4 (d : Dev) : Dev := ((laneAt 0 5 (laneAt 3 5 d)).put (F.LNK_PORT_STATUS_WIDTH 0) 4).put (F.LNK_PORT_STATUS_ACTIVE 0) 1

theorem witness_BlocksAndCredits :
    State.reset.dev.stage 17 ≠ 5 ∧
    (let s := from0 active4
    s.dev.stage 0 = 5 ∧ s.dev.stage 3 = 5 ∧ isTiming (portOf 3) = false ∧ laneIdx 3 < s.dev.runWidth 0 ∧ s.dev.is (F.LNK_PORT_STATUS_ACTIVE 0) = true ∧ laneIdx 3 ≠ 0 ∧ laneIdx 0 = 0 ∧
      s.dev.outShort = [] ∧ s.dev.outCtl = [] ∧ (s.dev.lane 3).capOut = 0 ∧ (s.dev.port 0).txMsg = none ∧ nextMsg 0 s.dev = none ∧ vl2Waits 0 s.dev = false) ∧
    bits (0x40001000 : Word) 18 13 = 0 ∧
    (bits (0x40002000 : Word) 31 30 = 1 ∧ bits (0x40002000 : Word) 18 13 = ([7] : List Word64).length ∧ bits (0x40002000 : Word) 28 19 = ((from0 active4).dev.port 0).vl1.rxNext) ∧
    (bits (0x60002000 : Word) 31 30 = 1 ∧ bits (0x60002000 : Word) 18 13 = ([7] : List Word64).length ∧ bits (0x60002000 : Word) 28 19 = ((from0 active4).dev.port 0).vl1.rxNext) ∧
    (bit (0x40002000 : Word) 29 = false ∧ bit (0x60002000 : Word) 29 = true ∧ ((from0 active4).dev.port 0).vl1.early = [] ∧ ((from0 active4).dev.port 0).vl1.skip = false ∧
      0 < (from0 active4).dev.lnk.ports.length) ∧
    (∀ st ∈ [2, 3, 4, 6], (from0 (laneAt 17 st)).dev.stage 17 = st ∧ (from0 (laneAt 17 st)).dev.is (F.LNK_LANE_STATUS_PRBS_BUSY 17) = false) ∧
    (((from0 (laneAt 17 2)).dev.lane 17).idle = false ∧ ((from0 (laneAt 17 4)).dev.lane 17).capOut = 0 ∧ isTiming (portOf 17) = true ∧ ((from0 (laneAt 17 6)).dev.lane 17).lpOut = 0 ∧
      ((from0 fun d => (laneAt 15 6 d).setLane 15 { lpOut := 1 }).dev.lane 15).lpOut = 1 ∧ ((from0 fun d => (laneAt 17 4 d).setLane 17 { capOut := 16 }).dev.lane 17).capOut ≠ 0) ∧
    (let s (limit : Nat) := from0 fun d => ((active4 d).setUpPort 0 { job := some { turn := 5, kind := .first, left := [1] } }).setPort 0 { vl2 := { limit := limit } }
    vl2Waits 0 (s 0).dev = true ∧ maySend ((s 0).dev.port 0).vl2 = false ∧ maySend ((s 1).dev.port 0).vl2 = true ∧ ((s 1).dev.port 0).abort = false ∧
      ((s 1).dev.upPort 0).job.map (·.left) = some [1]) ∧
    (let s := from0 fun d => (active4 d).setPort 0 { txMsg := some [1], vl1 := { limit := 1 } }
    (s.dev.port 0).txMsg.isSome = true ∧ maySend (s.dev.port 0).vl1 = true ∧ vl2Waits 0 s.dev = false) ∧
    (from0 fun d => (active4 d).setLane 3 { capOut := 1 }).dev.outCtl = [] ∧ ((from0 fun d => (active4 d).setLane 3 { capOut := 1 }).dev.lane 3).capOut = 1 ∧
    State.reset.dev.is (F.LNK_PORT_STATUS_ACTIVE 9) = false ∧
    (from0 fun d => { active4 d with outShort := [{ port := 0, body := [1, 2] }] }).dev.outShort.find? (fun x => x.port == 0) = some { port := 0, body := [1, 2] } ∧
    (from0 fun d => { active4 d with outCtl := [(0, 7)] }).dev.outCtl.find? (fun c => c.1 == 0) = some (0, 7) ∧ isTiming 10 = true ∧
    ((State.reset.dev.port 9).vl false).early = [] ∧
    (let s := from0 fun d => { d with clk := { d.clk with ct := 256 } }.setPort 9 { vl1 := { early := [{ seq := 1, mark := false, aborted := false, words := [], at_ := 0 }] } }
    9 < s.dev.lnk.ports.length ∧ (((s.dev.port 9).vl (1 == 2)).early.map fun x => (x.seq, decide (x.at_ + 256 ≤ s.dev.nowCt))) = [((((s.dev.port 9).vl (1 == 2)).rxNext + 1) % 1024, true)]) := by
  decide +kernel

theorem witness_LinkCommands :
    (portLanes 12 = 0 ∧ portLanes 15 = 0 ∧ portLanes 11 ≠ 0 ∧ laneBonded 18 = false ∧ laneBonded 31 = false ∧ laneBonded 17 = true) ∧
    retrainRuns 11 State.reset.dev = false ∧ retrainRuns 11 (from0 fun d => d.setPort 11 { retrain := true }).dev = true ∧
    (∀ p ∈ [11, 12, 15], ∀ op ∈ [1, 2], Accepted 0x0701 ctx [pack32 [(19, 16, p), (2, 0, op)]] State.reset) ∧
    (∀ l ∈ [17, 18, 31], Accepted 0x0701 ctx [pack32 [(27, 24, 12), (12, 8, l), (2, 0, 3)]] State.reset ∧ Accepted 0x0701 ctx [pack32 [(27, 24, 13), (12, 8, l), (2, 0, 3)]] State.reset ∧
      Accepted 0x0701 ctx [pack32 [(12, 8, l), (2, 0, 4)]] State.reset) ∧
    (from0 (laneAt 17 5)).dev.stage 17 = 5 ∧ State.reset.dev.stage 17 ≠ 5 ∧
    State.reset.dev.is (F.LNK_LANE_STATUS_PRBS_BUSY 17) = false ∧ (from0 fun d => d.put (F.LNK_LANE_STATUS_PRBS_BUSY 17) 1).dev.is (F.LNK_LANE_STATUS_PRBS_BUSY 17) = true := by
  refine ⟨by decide +kernel, by decide +kernel, by decide +kernel, ?_, ?_, by decide +kernel⟩
  · intro p hp op ho
    simp only [List.mem_cons, List.not_mem_nil, or_false] at hp ho
    rcases hp with rfl | rfl | rfl <;> rcases ho with rfl | rfl <;> exact acc (by decide +kernel)
  · intro l hl
    simp only [List.mem_cons, List.not_mem_nil, or_false] at hl
    rcases hl with rfl | rfl | rfl <;> exact ⟨acc (by decide +kernel), acc (by decide +kernel), acc (by decide +kernel)⟩

/-- Word 0 of an entry of SP7 with its excitation. -/
def excited : Word := pack32 [(31, 31, 1), (30, 30, 1), (29, 24, 7), (17, 17, 1)]

/-- The sequencer on, with its last entry enabled. -/
def sequenced (d : Dev) : Dev := (((d.put F.MON_CFG_SEQ_EN 1).put F.MON_CFG_LAST 62).setReg (R.MON_SEQ_ENTRY0 62) excited).setMon { d.mon with next := 62 }

theorem witness_MonitorEntries :
    (from0 (inMode 11)).dev.monOn = false ∧ (State.reset.dev.monOn = true ∧ State.reset.dev.mon.cal = none ∧ State.reset.dev.mon.inj = [] ∧ State.reset.dev.is F.MON_CFG_SEQ_EN = false ∧
      State.reset.dev.mon.run = none) ∧
    ((from0 fun d => d.setMon { d.mon with inj := [(0, 0)] }).dev.mon.inj = (0, 0) :: [] ∧ bit (0 : Word) 17 = false) ∧
    (let s := from0 sequenced
    s.dev.mon.inj = [] ∧ s.dev.is F.MON_CFG_SEQ_EN = true ∧ enabledFrom 63 (if s.dev.get F.MON_CFG_LAST < s.dev.mon.next then 0 else s.dev.mon.next) s.dev = some 62 ∧
      s.dev.reg (R.MON_SEQ_ENTRY0 62) = excited ∧ bit excited 17 = true ∧ dutyBroken (bits excited 29 24) s.dev = false) ∧
    (let s := from0 fun d => (sequenced d).setMon { (sequenced d).mon with exc := [(7, (0, 1))] }
    dutyBroken (bits excited 29 24) s.dev = true) ∧
    (let c : CalStep := { step := 0, input := 0, gain := 0, fs := 2500000, wait := 1 }
    ∀ b ∈ [(true, 1), (false, 0), (false, 1)], (from0 fun d => d.setMon { d.mon with cal := some { c with running := b.1, wait := b.2 }, inj := [(0, 0)] }).dev.mon.cal =
      some { c with running := b.1, wait := b.2 }) ∧
    (let s := from0 fun d => (sequenced d).setMon { (sequenced d).mon with exc := [(7, (0, 1))], inj := [(excited, 0)] }
    s.dev.mon.inj = (excited, 0) :: [] ∧ bit excited 17 = true ∧ dutyBroken (bits excited 29 24) s.dev = true) ∧
    (∀ st ∈ [MonStage.settle, .convert, .delay], (from0 fun d => d.setMon { d.mon with run := some { e := 62, w0 := excited, w1 := 0, stage := st } }).dev.mon.run =
      some { e := 62, w0 := excited, w1 := 0, stage := st }) := by decide +kernel

/-- An entry that runs: SP7 with excitation, or an input without. -/
def running (w0 w1 : Word) (d : Dev) : Dev := d.setMon { d.mon with run := some { e := 62, w0 := w0, w1 := w1, stage := .convert } }

theorem witness_MonitorConversions :
    ((from0 (running excited 0x01000000)).dev.mon.run.map (fun r => (r.stage, r.lead)) = some (.convert, none) ∧ (from0 (running excited 0x01000000)).dev.monOn = true) ∧
    (bit excited 17 = true ∧ (from0 fun d => (running excited 0 d).put (F.MON_SP_CFG_WIRES 7) 1).dev.get (F.MON_SP_CFG_WIRES (bits excited 29 24)) = 1) ∧
    (bit (0x30000000 : Word) 17 = false ∧ 0 + 1 < (if bits (0x02000000 : Word) 31 24 = 0 then 256 else bits (0x02000000 : Word) 31 24) ∧
      (if bits (0x01000000 : Word) 31 24 = 0 then 256 else bits (0x01000000 : Word) 31 24) ≤ 0 + 1 ∧ (-8388607 : Int) < -8388606 ∧ (8388606 : Int) < 8388607) ∧
    (let c (run : Bool) (n : Nat) : CalStep := { step := 1, input := 0, gain := 0, fs := 2500000, wait := 0, running := run, codes := List.replicate n 0 }
    let s (run : Bool) (n : Nat) := from0 fun d => d.setMon { d.mon with cal := some (c run n) }
    (s true 15).dev.monOn = true ∧ (s true 15).dev.mon.run = none ∧ (s true 15).dev.mon.cal = some (c true 15) ∧ (c true 15).codes.length < 16 ∧ (c true 15).step < 2 ∧
      (s false 0).dev.mon.cal = some (c false 0) ∧ 16 ≤ (c true 16).codes.length ∧ (s true 16).dev.mon.cal = some (c true 16)) ∧
    ((from0 (running excited 0)).dev.mon.run.map (·.stage) = some .convert ∧
      bit ((from0 fun d => (running excited 0 d).setReg R.MON_STATUS 0x00800000).dev.reg R.MON_STATUS) (16 + 7) = true ∧ bit ((from0 (running excited 0)).dev.reg R.MON_STATUS) (16 + 7) = false) ∧
    (from0 fun d => (d.put F.MON_CFG_REF_EN 1).setMon { d.mon with refSince := some 196 }).dev.mon.refSince = some 196 ∧
    (from0 fun d => (d.put F.MON_CFG_REF_EN 1).setMon { d.mon with refSince := some 195 }).dev.is F.MON_CFG_REF_EN = true ∧ State.reset.dev.is F.MON_STATUS_REF_READY = false ∧
    State.reset.dev.mon.refSince = none := by decide +kernel

/-- A request that names SP7 at gain 0 and spans 1 250 000; each step is asked for in STANDBY, during a step, in mode HYBRID and of no input. -/
theorem witness_MonitorRequests :
    (∀ q ∈ [[excited, 0x01000000], [0, 0]], Accepted 0x0801 ctx q State.reset) ∧ monEntryOk (excited) = true ∧ monEntryOk 0x3F000000 = false ∧ State.reset.dev.mon.inj.length < 4 ∧
    (from0 fun d => d.setMon { d.mon with inj := List.replicate 4 (0, 0) }).dev.mon.inj.length = 4 ∧ Accepted 0x0801 ctx [excited, 0] (from0 fun d => d.setMon { d.mon with inj := List.replicate 4 (0, 0) }) ∧
    (∀ step, step < 4 → Accepted 0x0802 ctx (([0x07000000, 1250000] : List Word).modify 0 (fun x => setBits x 31 30 step)) State.reset) ∧
    (State.reset.dev.mode = .standby ∧ State.reset.dev.mon.cal = none ∧ (from0 (inMode 5)).dev.mode ≠ .standby ∧
      monEntryOk (pack32 [(29, 24, bits (0x07000000 : Word) 29 24)]) = true ∧ (1250000 : Word).toInt * 2 ^ bits (0x07000000 : Word) 23 21 = 1250000 ∧
      monEntryOk (pack32 [(29, 24, bits (0x3F000000 : Word) 29 24)]) = false) := by
  refine ⟨?_, by decide +kernel, by decide +kernel, by decide +kernel, by decide +kernel, acc (by decide +kernel), ?_, by decide +kernel⟩
  · intro q hq
    simp only [List.mem_cons, List.not_mem_nil, or_false] at hq
    rcases hq with rfl | rfl <;> exact acc (by decide +kernel)
  · intro step h
    interval_cases step <;> exact acc (by decide +kernel)

/-- A calibration step that runs, with n codes taken. -/
def calRunning (step n : Nat) (d : Dev) : Dev :=
  d.setMon { d.mon with cal := some { step := step, input := 0, gain := 0, fs := 2500000, wait := 0, running := true, codes := List.replicate n 8388608 } }

theorem witness_CalibrationAndBiasLoop :
    State.reset.dev.mon.cal = none ∧ (∀ step ∈ [0, 1, 2], (from0 (calRunning step 16)).dev.mon.cal.map (fun c => (c.step, c.running, c.codes.length)) = some (step, true, 16)) ∧
    ((from0 (calRunning 1 14)).dev.mon.cal.map (·.codes.length) = some 14 ∧ (from0 (calRunning 1 15)).dev.mon.cal.map (·.codes.length) = some 15 ∧
      (from0 (calRunning 1 15)).dev.monOn = true) ∧
    16 ≤ ((from0 fun d => (calRunning 2 0 d).setBudAct 2 6 { got := 16 }).dev.budAct 2 6).got ∧ ((from0 fun d => (calRunning 2 0 d).setBudAct 2 6 { got := 15 }).dev.budAct 2 6).got < 16 ∧
    calGain 2500000 0 ((List.replicate 16 8388608).foldl (· + ·) 0) 0 = some (2 ^ 22) ∧ calGain 2500000 0 0 0 = none ∧
    State.reset.dev.mon.bias = none ∧ ((from0 fun d => d.setMon { d.mon with bias := some [] }).dev.mon.bias = some [] ∧ (State.reset.dev.budAct 0 1).got < 64) ∧
    64 ≤ ((from0 fun d => d.setBudAct 0 1 { got := 64 }).dev.budAct 0 1).got ∧
    (let n := State.reset.dev.get F.MON_BIAS_LIMITS_OPEN_HOLD
    kfind (from0 fun d => d.setMon { d.mon with hold := [(7, (n, false))] }).dev.mon.hold 7 = some (n, false)) ∧
    (kfind (from0 fun d => (d.put F.MON_BIAS_LIMITS_OPEN_HOLD 5).setMon { d.mon with hold := [(7, (4, false))] }).dev.mon.hold 7 = some (4, false) ∧
      4 < (from0 fun d => d.put F.MON_BIAS_LIMITS_OPEN_HOLD 5).dev.get F.MON_BIAS_LIMITS_OPEN_HOLD) ∧ kfind State.reset.dev.mon.hold 7 = none := by decide +kernel

/-- A GPB with every enable as the low six bits of word 19 say. -/
def gpb (flags : Word) : List Word :=
  [0x0001FFFF, 1] ++ List.replicate 8 1 ++ [0x00010001, 0, 0, 1, 0, 1, 0, 0x0001000A, 0, flags] ++ List.replicate 12 0

/-- All three lanes vote and a GPB is in force. -/
def guarded (flags : Word) (d : Dev) : Dev := d.setGrd { d.grd with gpb := some (gpb flags), entered := true }

theorem witness_GuardInputsTrip :
    State.reset.dev.is (F.GRD_LANE_STATUS_VOTING 2) = true ∧ (from0 fun d => d.put (F.GRD_LANE_STATUS_VOTING 2) 0).dev.is (F.GRD_LANE_STATUS_VOTING 2) = false ∧
    State.reset.dev.grd.gpb = none ∧ (from0 (guarded 0x1F)).dev.grd.gpb = some (gpb 0x1F) ∧ gpbHvEn (gpb 0x1F) 1 = true ∧ gpbHvEn (gpb 0) 1 = false ∧ gpbInEn (gpb 0) = false ∧
    (gpbInEn (gpb 0x1F) = true ∧ (from0 fun d => (((guarded 0x1F d).put F.GRD_STATUS_IN_A 1).put F.GRD_STATUS_IN_B 0).put F.GRD_TRIP_ACTIVE_EQUIV 0).dev.is F.GRD_STATUS_IN_A ≠
      (from0 fun d => (((guarded 0x1F d).put F.GRD_STATUS_IN_A 1).put F.GRD_STATUS_IN_B 0).put F.GRD_TRIP_ACTIVE_EQUIV 0).dev.is F.GRD_STATUS_IN_B) ∧
    (from0 fun d => d.put F.GRD_TRIP_ACTIVE_EQUIV 1).dev.is F.GRD_TRIP_ACTIVE_EQUIV = true ∧ gpbChainEn (gpb 0) = false ∧ gpbChainEn (gpb 0x1F) = true ∧ gpbChainTrip (gpb 0x1F) = true ∧
    gpbChainTrip (gpb 0xF) = false ∧ (from0 fun d => d.setGrd { d.grd with chainLost := true }).dev.grd.chainLost = true ∧ State.reset.dev.grd.chainLost = false ∧
    bit ((from0 fun d => d.setReg R.GRD_TRIP_LATCHED 0x80000000).dev.reg R.GRD_TRIP_LATCHED) 31 = true ∧ bit (State.reset.dev.reg R.GRD_TRIP_LATCHED) 31 = false := by decide +kernel

/-- A guard that is ENABLED. -/
def enabled (d : Dev) : Dev := ((guarded 0 d).put F.GRD_STATUS_FB_A 1).put F.GRD_STATUS_FB_B 1

theorem witness_OutputTests :
    ((from0 enabled).dev.guardState = 2 ∧ (from0 enabled).dev.grd.test = none) ∧ State.reset.dev.guardState ≠ 2 ∧
    (∀ t ∈ [({ b := true, void := true } : GuardTest), { b := true }, { b := true, returned := true }, { b := true, lowOk := true }],
      (from0 fun d => (enabled d).setGrd { (enabled d).grd with test := some t }).dev.grd.test = some t) ∧
    (from0 enabled).dev.guardFb true = true ∧ State.reset.dev.guardFb true = false ∧ (from0 enabled).dev.guardFb true = (from0 enabled).dev.guardOut true ∧
    (from0 fun d => (enabled d).put F.GRD_STATUS_FB_B 0).dev.guardFb true ≠ (from0 fun d => (enabled d).put F.GRD_STATUS_FB_B 0).dev.guardOut true := by decide +kernel

/-- A word all of whose bits have a field passes. -/
theorem maskOk_all (x : Word) : maskOk allBits x = true := by
  have h := x.isLt
  simp only [maskOk, allBits, beq_iff_eq]
  rw [show (0xFFFFFFFF : Nat) = 2 ^ 32 - 1 from rfl, Nat.and_two_pow_sub_one_eq_mod, Nat.mod_eq_of_lt h]

/-- A GPB pending. -/
def pendingGpb (d : Dev) : Dev := d.setGrd { d.grd with pending := some (gpb 0) }

/-- Whatever its check word is, a CONFIRM of it is accepted, and so is one of another word. -/
theorem witness_Confirm (x : Word) : Accepted 0x0902 ctx [x, 1] (from0 pendingGpb) ∧ wordAt (gpb 0) 1 = 1 ∧ (from0 pendingGpb).dev.grd.pending = some (gpb 0) :=
  ⟨⟨by decide +kernel, by decide +kernel, by decide +kernel, by decide +kernel, _, rfl, by simp [payOk, maskOk_all, List.range_zero]⟩, by decide +kernel, rfl⟩

theorem witness_GuardVotesAndMessages :
    State.reset.dev.guardVotes = 3 ∧ (from0 fun d => d.put F.GRD_STATUS_VOTING 1).dev.guardVotes < 2 ∧
    (let s := from0 fun d => (d.put F.GRD_STATUS_VOTING 3).put (F.GRD_LANE_STATUS_VOTING 2) 0
    s.dev.guardVotes = 2 ∧ s.dev.is (F.GRD_LANE_STATUS_VOTING 0) = true ∧ s.dev.is (F.GRD_LANE_STATUS_VOTING 1) = true ∧ s.dev.is (F.GRD_LANE_STATUS_VOTING 2) = false) ∧
    (Accepted 0x0901 ctx (gpb 0) State.reset ∧ gpbOk (gpb 0) = true ∧ gpbField (gpb 0) 0 15 0 = 0xFFFF) ∧ (Accepted 0x0901 ctx (List.replicate 32 0) State.reset ∧ gpbOk (List.replicate 32 0) = false) ∧
    Accepted 0x0901 ctx (gpb 0) (from0 (guarded 0)) ∧
    Accepted 0x0902 ctx [0, 2] (from0 pendingGpb) ∧
    Accepted 0x0902 ctx [0, 1] State.reset ∧
    (Accepted 0x0903 ctx [] (from0 (guarded 0)) ∧ State.reset.dev.reg R.GRD_TRIP_ACTIVE = 0 ∧ 2 ≤ State.reset.dev.guardVotes) ∧ Accepted 0x0903 ctx [] State.reset ∧
    (Accepted 0x0903 ctx [] (from0 fun d => d.setReg R.GRD_TRIP_ACTIVE 1)) :=
  ⟨by decide +kernel, by decide +kernel, by decide +kernel, ⟨acc (by decide +kernel), by decide +kernel⟩, ⟨acc (by decide +kernel), by decide +kernel⟩, acc (by decide +kernel),
    acc (by decide +kernel), acc (by decide +kernel),
    ⟨acc (by decide +kernel), by decide +kernel⟩, acc (by decide +kernel), acc (by decide +kernel)⟩

/-! ### Witnesses: faults, security, modes, DMA, memory -/

theorem witness_FaultQueue :
    State.reset.dev.flt.q = [] ∧ (from0 fun d => d.setFlt { d.flt with q := [(1, 2)] }).dev.flt.q = (1, 2) :: [] ∧ State.reset.dev.isolated .core = false ∧
    (from0 fun d => d.setFlt { d.flt with isolated := [.core] }).dev.isolated .core = true ∧ bit (1 : Word) 0 = true ∧ bit (2 : Word) 0 = false ∧
    Accepted 0x0A01 ctx [0] State.reset ∧ Accepted 0x0A01 ctx [40] State.reset ∧ Accepted 0x0A01 ctx [41] State.reset ∧ Accepted 0x0A02 ctx [0x80000007] State.reset :=
  ⟨by decide +kernel, by decide +kernel, by decide +kernel, by decide +kernel, by decide +kernel, by decide +kernel, acc (by decide +kernel), acc (by decide +kernel),
    acc (by decide +kernel), acc (by decide +kernel)⟩

/-- A self-test of chain 4 of unit 131. -/
def chainTest : TestReq := { elem := .chain 131 4, source := 0, kind := 1, addr := 0 }

theorem witness_SelfTests :
    State.reset.dev.flt.tests = [] ∧
    (let s := from0 fun d => d.setFlt { d.flt with tests := [chainTest] }
    s.dev.flt.running = none ∧ s.dev.flt.tests = chainTest :: [] ∧ testReady chainTest.elem s.dev = true) ∧
    testReady (.lane 17) (from0 (laneAt 17 5)).dev = false ∧
    (∀ again ∈ [false, true], (from0 fun d => d.setFlt { d.flt with running := some (chainTest, again) }).dev.flt.running = some (chainTest, again)) ∧
    (testPips chainTest.elem = (0, 1) ∧ ((from0 fun d => d.setBudAct 0 3 { got := 15 }).dev.budAct 0 3).got < 16 * 1 ∧ 16 * 1 ≤ ((from0 fun d => d.setBudAct 0 3 { got := 16 }).dev.budAct 0 3).got) := by decide +kernel

/-- What the fuses and the certificate hold is a value of Config. -/
theorem witness_SecurityMessages :
    (Accepted 0x0B02 ctx [0, 5] (from0 fun d => { d with time := { d.time with st := 6 } }) ∧ Accepted 0x0B02 ctx [0, 5] (from0 fun d => { d with time := { d.time with st := 5 } })) ∧
    (Accepted 0x0B03 ctx (List.replicate 24 1) State.reset ∧ State.reset.dev.sec.bankUsed = 0 ∧ kfind State.reset.dev.sec.ownerHash 0 = none) ∧
    (Accepted 0x0B03 ctx (List.replicate 24 1) (from0 fun d => d.setSec { d.sec with bankUsed := 8 })) ∧
    (Accepted 0x0B01 ctx (List.replicate 8 1 ++ [0]) State.reset ∧ Accepted 0x0B01 ctx (List.replicate 8 1 ++ [1]) State.reset) ∧
    (Accepted 0x0B04 ctx (3 :: 0x200000 :: List.replicate 12 0) State.reset ∧ State.reset.dev.mode = .standby ∧ State.reset.dev.sec.session = none ∧
      (wordAt (3 :: 0x200000 :: List.replicate 12 0) 1).toNat ≤ slotSize 3) ∧
    (slotSize 3 < (0x200001 : Word).toNat ∧ (from0 fun d => d.setSec { d.sec with session := some { kind := 1, total := 1, hash := [] } }).dev.sec.session.isSome = true) ∧
    (Accepted 0x0B07 ctx (16 :: List.replicate 10 0) State.reset ∧ 16 ≤ bits (16 : Word) 7 0) :=
  ⟨⟨acc (by decide +kernel), acc (by decide +kernel)⟩, ⟨acc (by decide +kernel), by decide +kernel⟩, acc (by decide +kernel), ⟨acc (by decide +kernel), acc (by decide +kernel)⟩,
    ⟨acc (by decide +kernel), by decide +kernel⟩, by decide +kernel, acc (by decide +kernel), by decide +kernel⟩

/-- Challenges for this die, with a wrong nonce and with the nonce that stands. -/
theorem witness_DebugChallenge (a b : Word) (h1 : a = toWord (Config.dieId.toNat / 2 ^ 32)) (h2 : b = toWord Config.dieId.toNat) :
    (let w : List Word := 7 :: 1 :: List.replicate 7 0 ++ [a, b]
    Accepted 0x0B07 ctx w State.reset ∧ bits (wordAt w 0) 7 0 < 8 ∧ wordAt w 9 = toWord (Config.dieId.toNat / 2 ^ 32) ∧ wordAt w 10 = toWord Config.dieId.toNat ∧
      wordAt w (1 + 0) ≠ State.reset.dev.reg (R.SEC_DEBUG_NONCE 0)) ∧
    (∀ i, i < 8 → wordAt (7 :: List.replicate 8 0 ++ [a, b]) (1 + i) = State.reset.dev.reg (R.SEC_DEBUG_NONCE i)) := by
  refine ⟨⟨⟨by decide +kernel, by decide +kernel, by decide +kernel, by decide +kernel, _, rfl, ?_⟩, ?_, h1, h2, ?_⟩, ?_⟩
  · have ha : maskOk allBits a = true := maskOk_all a
    have hb : maskOk allBits b = true := maskOk_all b
    simp only [maskOk, beq_iff_eq] at ha hb
    simp [payOk, List.range_zero, List.replicate, maskOk, ha, hb]
    decide
  · show bits (7 : Word) 7 0 < 8
    decide +kernel
  · show (1 : Word) ≠ State.reset.dev.reg (R.SEC_DEBUG_NONCE 0)
    decide +kernel
  · intro i hi
    interval_cases i <;> rfl

/-- A session of KIND 1 of 8 bytes. -/
def inSession (ready : Bool) (d : Dev) : Dev := d.setSec { d.sec with session := some { kind := 1, total := 8, hash := [], ready := ready } }

/-- What the image slots hold and what a signature verifies are values of Config. -/
theorem witness_FirmwareUpdate :
    State.reset.dev.sec.session = none ∧ (∀ b ∈ [false, true], (from0 (inSession b)).dev.sec.session.map (·.ready) = some b) ∧
    (Accepted 0x0B05 ctx [4, 1] (from0 (inSession true)) ∧ (from0 (inSession true)).dev.mode = .standby ∧ (4 : Word).toNat % 4 = 0 ∧ 2 ≤ ([4, 1] : List Word).length ∧ (4 : Word).toNat + 4 * (2 - 1) ≤ 8 ∧
      (from0 (inSession true)).dev.sec.chunks = [] ∧ 16 * ((4 * (2 - 1) + 15) / 16) ≤ ((from0 fun d => (inSession true d).setBudAct 2 6 { got := 16 }).dev.budAct 2 6).got ∧
      ((from0 fun d => (inSession true d).setBudAct 2 6 { got := 15 }).dev.budAct 2 6).got < 16 * ((4 * (2 - 1) + 15) / 16)) ∧
    ((from0 fun d => (inSession false d).setSec { (inSession false d).sec with run := [some 0, none, none] }).dev.sec.run.getD (1 - 1) none = some 0 ∧
      (from0 fun d => (inSession false d).setSec { (inSession false d).sec with run := [some 1, none, none] }).dev.sec.run.getD (1 - 1) none ≠ some 0) ∧
    (Accepted 0x0B05 ctx [2, 1] (from0 (inSession true)) ∧ (2 : Word).toNat % 4 ≠ 0 ∧ Accepted 0x0B05 ctx [0, 1] State.reset ∧ Accepted 0x0B05 ctx [0, 1] (from0 (inSession false))) ∧
    (bit (0x101 : Word) 4 = false ∧ Accepted 0x0B06 ctx [0x101] (from0 (inSession true)) ∧ bits (0x101 : Word) 1 0 = 1) ∧ Accepted 0x0B06 ctx [2] (from0 (inSession true)) ∧
    (bit (0x11 : Word) 4 = true ∧ bits (0x11 : Word) 1 0 = 1 ∧ (let s := from0 fun d => d.setSec { d.sec with trial := [(1, 0)] }
      Accepted 0x0B06 ctx [0x11] s ∧ (kfind s.dev.sec.trial 1).isSome = true ∧ s.dev.sec.run.getD (1 - 1) none = some 0)) ∧
    (Accepted 0x0B06 ctx [0x11] State.reset ∧ kfind State.reset.dev.sec.trial 1 = none) ∧ State.reset.dev.sec.copying = none ∧
    (from0 fun d => d.setSec { d.sec with copying := some 3, applyDue := true }).dev.sec.copying = some 3 ∧ State.reset.dev.sec.applyDue = false :=
  ⟨by decide +kernel, by decide +kernel, ⟨acc (by decide +kernel), by decide +kernel⟩, by decide +kernel,
    ⟨acc (by decide +kernel), by decide +kernel, acc (by decide +kernel), acc (by decide +kernel)⟩,
    ⟨by decide +kernel, acc (by decide +kernel), by decide +kernel⟩, acc (by decide +kernel), ⟨by decide +kernel, by decide +kernel, acc (by decide +kernel), by decide +kernel⟩,
    ⟨acc (by decide +kernel), by decide +kernel⟩, by decide +kernel⟩

/-- Debug scopes unlocked. -/
def withScope (m : Nat) (d : Dev) : Dev := d.put F.SEC_STATUS_SCOPE m

theorem witness_WorldsAndDebug :
    (from0 fun d => d.put (F.SEC_REGION_ATTR_LOCK 63) 1).dev.is (F.SEC_REGION_ATTR_LOCK 63) = true ∧ State.reset.dev.is (F.SEC_REGION_ATTR_LOCK 63) = false ∧
    (State.reset.dev.scope 0 = false ∧ State.reset.dev.scope 1 = false ∧ State.reset.dev.scope 3 = false) ∧
    ((from0 (withScope 3)).dev.scope 0 = true ∧ (from0 (withScope 3)).dev.scope 1 = true ∧ (from0 (withScope 3)).dev.scope 3 = false) ∧ ([0] : List Word).length < 2 ∧
    hdrId (wordAt pingWords 0) ≠ 0x0B07 ∧ 2 ≤ ([0x0B070100, 0] : List Word).length ∧ hdrId (wordAt [0x0B070100, 0] 0) = 0x0B07 ∧ State.reset.dev.horefRuns = true ∧ (from0 (inMode 11)).dev.horefRuns = false := by decide +kernel

/-- A scan at step 1 of 2. -/
def scanning (window : Bool) (turns k : Nat) (d : Dev) : Dev :=
  ((d.put F.PWR_SCAN_CFG_N_STEPS 2).put F.PWR_SCAN_CFG_STEP_TURNS 4).setPwr { d.pwr with scan := some { k := k, window := window, turns := turns } }

theorem witness_SafeAndScan :
    (Accepted 0x0006 ctx [] State.reset ∧ State.reset.dev.mode ≠ .safe) ∧ Accepted 0x0006 ctx [] (from0 fun d => (inMode 10 d).setReg R.GRD_TRIP_LATCHED 1) ∧
    (let s := from0 (inMode 10)
    Accepted 0x0006 ctx [] s ∧ s.dev.mode = .safe ∧ s.dev.flt.holds = [] ∧ s.dev.reg R.GRD_TRIP_LATCHED = 0 ∧ s.dev.is F.GRD_TRIP_ACTIVE_DEMAND = false ∧ 2 ≤ s.dev.guardVotes ∧ s.dev.grd.gpb = none) ∧
    (Accepted 0x0006 ctx [] (from0 fun d => inMode 10 (guarded 0 d)) ∧ (from0 (guarded 0)).dev.grd.gpb.isSome = true) ∧ State.reset.dev.pwr.scan = none ∧
    (∀ w ∈ [false, true], (from0 (scanning w 4 1)).dev.pwr.scan.map (·.window) = some w) ∧
    (let s := from0 (scanning false 0 0)
    (List.range 64).all (fun n => s.dev.biasHeld n || s.dev.get (F.AFE_BTRIM_OUT_OUT n) == s.dev.get (F.AFE_BTRIM_OUT_TARGET n)) = true) ∧
    (let s := from0 fun d => ((scanning false 0 0 (guarded 0 d)).setReg R.PWR_SCAN_MASK_HI 0x80000000).put (F.AFE_BTRIM_OUT_OUT 63) 1
    s.dev.scanMasked 63 = true ∧ s.dev.biasHeld 63 = false ∧ s.dev.get (F.AFE_BTRIM_OUT_OUT 63) ≠ s.dev.get (F.AFE_BTRIM_OUT_TARGET 63)) ∧
    ((from0 (scanning true 3 0)).dev.get F.PWR_SCAN_CFG_STEP_TURNS = 4 ∧ (from0 (scanning true 4 0)).dev.scanSteps = 2) :=
  ⟨⟨acc (by decide +kernel), by decide +kernel⟩, acc (by decide +kernel), ⟨acc (by decide +kernel), by decide +kernel⟩, ⟨acc (by decide +kernel), by decide +kernel⟩, by decide +kernel⟩

theorem witness_Resets :
    State.reset.dev.sec.trial = [] ∧
    (let s := from0 fun d => d.setSec { d.sec with trial := [(3, 2)], run := [none, none, some 0] }
    s.dev.sec.trial = [(3, 2)] ∧ s.dev.sec.run.getD (3 - 1) none = some 0) ∧
    (let s := from0 fun d => (d.put F.FLT_WDOG_CFG_EN 1).setFlt { d.flt with sinceKick := max 256 (d.get F.FLT_WDOG_CFG_PERIOD) }
    s.dev.wdogRuns = true ∧ s.dev.wdogPeriod ≤ s.dev.flt.sinceKick) ∧
    (from0 (inMode 11)).dev.wdogRuns = false ∧ State.reset.dev.flt.sinceKick < State.reset.dev.wdogPeriod := by decide +kernel

/-- In a step of BOOT. -/
def booting (b : BootPhase) (d : Dev) : Dev := d.setPwr { d.pwr with boot := b }

/-- Whether an image verifies is a value of Config. -/
theorem witness_BootSteps :
    (∀ b ∈ [BootPhase.inReset, .pll, .sram, .monitor, .horef, .user, .sdram, .finish], (from0 (booting b)).dev.pwr.boot = b ∧ (from0 (booting b)).dev.pwr.porHeld = false) ∧
    State.reset.dev.pwr.boot = .ended ∧ State.reset.dev.sec.trial = [] ∧ State.reset.dev.sec.run.length = 3 ∧ kfind (from0 fun d => d.setSec { d.sec with trial := [(3, 2)] }).dev.sec.trial 3 = some 2 ∧ (0 ≤ 32 ∧ 32 ≤ 32) := by decide +kernel

/-- Channel 15 of the DMA in a state, with a descriptor that is in progress. -/
def channel (st : Nat) (x : DmaChan) (d : Dev) : Dev := (d.put (F.DMA_CH_STATE_STATE 15) st).setDmaCh 15 x

/-- A descriptor of 16 bytes, its OWN set. -/
def desc16 : List Word := [0x80000000, 0, 0, 0, 16, 0, 0, 0]

theorem witness_ChannelCommands :
    (∀ st ∈ [0, 1, 2, 3], (from0 (channel st {})).dev.get (F.DMA_CH_STATE_STATE 15) = st) ∧ ((from0 (channel 1 {})).dev.dmaCh 15).desc = none ∧
    (((from0 (channel 1 { desc := some desc16 })).dev.dmaCh 15).desc = some desc16 ∧ ((from0 (channel 1 { desc := some desc16 })).dev.dmaCh 15).err = none ∧
      ((from0 (channel 1 { desc := some desc16, moved := 15 })).dev.dmaCh 15).moved < descTotal desc16) ∧
    descTotal desc16 ≤ ((from0 (channel 1 { desc := some desc16, moved := 16 })).dev.dmaCh 15).moved ∧
    ((from0 (channel 1 { desc := some desc16, err := some (2, 0, 0) })).dev.dmaCh 15).err.isSome = true := by decide +kernel

/-- A secure channel whose ring stands in the data RAM, its budget granted. -/
def fetching (x : DmaChan) (d : Dev) : Dev :=
  (((channel 1 x (d.setReg R.SEC_WORLD_LO 0xFFFFFFFF)).setReg R.SEC_WORLD_HI 0xF).put (F.DMA_CH_RING_LO_BASE 15) (0x02000000 / 32)).setBudAct 0 4 { got := 64 }

theorem witness_DescriptorLife :
    (from0 (inMode 11)).dev.dmaRuns = false ∧
    (let s := from0 (fetching {})
    s.dev.dmaRuns = true ∧ s.dev.get (F.DMA_CH_STATE_STATE 15) = 1 ∧ (s.dev.dmaCh 15).desc = none ∧ s.dev.descAddr 15 = 0x02000000 ∧ accessErr 15 (s.dev.descAddr 15) false s.dev = none ∧
      noBudget (s.dev.burstNeeds [s.dev.descAddr 15] 32) s.dev = false ∧
      noBudget (s.dev.burstNeeds [s.dev.descAddr 15] 32) (s.dev.put (F.TRN_BUDGET_PIPS 0 4) 0) = true ∧
      (issue 15 [s.dev.descAddr 15] 32 s.dev).1 = true ∧ (readCheck (s.dev.descAddr 15) 32 1 (0x10 + 15) [] [] (issue 15 [s.dev.descAddr 15] 32 s.dev).2).1 = [] ∧
      bit (dw (leWords 8 (fabBytes s.mem 32 (s.dev.descAddr 15) s.dev).1) 0) 31 = false) ∧
    (issue 15 [0x02000000] 32 (from0 fun d => (fetching {} d).setBudAct 0 4 {}).dev).1 = false ∧
    (bit (dw desc16 0) 31 = true ∧ descBad 15 desc16 State.reset.dev = false ∧ descBad 15 (desc16.set 4 0) State.reset.dev = true) ∧
    (let s := from0 (fetching { desc := some desc16, moved := 15 })
    (s.dev.dmaCh 15).moved < descTotal desc16 ∧ descGather desc16 = false ∧ s.dev.get (F.DMA_CH_CFG_REQ_SEL 15) = 0) ∧
    (let l : List Word := [0x80000000, 0, 0x02000100, 0, 16, 0, 0, 0]
    let s := from0 (fetching { desc := some l })
    let src := descSrc l
    let dst := descDst l
    let e := s.dev.put (F.DMA_CH_STATE_STATE 15) 1
    let needs := e.burstNeeds [src, dst] 16
    min (min (descTotal l - 0) (s.dev.burstLen 15)) (min (toPage src) (toPage dst)) = 16 ∧ swapBytes (descSwap l) ≤ 16 ∧ accessErr 15 src false e = none ∧
      accessErr 15 dst true e = none ∧ unbudgeted 15 needs e = false ∧ (issue 15 [src, dst] 16 e).1 = true ∧
      (readCheck src 16 1 (0x10 + 15) [] [] (touch 15 needs (issue 15 [src, dst] 16 e).2)).1 = [] ∧
      (issue 15 [src, dst] 16 (e.setBudAct 0 4 {})).1 = false) ∧
    (let s := from0 (fetching { desc := some desc16, moved := 16 })
    descTotal desc16 ≤ (s.dev.dmaCh 15).moved ∧ accessErr 15 (s.dev.descAddr 15) true s.dev = none ∧ (issue 15 [s.dev.descAddr 15] 8 s.dev).1 = true) := by decide +kernel

theorem witness_MemoryProtection :
    ((from0 (inMode 0)).dev.mode = .boot ∧ (from0 (inMode 11)).dev.mode = .test) ∧ (State.reset.dev.mode ≠ .boot ∧ State.reset.dev.mode ≠ .test) ∧
    ((from0 fun d => d.put F.MEM_SCRUB_CFG_SRAM_EN 0).dev.is F.MEM_SCRUB_CFG_SRAM_EN = false ∧ (from0 fun d => d.put F.MEM_STATUS_SDRAM_OK 0).dev.sdramBytes = 0 ∧
      (from0 fun d => d.put F.MEM_SCRUB_CFG_MRAM_EN 0).dev.is F.MEM_SCRUB_CFG_MRAM_EN = false) ∧
    (let s (a b c : Nat) := from0 fun d => (((((((d.put F.MEM_SCRUB_CFG_SRAM_EN 1).put F.MEM_SCRUB_CFG_SDRAM_EN 1).put F.MEM_SCRUB_CFG_MRAM_EN 1).put F.MEM_STATUS_SDRAM_OK 1).put
      F.PWR_FEATURES_SDRAM_GIB 16).setBudAct 0 0 { got := a }).setBudAct 1 0 { got := b }).setBudAct 2 0 { got := c }
    let d := (s 15 31 31).dev
    d.is F.MEM_SCRUB_CFG_SRAM_EN = true ∧ d.ram.scrubTurn ≠ some d.clk.bounds ∧ (d.budAct 0 0).got < 16 ∧ 16 ≤ ((s 16 0 0).dev.budAct 0 0).got ∧
      (from0 fun d => { d with ram := { d.ram with scrubTurn := some 0 } }).dev.ram.scrubTurn = some 0 ∧
      d.is F.MEM_SCRUB_CFG_SDRAM_EN = true ∧ d.sdramBytes ≠ 0 ∧ (d.budAct 1 0).got < 32 ∧ 16 ≤ (d.budAct 1 0).got ∧ 32 ≤ ((s 0 32 0).dev.budAct 1 0).got ∧
      d.is F.MEM_SCRUB_CFG_MRAM_EN = true ∧ (d.budAct 2 0).got < 32 ∧ 16 ≤ (d.budAct 2 0).got ∧ 32 ≤ ((s 0 0 32).dev.budAct 2 0).got ∧
      (from0 fun d => d.put F.MEM_SCRUB_CFG_SDRAM_EN 0).dev.is F.MEM_SCRUB_CFG_SDRAM_EN = false) ∧
    ((from0 fun d => { d.put (F.MEM_BUCKET_CFG_LEAK_LOG2 9) 1 with clk := { d.clk with turn := 1 } }).dev.clk.turn % 2 ^ 1 ≠ 0 ∧ State.reset.dev.clk.turn % 2 ^ State.reset.dev.get (F.MEM_BUCKET_CFG_LEAK_LOG2 9) = 0) ∧
    (let s (n : Nat) (late : Bool) := from0 fun d => { d with clk := { d.clk with bounds := n }, ram := { d.ram with late := late } }
    (s 390624 false).dev.clk.bounds - (s 390624 false).dev.ram.scrubStart.getD 0 0 < 390625 ∧ 390625 ≤ (s 390625 false).dev.clk.bounds - (s 390625 false).dev.ram.scrubStart.getD 0 0 ∧
      (s 390625 false).dev.ram.late = false ∧ (s 390625 true).dev.ram.late = true) ∧
    (State.reset.dev.ram.rows = [] ∧ (from0 fun d => { d with ram := { d.ram with rows := [(5, .copying)] } }).dev.ram.rows = [(5, .copying)]) ∧
    (3 ∉ State.reset.dev.ram.flush ∧ 3 ∈ (from0 fun d => { d with ram := { d.ram with flush := [0, 1, 2, 3] } }).dev.ram.flush) ∧
    (((from0 fun d => d.setBudAct 0 6 { got := 16383 }).dev.budAct 0 6).got < 16384 ∧ 16384 ≤ ((from0 fun d => d.setBudAct 0 6 { got := 16384 }).dev.budAct 0 6).got) := by decide +kernel

end Sys2Proof.Tests
end

/-! The machine as a whole: what it holds right after reset, and that every command of the table goes on. -/

namespace Sys2Proof.Machine

open Sys2Proof.Safety

/-- A command over the block, with what its function makes of it. -/
theorem onDev_eq {f : Dev → Dev} {s : State} {d : Dev} (h : f s.dev = d) : onDev f s = .next (withDev s d) := by
  rw [← h]; rfl

/-- A read, with the word and the block that its function gives. -/
theorem onRead_eq {f : Dev → Word × Dev} {s : State} {w : Word} {d : Dev} (h : f s.dev = (w, d)) : onRead f s = .next (withDev s { d with rdata := [w] }) := by
  unfold onRead
  rw [h]
  rfl

/-- Settles O7: each part is a fact about the one fixed state, evaluated. -/
theorem resetState : Obligations.ResetState := by
  refine ⟨rfl, rfl, Memory.wf_nil, ?_⟩
  show State.reset.dev.get F.PWR_STATUS_MODE < 12 ∧ _
  decide +kernel

/-- Every arm of exec gives its next state by a function on the machine, on the block or on a read of it; an access to ADJ_DATA is the one
that is a read or a write by its operand. -/
theorem exec_goes_on (c : Instr) (s : State) : ∃ t, exec c s = .next t := by
  cases c with
  | adjDataAccess wr => cases wr <;> exact ⟨_, rfl⟩
  | _ => exact ⟨_, rfl⟩

/-- Settles O3: exec is one function for each command, and none of them ends a run. -/
theorem noCommandStops : Obligations.NoCommandStops := exec_goes_on

end Sys2Proof.Machine

/-! Register writes of the control core: the checks of an access in their order (R372, R477, R14), and what the fields of a register
take (R15). -/

namespace Sys2Proof.Machine

open Sys2Proof.Safety

theorem bit_eq_getLsbD (w : Word) (i : Nat) : bit w i = w.getLsbD i := by
  simp only [bit, nbits, Nat.add_sub_cancel_left, Nat.pow_one, Nat.shiftRight_eq_div_pow]
  rw [← BitVec.testBit_toNat, Nat.testBit_eq_decide_div_mod_eq]
  rfl

/-- Clearing the bits of a mask, in numbers and in words. -/
theorem toNat_clear (w : Word) (m : Nat) : w.toNat - (w.toNat &&& m) = (w &&& ~~~BitVec.ofNat 32 m).toNat := by
  have h := congrArg BitVec.toNat (mask_merge w 0 m)
  simpa [Nat.mod_eq_of_lt (Nat.lt_of_le_of_lt (Nat.sub_le _ _) w.isLt)] using h

theorem toNat_mask (v : Word) (m : Nat) : v.toNat &&& m = (v &&& BitVec.ofNat 32 m).toNat := by
  rw [BitVec.toNat_and, BitVec.toNat_ofNat]
  calc v.toNat &&& m = (v.toNat &&& m) % 2 ^ 32 := (Nat.mod_eq_of_lt (Nat.lt_of_le_of_lt Nat.and_le_left v.isLt)).symm
    _ = v.toNat &&& m % 2 ^ 32 := by rw [Nat.and_mod_two_pow, Nat.mod_eq_of_lt v.isLt]

/-- Replacing the bits of a mask, in numbers and in words. -/
theorem toNat_merge (w v : Word) (m : Nat) : w.toNat - (w.toNat &&& m) + (v.toNat &&& m) =
    ((w &&& ~~~BitVec.ofNat 32 m) ||| (v &&& BitVec.ofNat 32 m)).toNat := by
  have disjoint : (w &&& ~~~BitVec.ofNat 32 m) &&& (v &&& BitVec.ofNat 32 m) = 0#32 := by
    apply BitVec.eq_of_getLsbD_eq
    intro i _
    simp only [BitVec.getLsbD_and, BitVec.getLsbD_not]
    cases (BitVec.ofNat 32 m).getLsbD i <;> simp
  rw [toNat_clear, toNat_mask, ← BitVec.toNat_add_of_and_eq_zero disjoint, BitVec.add_eq_or_of_and_eq_zero _ _ disjoint]

/-- The word that a write leaves in a register without SH bits (R15). -/
def fieldsWord (r : RegRow) (w v : Word) : Word :=
  let x := (w &&& ~~~BitVec.ofNat 32 r.rw) ||| (v &&& BitVec.ofNat 32 r.rw)
  (x &&& ~~~(v &&& BitVec.ofNat 32 r.w1c)) ||| (v &&& BitVec.ofNat 32 r.w1s)

theorem bit_fieldsWord (r : RegRow) (w v : Word) {b : Nat} (hb : b < 32) :
    bit (fieldsWord r w v) b = (if r.w1s.testBit b && bit v b then true else if r.w1c.testBit b && bit v b then false
      else if r.rw.testBit b then bit v b else bit w b) := by
  simp only [bit_eq_getLsbD, fieldsWord, BitVec.getLsbD_or, BitVec.getLsbD_and, BitVec.getLsbD_not, BitVec.getLsbD_ofNat, hb, decide_true,
    Bool.true_and]
  cases r.w1s.testBit b <;> cases r.w1c.testBit b <;> cases r.rw.testBit b <;>
    simp [Bool.and_comm, Bool.or_comm]

theorem fieldsWord_of_no_fields (r : RegRow) (w v : Word) (h : r.rw ||| r.w1c ||| r.w1s = 0) : fieldsWord r w v = w := by
  obtain ⟨⟨hrw, hc⟩, hs⟩ : (r.rw = 0 ∧ r.w1c = 0) ∧ r.w1s = 0 := by simpa [Nat.or_eq_zero_iff] using h
  apply BitVec.eq_of_getLsbD_eq
  intro i hi
  rw [← bit_eq_getLsbD, ← bit_eq_getLsbD, bit_fieldsWord r w v hi]
  simp [hrw, hc, hs]

/-- A write of a register without SH bits (R15). -/
theorem writeFields_plain (r : RegRow) (k : Nat) (v : Word) (d : Dev) (h : r.sh = 0) :
    writeFields r k v d = if r.rw ||| r.w1c ||| r.w1s = 0 then d else d.setReg k (fieldsWord r (d.reg k) v) := by
  unfold writeFields
  simp only [h, Nat.and_zero, Nat.sub_zero, beq_self_eq_true, if_true, beq_iff_eq]
  split
  · rfl
  · rw [toNat_merge, toNat_mask v r.w1c, toNat_clear, toNat_mask v r.w1s, BitVec.ofNat_toNat, BitVec.setWidth_eq, ← BitVec.toNat_or, toWord,
      BitVec.ofNat_toNat, BitVec.setWidth_eq]
    rfl

/-- The world check lets secure software, and a target of the non-secure world, pass (R477). -/
theorem world_passes {secure : Bool} {off : Nat} {d : Dev} (hw : secure = true ∨ d.secureAt (0x10000000 + off) true = false) :
    (!secure && d.secureAt (regBase + off) true) = false := by
  rcases hw with h | h
  · simp [h]
  · rw [show d.secureAt (regBase + off) true = false from h, Bool.and_false]

theorem coreWrite_decode (secure : Bool) (width : Nat) {off : Nat} (v : Word) (s : State) (h : 0x130000 ≤ off) :
    coreWrite secure width off v s = withDev s (report 0x170 0x05 2 (if secure then 2 else 1) (0x10000000 + off) none s.dev) := by
  unfold coreWrite
  exact if_pos h

theorem coreWrite_violation (width : Nat) {off : Nat} (v : Word) {s : State} (h : off < 0x130000)
    (hw : s.dev.secureAt (0x10000000 + off) true = true) :
    coreWrite false width off v s = withDev s (worldViolation 2 1 (0x10000000 + off) s.dev) := by
  unfold coreWrite
  exact (if_neg (Nat.not_le.2 h)).trans (if_pos hw)

theorem coreWrite_narrow {secure : Bool} {width off : Nat} (v : Word) {s : State} (h : off < 0x130000)
    (hw : secure = true ∨ s.dev.secureAt (0x10000000 + off) true = false) (hn : width ≠ 32) :
    coreWrite secure width off v s = withDev s (report 0x170 0x06 2 (if secure then 2 else 1) (0x10000000 + off) none s.dev) := by
  unfold coreWrite
  exact (if_neg (Nat.not_le.2 h)).trans ((if_neg (Bool.eq_false_iff.1 (world_passes hw))).trans (if_pos (bne_iff_ne.2 hn)))

theorem coreWrite_reaches {secure : Bool} {off : Nat} (v : Word) {s : State} (h : off < 0x130000)
    (hw : secure = true ∨ s.dev.secureAt (0x10000000 + off) true = false) : coreWrite secure 32 off v s = writeReg off v s := by
  unfold coreWrite
  exact (if_neg (Nat.not_le.2 h)).trans ((if_neg (Bool.eq_false_iff.1 (world_passes hw))).trans (if_neg (by simp)))

theorem writeReg_fields {off : Nat} {v : Word} {s : State} {r : RegRow} (ha : s.dev.absentKey off = false) (hd : dmaKey off s.dev = some off)
    (hj : off ≠ R.CMP_JOB_CMD) (hc : commandWrite off v s.dev = none) (hr : regRow off = some r) (hn : r.cnt = false) :
    writeReg off v s = withDev s (writeFields r off v s.dev) := by
  have hj' : (off == R.CMP_JOB_CMD) = false := by simpa using hj
  unfold writeReg
  simp only [ha, Bool.false_eq_true, if_false, hd, hj', hc, hr, hn]
  rfl

/-- What a write leaves in a register without SH bits, and that it touches no other. -/
theorem writeFields_effect (r : RegRow) (k : Nat) (v : Word) (d : Dev) (h : r.sh = 0) :
    (writeFields r k v d).reg k = fieldsWord r (d.reg k) v ∧ (∀ j, j ≠ k → (writeFields r k v d).reg j = d.reg j) ∧
      writeFields r k v d = { d with regs := (writeFields r k v d).regs } := by
  rw [writeFields_plain r k v d h]
  split
  · rename_i h0
    exact ⟨(fieldsWord_of_no_fields r _ v h0).symm, fun _ _ => rfl, rfl⟩
  · exact ⟨Dev.reg_setReg_self _ _ _, fun j hj => Dev.reg_setReg_ne _ _ hj, rfl⟩

/-- Settles O16: the checks of an access in their order, then the masks of the row bit by bit. -/
theorem writesThatMissTheirRegister : Obligations.WritesThatMissTheirRegister := by
  intro s secure width off v
  have run (w : Nat) (x : Bool) : exec (.registerWrite x w off v) s = .next (coreWrite x w off v s) := rfl
  refine ⟨?_, ?_, ?_, ?_⟩
  · intro r hoff hw ha hd hj hc hr hsh hn
    obtain ⟨hself, hother, hregs⟩ := writeFields_effect r off v s.dev hsh
    refine ⟨writeFields r off v s.dev, ?_, ?_, hother, hregs⟩
    · rw [run, coreWrite_reaches v hoff hw, writeReg_fields ha hd hj hc hr hn]
    · intro b hb
      rw [hself, bit_fieldsWord r _ v hb]
  · intro hoff
    rw [run, coreWrite_decode secure width v s hoff]
    rfl
  · intro hoff hs hw
    rw [hs, run, coreWrite_violation width v hoff hw]
    rfl
  · intro hoff hw hn
    rw [run, coreWrite_narrow v hoff hw hn]
    rfl

end Sys2Proof.Machine

/-! Messages that Horef carries out itself: what each comes to in the cases its clauses name (R13, R103, R326 to R329). -/

namespace Sys2Proof.Machine

open Sys2Proof.Safety

/-! ### Messages that Horef carries out on the block alone (R321) -/

/-- An accepted message without a commit response, that is a function on the block. -/
theorem direct_answer {id : Nat} {c : MsgCtx} {w : List Word} {s t : State} {st : Nat} {out : List Word} (a : Accepted id c w s)
    (hcfg : hasCommitResponse id = false) (hm : message id c w s = (t, st, out)) : direct id c w s = answer id c st out t := by
  rw [direct_accepted a, hm]
  simp [withCommitWords, hcfg]

theorem mSetChipId_taken {w : List Word} (d : Dev) (h0 : bits (wordAt w 0) 15 0 ≠ 0) (h1 : bits (wordAt w 0) 15 0 ≠ 0xFFFF) :
    mSetChipId w d = (announceCaps { d with chipId := bits (wordAt w 0) 15 0 }, 0) := by
  simp [mSetChipId, h0, h1]

theorem mSetChipId_refused {w : List Word} (d : Dev) (h : bits (wordAt w 0) 15 0 = 0 ∨ bits (wordAt w 0) 15 0 = 0xFFFF) :
    mSetChipId w d = (d, 5) := by
  simp [mSetChipId, h]

theorem mTelemDefine_remove {w : List Word} (d : Dev) (hid : bits (wordAt w 0) 13 0 ≠ 0x3FFF) (hp : bits (wordAt w 1) 15 0 = 0) :
    mTelemDefine w d = (d.setMbx { d.mbx with telem := d.mbx.telem.filter (fun r => r.id != bits (wordAt w 0) 13 0) }, 0) := by
  simp [mTelemDefine, hid, hp]

theorem mTelemDefine_first {w : List Word} {d : Dev} (hid : bits (wordAt w 0) 13 0 ≠ 0x3FFF) (hp : bits (wordAt w 2) 15 0 < bits (wordAt w 1) 15 0)
    (hw : w.drop 4 ≠ []) (ho : ∀ o ∈ w.drop 4, offsetStatus (bits o 23 0) false d = 0) (ht : d.mbx.telem = []) :
    mTelemDefine w d = (d.setMbx { d.mbx with
      telem := [{ id := bits (wordAt w 0) 13 0, period := bits (wordAt w 1) 15 0, phase := bits (wordAt w 2) 15 0
                  toMbx := bit (wordAt w 3) 0, offsets := (w.drop 4).map (fun o => bits o 23 0) }] }, 0) := by
  have hp0 : bits (wordAt w 1) 15 0 ≠ 0 := by omega
  have hp1 : ¬ bits (wordAt w 1) 15 0 ≤ bits (wordAt w 2) 15 0 := by omega
  have hnone : (((w.drop 4).map (fun o => bits o 23 0)).map (fun o => offsetStatus o false d)).find? (· != 0) = none := by
    rw [List.map_map, List.find?_eq_none]
    rintro _ hx
    obtain ⟨o, hmem, rfl⟩ := List.mem_map.1 hx
    simp [ho o hmem]
  have hsome : ((w.drop 4).map (fun o => bits o 23 0)).isEmpty = false := by simpa using hw
  unfold mTelemDefine
  simp only [beq_false_of_ne hid, beq_false_of_ne hp0, decide_eq_false hp1, hsome, hnone, ht, Bool.or_self, Bool.false_eq_true, if_false, List.any_nil,
    List.length_nil, List.nil_append, show ¬ 32 ≤ 0 by decide]

theorem mPeek_reads {w : List Word} {d : Dev} (h4 : bits (wordAt w 0) 23 0 % 4 = 0) (h0 : bits (wordAt w 1) 6 0 ≠ 0) (hn : bits (wordAt w 1) 6 0 ≤ 124)
    (hend : bits (wordAt w 0) 23 0 + 4 * bits (wordAt w 1) 6 0 ≤ 0x130000)
    (hw : ∀ j, j < bits (wordAt w 1) 6 0 → d.secureAt (regBase + bits (wordAt w 0) 23 0 + 4 * j) false = false) :
    mPeek w d = ((peekReads (bits (wordAt w 1) 6 0) (bits (wordAt w 0) 23 0) d).2, 0, (peekReads (bits (wordAt w 1) 6 0) (bits (wordAt w 0) 23 0) d).1) := by
  have hn' : ¬ 124 < bits (wordAt w 1) 6 0 := by omega
  have hend' : ¬ 0x130000 < bits (wordAt w 0) 23 0 + 4 * bits (wordAt w 1) 6 0 := by omega
  have hany : (List.range (bits (wordAt w 1) 6 0)).any (fun i => d.secureAt (regBase + bits (wordAt w 0) 23 0 + 4 * i) false) = false := by
    simpa using hw
  unfold mPeek
  simp [h4, h0, hn', hend', hany]

theorem mGetTable_reads {w : List Word} (d : Dev) (h0 : bits (wordAt w 0) 6 0 ≠ 0) (hn : bits (wordAt w 0) 6 0 ≤ 120)
    (hu : bits (wordAt w 0) 29 22 < 132) (hq : bits (wordAt w 0) 21 19 < 5) :
    mGetTable w d = (let e := (((d.put F.TDC_TABLE_SEL_KIND (bits (wordAt w 0) 31 30)).put F.TDC_TABLE_SEL_UNIT (bits (wordAt w 0) 29 22)).put
        F.TDC_TABLE_SEL_CHAIN (bits (wordAt w 0) 21 19)).put F.TDC_TABLE_SEL_ENTRY (bits (wordAt w 0) 18 10)
      ((tableReads (bits (wordAt w 0) 6 0) e).2, 0, (tableReads (bits (wordAt w 0) 6 0) e).1)) := by
  have hn' : ¬ 120 < bits (wordAt w 0) 6 0 := by omega
  have hu' : ¬ 132 ≤ bits (wordAt w 0) 29 22 := by omega
  have hq' : ¬ 5 ≤ bits (wordAt w 0) 21 19 := by omega
  unfold mGetTable
  simp [h0, hn', hu', hq']

theorem mPortForward_prepares (m : Nat) {w : List Word} {d : Dev} (hl : hdrLen (wordAt (w.drop 1) 0) ≤ 123)
    (hlen : (w.drop 1).length = hdrLen (wordAt (w.drop 1) 0) + 2) (hj : bits (wordAt w 0) 3 0 < d.get F.PWR_FEATURES_DN_PORTS)
    (hc : d.isConc = true) (ho : d.portOpen (bits (wordAt w 0) 3 0) = true) :
    mPortForward m w d = (d.setMbx { d.mbx with
      forward := d.mbx.forward ++ [(m, { dst := .down (bits (wordAt w 0) 3 0)
                                         words := (w.drop 1).set 1 (setBits (setBits (wordAt (w.drop 1) 1) 31 16 0xFFFF) 11 11 1) })] }, 0) := by
  have hl' : ¬ 123 < hdrLen (wordAt (w.drop 1) 0) := by omega
  have hj' : ¬ d.get F.PWR_FEATURES_DN_PORTS ≤ bits (wordAt w 0) 3 0 := by omega
  unfold mPortForward
  simp only [decide_eq_false hl', hlen, bne_self_eq_false, Bool.or_self, Bool.false_eq_true, if_false, hj', hc, ho, Bool.true_or, Bool.not_true]

/-- Settles O27: each clause is an accepted message whose function is the lemma about it above. -/
theorem messagesOfHorefItself : Obligations.MessagesOfHorefItself := by
  intro s c w
  have chip : message 0x0003 c w s = plainMsg (mSetChipId w) s := rfl
  have telem : message 0x0D01 c w s = plainMsg (mTelemDefine w) s := rfl
  have peek : message 0x0C01 c w s = devMsg (mPeek w) s := rfl
  have table : message 0x0303 c w s = devMsg (mGetTable w) s := rfl
  have forward : message 0x0601 c w s = plainMsg (mPortForward c.mbx w) s := rfl
  refine ⟨?_, ?_, ?_, ?_, ?_, ?_, ?_⟩
  · intro a h0 h1
    exact congrArg _ (direct_answer a rfl (by rw [chip, plainMsg, devMsg, mSetChipId_taken s.dev h0 h1]))
  · intro a h
    exact congrArg _ (direct_answer a rfl (by rw [chip, plainMsg, devMsg, mSetChipId_refused s.dev h]))
  · intro a hid hp
    exact congrArg _ (direct_answer a rfl (by rw [telem, plainMsg, devMsg, mTelemDefine_remove s.dev hid hp]))
  · intro a hid hp hw ho ht
    exact congrArg _ (direct_answer a rfl (by rw [telem, plainMsg, devMsg, mTelemDefine_first hid hp hw ho ht]))
  · intro a off n h4 h0 hn hend hw
    exact congrArg _ (direct_answer a rfl (by rw [peek, devMsg, mPeek_reads h4 h0 hn hend hw]))
  · intro a w0 h0 hn hu hq
    exact congrArg _ (direct_answer a rfl (by rw [table, devMsg, mGetTable_reads s.dev h0 hn hu hq]))
  · intro a j inner hl hlen hj hc ho
    exact congrArg _ (direct_answer a rfl (by rw [forward, plainMsg, devMsg, mPortForward_prepares c.mbx hl hlen hj hc ho]))

end Sys2Proof.Machine

/-! The routing of messages: what VL_1 and the downstream ports bring, taken in order (R13, R206, R220, R221, R309). -/

namespace Sys2Proof.Machine

open Sys2Proof.Safety

/-- The block with the oldest message received on VL_1 of a port taken, `r` left. -/
def withMsgs (q : Nat) (r : List (List Word)) (d : Dev) : Dev := d.setPort q { d.port q with msgs := r }

theorem takeMsg_none {q : Nat} {d : Dev} (h : (d.port q).msgs = []) : takeMsg q d = none := by
  simp [takeMsg, h]

theorem takeMsg_some {q : Nat} {d : Dev} {ws : List Word} {r : List (List Word)} (h : (d.port q).msgs = ws :: r) :
    takeMsg q d = some (ws, withMsgs q r d) := by
  simp [takeMsg, h, withMsgs]

theorem vl1Route_none {p : Nat} {d : Dev} (hp : p < 2) (h : (d.port p).msgs = []) : vl1Route p d = d := by
  simp [vl1Route, Nat.mod_eq_of_lt hp, takeMsg_none h]

theorem vl1Route_some {p : Nat} {d : Dev} {ws : List Word} {r : List (List Word)} (hp : p < 2) (h : (d.port p).msgs = ws :: r) :
    vl1Route p d = routeVl1 p ws (withMsgs p r d) := by
  simp [vl1Route, Nat.mod_eq_of_lt hp, takeMsg_some h]

/-- A message for this Burjor goes to the mailbox that its header selects (R309). -/
theorem routeVl1_own {p : Nat} {ws : List Word} {d : Dev} (hl : 2 ≤ ws.length) (hr : d.horefRuns = true) (ht : hdrChip (wordAt ws 1) = d.chipId)
    (h0 : d.chipId ≠ 0) (hm : hdrMbx (wordAt ws 1) < 6) : routeVl1 p ws d = arrive p (hdrMbx (wordAt ws 1)) ws d := by
  have hl' : ¬ ws.length < 2 := by omega
  have hm' : ¬ 6 ≤ hdrMbx (wordAt ws 1) := by omega
  simp [routeVl1, deliverOutside, hl', hr, ht, h0, hm']

/-- A leaf answers a message for another Burjor with ID_MISMATCH and counts it (R309). -/
theorem routeVl1_leaf {p : Nat} {ws : List Word} {d : Dev} (hl : 2 ≤ ws.length) (hr : d.horefRuns = true) (ht : hdrChip (wordAt ws 1) ≠ d.chipId)
    (hb : hdrChip (wordAt ws 1) ≠ 0xFFFF) (hc : d.isConc = false) :
    routeVl1 p ws d = replyHeader p (wordAt ws 0) (wordAt ws 1) 9 (count1 (R.MBX_COUNT 6) d) := by
  have hl' : ¬ ws.length < 2 := by omega
  simp [routeVl1, hl', hr, ht, hb, hc]

/-- A concentrator sends a message for a routed target down that target's port (R220). -/
theorem routeVl1_below {p t : Nat} {ws : List Word} {d : Dev} (hl : 2 ≤ ws.length) (hr : d.horefRuns = true) (ht : hdrChip (wordAt ws 1) ≠ d.chipId)
    (hb : hdrChip (wordAt ws 1) ≠ 0xFFFF) (hc : d.isConc = true) (ho : routeOf (hdrChip (wordAt ws 1)) d = some t) :
    routeVl1 p ws d = sendDownstream t ws d := by
  have hl' : ¬ ws.length < 2 := by omega
  simp [routeVl1, hl', hr, ht, hb, hc, ho]

theorem downRelay_none {j : Nat} {d : Dev} (hj : j < 8) (h : (d.port (2 + j)).msgs = []) : downRelay j d = d := by
  simp [downRelay, Nat.mod_eq_of_lt hj, takeMsg_none h]

theorem downRelay_some {j : Nat} {d : Dev} {ws : List Word} {r : List (List Word)} (hj : j < 8) (h : (d.port (2 + j)).msgs = ws :: r) :
    downRelay j d = (if !routesUp j ws (withMsgs (2 + j) r d) then withMsgs (2 + j) r d
      else if 8 ≤ (d.out.filter (fun o => o.relay == some j)).length then count1 (R.CAS_COUNT 3) (withMsgs (2 + j) r d)
      else { withMsgs (2 + j) r d with out := d.out ++ [{ dst := .active, words := ws, relay := some j }] }) := by
  simp only [downRelay, Nat.mod_eq_of_lt hj, takeMsg_some h]
  rfl

/-- Settles O29: where a message stands in its queue, the case of the routing that its clause names; without one nothing changes. -/
theorem messagesAreRouted : Obligations.MessagesAreRouted := by
  intro s p j t ws r hp hj hl
  have run (d : Dev) (h : vl1Route p s.dev = d) : exec (.vl1MessageRoute p) s = .next (withDev s d) := onDev_eq h
  have relay (d : Dev) (h : downRelay j s.dev = d) : exec (.downstreamMessageRelay j) s = .next (withDev s d) := onDev_eq h
  refine ⟨?_, ?_, ?_, ?_, ?_, ?_, ?_, ?_⟩
  · exact fun h => run _ (vl1Route_none hp h)
  · exact fun h hr ht h0 hm => run _ ((vl1Route_some hp h).trans (routeVl1_own hl hr ht h0 hm))
  · exact fun h hr ht hb hc => run _ ((vl1Route_some hp h).trans (routeVl1_leaf hl hr ht hb hc))
  · exact fun h hr ht hb hc ho => run _ ((vl1Route_some hp h).trans (routeVl1_below hl hr ht hb hc ho))
  · exact fun h => relay _ (downRelay_none hj h)
  · intro h hup hroom
    have hup' : routesUp j ws (withMsgs (2 + j) r s.dev) = true := by
      rcases hup with ho | ⟨h5, hrsp⟩
      · simp [routesUp, withMsgs, ho]
      · simp [routesUp, withMsgs, h5, hrsp]
    exact relay _ ((downRelay_some hj h).trans (by rw [hup', if_neg (by decide), if_neg (Nat.not_le.2 hroom)]; rfl))
  · intro h hclosed hst
    have hup' : routesUp j ws (withMsgs (2 + j) r s.dev) = false := by
      simp [routesUp, withMsgs, hclosed, hst]
    exact relay _ ((downRelay_some hj h).trans (by rw [hup']; rfl))
  · intro h ho hfull
    have hup' : routesUp j ws (withMsgs (2 + j) r s.dev) = true := by
      simp [routesUp, withMsgs, ho]
    exact relay _ ((downRelay_some hj h).trans (by rw [hup', if_neg (by decide), if_pos hfull]; rfl))

end Sys2Proof.Machine

/-! Responses in their mailboxes and requests that are turned away (R301, R303, R305, R313, R321, R322, R380, R393). -/

namespace Sys2Proof.Machine

open Sys2Proof.Safety

/-! ### Units that their own writer writes whole (R380, R393) -/

/-- The marks of some units of a family go. -/
def MemSt.unmarked (m : MemSt) (fam : Nat) (us : List Nat) : MemSt := { m with
  poison := m.poison.filter (fun k => !us.contains (k - fam * 2 ^ 40) || k < fam * 2 ^ 40)
  faulty := m.faulty.filter (fun p => !us.contains (p.1 - fam * 2 ^ 40) || p.1 < fam * 2 ^ 40) }

theorem kfind_filter_none {α : Type} (m : KMap α) (k : Nat) (p : Nat × α → Bool) (h : ∀ v, p (k, v) = false) : kfind (m.filter p) k = none := by
  induction m with
  | nil => rfl
  | cons x r ih =>
    obtain ⟨j, v⟩ := x
    by_cases hj : j = k
    · subst hj
      rw [List.filter_cons_of_neg (by simp [h v])]
      exact ih
    · rw [List.filter_cons]
      split
      · simp only [kfind]
        rw [if_neg (by simpa using hj)]
        exact ih
      · exact ih

theorem MemSt.unmarked_poison (m : MemSt) (fam : Nat) {us : List Nat} {u : Nat} (h : u ∈ us) : unitKey fam u ∉ (m.unmarked fam us).poison := by
  simp [MemSt.unmarked, unitKey, h]

theorem MemSt.unmarked_faulty (m : MemSt) (fam : Nat) {us : List Nat} {u : Nat} (h : u ∈ us) : kget (m.unmarked fam us).faulty (unitKey fam u) 0 = 0 := by
  have gone : kfind (m.unmarked fam us).faulty (unitKey fam u) = none := kfind_filter_none _ _ _ (fun _ => by simp [unitKey, h])
  simp [kget, gone]

theorem MemSt.unmarked_of_no_marks {m : MemSt} (fam : Nat) (us : List Nat) (hp : m.poison = []) (hf : m.faulty = []) : m.unmarked fam us = m := by
  obtain ⟨poison⟩ := m
  simp_all [MemSt.unmarked]

/-- Where no unit bears a mark, the marks of some units are gone already. -/
theorem unmark_step (fam : Nat) (us : List Nat) (d : Dev) :
    (if d.ram.poison.isEmpty && d.ram.faulty.isEmpty then d else { d with ram := d.ram.unmarked fam us }) =
      { d with ram := d.ram.unmarked fam us } := by
  split
  · rename_i he
    obtain ⟨hp, hf⟩ : d.ram.poison = [] ∧ d.ram.faulty = [] := by simpa using he
    rw [MemSt.unmarked_of_no_marks fam us hp hf]
  · rfl

/-- With no flip armed, a write of units takes their marks away and does nothing else. -/
theorem unitsWritten_unarmed (fam : Nat) (us : List Nat) (d : Dev) (h : d.is F.MEM_FLIP_CTRL_ARM = false) :
    unitsWritten fam us d = (none, { d with ram := d.ram.unmarked fam us }) := by
  have step := unmark_step fam us d
  unfold MemSt.unmarked at step
  unfold unitsWritten
  rw [step]
  have unarmed : (!d.is F.MEM_FLIP_CTRL_ARM) = true := by rw [h]; rfl
  exact if_pos unarmed

/-- A flip that is armed for a byte of the mailboxes leaves the block as it is (R378). -/
theorem flipOutcome_bytes (p : Bool) (dm cm : Nat) (d : Dev) : (flipOutcome 3 p dm cm d).2 = d := rfl

theorem put_arm_zero (d : Dev) : (d.put F.MEM_FLIP_CTRL_ARM 0).is F.MEM_FLIP_CTRL_ARM = false := by
  rw [Dev.is, Dev.get_put_self _ _ _ (by decide) (by decide)]
  rfl

/-- An armed flip that the first unit matches is taken by the write (R393). -/
theorem unitsWritten_disarms (u : Nat) (us : List Nat) (d : Dev) (ha : d.is F.MEM_FLIP_CTRL_ARM = true) (hf : d.get F.MEM_FLIP_CTRL_FAMILY = 3)
    (hm : d.is F.MEM_FLIP_CTRL_ADDR_MATCH = false) : (unitsWritten 3 (u :: us) d).2.is F.MEM_FLIP_CTRL_ARM = false := by
  have step := unmark_step 3 (u :: us) d
  unfold MemSt.unmarked at step
  unfold unitsWritten
  rw [step]
  generalize he : Dev.mk .. = e
  have hae : e.is F.MEM_FLIP_CTRL_ARM = true := by rw [← he]; exact ha
  have hfe : e.get F.MEM_FLIP_CTRL_FAMILY = 3 := by rw [← he]; exact hf
  have hme : e.is F.MEM_FLIP_CTRL_ADDR_MATCH = false := by rw [← he]; exact hm
  have armed (a l : Nat) : e.flipArmed 3 a l = true := by simp [Dev.flipArmed, hae, hfe, hme]
  have found : (u :: us).find? (fun v => e.flipArmed 3 (unitAddr 3 v) (unitLen 3)) = some u := List.find?_cons_of_pos (armed _ _)
  simp only [hae, found, Bool.not_true, Bool.false_eq_true, if_false, flipOutcome_bytes]
  split
  · exact put_arm_zero e
  · exact put_arm_zero e

/-! ### A response in its mailbox (R301, R303) -/

theorem ramKey_range {m j : Nat} (hm : m < 8) (hj : j < 128) : 0x0B1000 ≤ ramKey m j ∧ ramKey m j < 0x0C0000 := by
  unfold ramKey R.MBX_RAM R.MBX_RAM_S R.MBX_RAM_U
  split
  · omega
  · split <;> omega

/-- The registers of FLIP_CTRL are no words of a mailbox. -/
theorem ramPut_flipCtrl {m : Nat} {ws : List Word} (d : Dev) (hm : m < 8) (hl : ws.length ≤ 128) :
    (ramPut m 0 ws d).reg R.MEM_FLIP_CTRL = d.reg R.MEM_FLIP_CTRL := by
  refine (ramPut_reg m 0 ws d hm (by omega)).2 _ (fun j hj h => ?_)
  have range := ramKey_range hm (show 0 + j < 128 by omega)
  rw [← h] at range
  exact absurd range (by decide)

theorem is_of_flipCtrl {d e : Dev} {f : FRef} (hf : f.key = R.MEM_FLIP_CTRL) (h : e.reg R.MEM_FLIP_CTRL = d.reg R.MEM_FLIP_CTRL) : e.get f = d.get f := by
  simp only [Dev.get, hf, h]

/-- With no flip armed a message put into a mailbox is its words, and the marks of its bytes go. -/
theorem mbxPut_unarmed {m : Nat} {ws : List Word} {d : Dev} (hm : m < 8) (hl : ws.length ≤ 128) (ha : d.is F.MEM_FLIP_CTRL_ARM = false) :
    mbxPut m 0 ws d = { ramPut m 0 ws d with ram := d.ram.unmarked 3 (mbxUnits m 0 ws.length) } := by
  have hmin : min ws.length (128 - 0) = ws.length := by omega
  have hram : (ramPut m 0 ws d).ram = d.ram := by rw [ramPut_regs]
  have harm : (ramPut m 0 ws d).is F.MEM_FLIP_CTRL_ARM = false := by
    rw [Dev.is, is_of_flipCtrl rfl (ramPut_flipCtrl d hm hl)]
    exact ha
  unfold mbxPut
  rw [hmin, unitsWritten_unarmed 3 _ _ harm, hram]

/-- A flip that is armed for the mailbox RAM at any address is taken by a message put into a mailbox (R393). -/
theorem mbxPut_disarms {m : Nat} {ws : List Word} {d : Dev} (hm : m < 8) (hl : ws.length ≤ 128) (hne : ws ≠ []) (ha : d.is F.MEM_FLIP_CTRL_ARM = true)
    (hf : d.get F.MEM_FLIP_CTRL_FAMILY = 3) (hmatch : d.is F.MEM_FLIP_CTRL_ADDR_MATCH = false) : (mbxPut m 0 ws d).is F.MEM_FLIP_CTRL_ARM = false := by
  have hmin : min ws.length (128 - 0) = ws.length := by omega
  have keep := ramPut_flipCtrl d hm hl
  obtain ⟨u, us, hus⟩ : ∃ u us, mbxUnits m 0 ws.length = u :: us := by
    refine List.exists_cons_of_ne_nil ?_
    simp [mbxUnits, hne]
  have taken := unitsWritten_disarms u us (ramPut m 0 ws d) ((congrArg (· == 1) (is_of_flipCtrl rfl keep)).trans ha)
    ((is_of_flipCtrl rfl keep).trans hf) ((congrArg (· == 1) (is_of_flipCtrl rfl keep)).trans hmatch)
  unfold mbxPut
  rw [hmin, hus]
  split
  · rename_i e he
    rw [he] at taken
    exact taken
  · rename_i v x e he
    rw [he] at taken
    have range := ramKey_range hm (show v % 512 / 4 < 128 by omega)
    have key : F.MEM_FLIP_CTRL_ARM.key ≠ ramKey m (v % 512 / 4) := by
      show 0x0D8000 ≠ _
      omega
    simpa [Dev.is, Dev.get, Dev.reg_setReg_ne _ _ key] using taken

/-- A response writes MBX_STATE and DOORBELL_OUT besides its mailbox. -/
theorem respond_reg (m : Nat) (ws : List Word) (d : Dev) {k : Nat} (hs : k ≠ R.MBX_STATE) (hb : k ≠ R.MBX_DOORBELL_OUT) :
    (respond m ws d).reg k = (mbxPut m 0 ws d).reg k := by
  unfold respond setBell setMbxState
  rw [Dev.reg_setReg_ne _ _ hb, Dev.reg_setReg_ne _ _ hs]

theorem respond_state {m : Nat} (ws : List Word) (d : Dev) (hm : m < 8) : (respond m ws d).mbxState m = 2 := by
  unfold respond setBell setMbxState Dev.mbxState
  rw [Dev.reg_setReg_ne _ _ (by decide), Dev.reg_setReg_self, nbits_setBits_self _ _ (by omega) (by omega)]
  have width : 4 * m + 3 + 1 - 4 * m = 4 := by omega
  rw [width]
  rfl

theorem respond_bell {m : Nat} (ws : List Word) (d : Dev) (hm : m < 8) : bit ((respond m ws d).reg R.MBX_DOORBELL_OUT) m = true := by
  unfold respond setBell
  rw [Dev.reg_setReg_self]
  have field := nbits_setBits_self ((setMbxState m 2 (mbxPut m 0 ws d)).reg R.MBX_DOORBELL_OUT) (b2n true) (show m < 32 by omega) (Nat.le_refl m)
  have width : m + 1 - m = 1 := by omega
  rw [width] at field
  unfold bit
  exact beq_iff_eq.2 field

/-- What a response writes when no flip is armed. -/
theorem respond_unarmed {m : Nat} {ws : List Word} {d : Dev} (hm : m < 8) (hl : ws.length ≤ 128) (ha : d.is F.MEM_FLIP_CTRL_ARM = false) :
    respond m ws d = { d with regs := (respond m ws d).regs, ram := d.ram.unmarked 3 (mbxUnits m 0 ws.length) } := by
  unfold respond
  rw [mbxPut_unarmed hm hl ha, ramPut_regs]
  rfl

theorem mem_mbxUnits {m n u : Nat} (h : u < 4 * n) : 512 * m + u ∈ mbxUnits m 0 n := List.mem_map.2 ⟨u, List.mem_range.2 h, by omega⟩

/-! ### Requests that are turned away (R305, R313, R321, R322) -/

/-- A message of the catalogue is none that the Burjor alone sends. -/
theorem sentOnly_of_paySpec {id : Nat} (h : paySpec id ≠ none) : sentOnly id = false := by
  rw [sentOnly, Bool.or_eq_false_iff]
  constructor
  · exact beq_false_of_ne (fun e => h (by rw [e]; rfl))
  · exact beq_false_of_ne (fun e => h (by rw [e]; rfl))

/-- MBX_6 and MBX_7 are the control core's own: the messages of Horef are DENIED there (R300, R321). -/
theorem accessStatus_core {id : Nat} {c : MsgCtx} {d : Dev} (hm : 6 ≤ c.mbx) (hp : paySpec id ≠ none) (hr : d.is F.PWR_STATUS_RECOVERY = false) :
    accessStatus id c d = 3 := by
  simp [accessStatus, sentOnly_of_paySpec hp, hp, hr, hm]

/-- Every message that needs a signature is one of the catalogue. -/
theorem paySpec_of_needsSignature {id : Nat} (h : needsSignature id = true) : paySpec id ≠ none := by
  have ids : id = 0x0901 ∨ id = 0x0902 ∨ id = 0x0903 ∨ id = 0x0B02 ∨ id = 0x0B03 ∨ id = 0x0B04 ∨ id = 0x0B06 ∨ id = 0x0B07 := by
    simp only [needsSignature, Bool.or_eq_true, Bool.and_eq_true, decide_eq_true_eq, beq_iff_eq] at h
    omega
  rcases ids with rfl | rfl | rfl | rfl | rfl | rfl | rfl | rfl <;> decide

theorem accessStatus_unsigned {id : Nat} {c : MsgCtx} {d : Dev} (hn : needsSignature id = true) (hs : c.signed = false)
    (hr : d.is F.PWR_STATUS_RECOVERY = false) : accessStatus id c d = 3 := by
  have hp := paySpec_of_needsSignature hn
  simp [accessStatus, sentOnly_of_paySpec hp, hp, hr, hn, hs]

/-- Settles O22: a request turned away is answered before its function is asked; a response is its words in the mailbox RAM, then the
mailbox's state and its bell. -/
theorem denialsAndResponses : Obligations.DenialsAndResponses := by
  constructor
  · intro s id c w hrun hhalt hm
    refine ⟨?_, ?_, ?_, ?_⟩
    · intro ha
      rw [direct_denied hrun hhalt hm ha]
      simp [withCommitWords]
    · have own : accessStatus 0x0001 c s.dev = 5 := rfl
      exact congrArg _ (direct_denied hrun hhalt hm (by rw [own]; decide))
    · exact accessStatus_core
    · exact accessStatus_unsigned
  · intro m ws d hm hl
    refine ⟨?_, respond_state ws d hm, respond_bell ws d hm, ?_⟩
    · intro ha
      have words := ramPut_reg m 0 ws d hm (by omega)
      have outside (j : Nat) (hj : j < ws.length) : ramKey m j ≠ R.MBX_STATE ∧ ramKey m j ≠ R.MBX_DOORBELL_OUT := by
        have range := ramKey_range hm (show j < 128 by omega)
        unfold R.MBX_STATE R.MBX_DOORBELL_OUT
        omega
      refine ⟨_, respond_unarmed hm hl ha, ?_, ?_, ?_⟩
      · exact fun u hu => ⟨MemSt.unmarked_faulty _ _ (mem_mbxUnits hu), MemSt.unmarked_poison _ _ (mem_mbxUnits hu)⟩
      · intro j hj
        rw [respond_reg m ws d (outside j hj).1 (outside j hj).2, mbxPut_unarmed hm hl ha]
        have := words.1 j hj
        rwa [Nat.zero_add] at this
      · intro k hs hb hk
        rw [respond_reg m ws d hs hb, mbxPut_unarmed hm hl ha]
        exact words.2 k (fun j hj => by rw [Nat.zero_add]; exact hk j hj)
    · intro hne ha hf hmatch
      rw [Dev.is, is_of_flipCtrl rfl (respond_reg m ws d (by decide) (by decide))]
      exact mbxPut_disarms hm hl hne ha hf hmatch

end Sys2Proof.Machine

/-! Reads and windows with a side effect (R15, R66, R67, R103, R156, R214, R224, R234, R455). -/

namespace Sys2Proof.Machine

open Sys2Proof.Safety

/-! ### The timestamp and fault queues (R67, R455) -/

theorem txtsFineRead_cons {q id : Nat} {t : Stamp} {r : List (Nat × Stamp)} {d : Dev} (h : d.time.txts.getD q [] = (id, t) :: r) :
    txtsFineRead q d = (toWord t.ctFb, { d with time := { d.time with txts := d.time.txts.set q r } }) := by
  simp only [txtsFineRead, h]

theorem txtsFineRead_nil {q : Nat} {d : Dev} (h : d.time.txts.getD q [] = []) : txtsFineRead q d = (0, d) := by
  simp only [txtsFineRead, h]

theorem fltPop_cons {m : Word64 × Word} {r : List (Word64 × Word)} {d : Dev} (h : d.flt.q = m :: r) :
    fltPop false d = (toWord (m.1.toNat / 2 ^ 32), d.setFlt { d.flt with q := r, latch := m }) := by
  simp [fltPop, h]

theorem fltPop_nil {d : Dev} (h : d.flt.q = []) : fltPop false d = (0, d.setFlt { d.flt with latch := (0, 0) }) := by
  simp [fltPop, h]

/-! ### The table windows (R103, R156, R214, R224) -/

/-- TABLE_DATA of an entry of a chain's table, where the chain has one (R103). -/
def tableWord (tbl : Option (List Nat)) (e : Nat) : Word := tbl.elim 0 (fun t => pack32 [(31, 31, 1), (19, 0, t.getD e 0)])

/-- What TABLE_DATA shows of the tables in use, KIND 0 (R103). -/
theorem tableEntry_inUse {u q e : Nat} (d : Dev) (hu : u ≤ 131) (hq : q ≤ 4) (he : e < 320) :
    tableEntry 0 u q e d = (tableWord ((d.unit u).chain q).tbl e, d) := by
  have hu' : ¬ 131 < u := by omega
  have hq' : ¬ 4 < q := by omega
  simp only [tableEntry, hu', hq', he, decide_false, Bool.or_self, Bool.false_eq_true, if_false, beq_self_eq_true, if_true]
  cases ((d.unit u).chain q).tbl <;> rfl

theorem tableDataRead_inUse {d : Dev} (hk : d.get F.TDC_TABLE_SEL_KIND = 0) (hu : d.get F.TDC_TABLE_SEL_UNIT ≤ 131) (hq : d.get F.TDC_TABLE_SEL_CHAIN ≤ 4)
    (he : d.get F.TDC_TABLE_SEL_ENTRY < 320) :
    tableDataRead d = (tableWord ((d.unit (d.get F.TDC_TABLE_SEL_UNIT)).chain (d.get F.TDC_TABLE_SEL_CHAIN)).tbl (d.get F.TDC_TABLE_SEL_ENTRY),
      d.put F.TDC_TABLE_SEL_ENTRY ((d.get F.TDC_TABLE_SEL_ENTRY + 1) % 512)) := by
  simp only [tableDataRead, hk, tableEntry_inUse d hu hq he]

/-- The table entry that LIN_SEL selects (R156). -/
def Dev.linSel (d : Dev) : Nat :=
  linKey (d.get F.SE_LIN_SEL_BANK) (d.get F.SE_LIN_SEL_KIND) (d.get F.SE_LIN_SEL_CHANNEL) (d.get F.SE_LIN_SEL_ENTRY)

/-- A write of an entry of the bank that is not in use (R156). -/
theorem linAccess_write {w : Word} {d : Dev} (he : d.get F.SE_LIN_SEL_ENTRY < linSize (d.get F.SE_LIN_SEL_KIND))
    (hb : d.get F.SE_LIN_SEL_BANK ≠ d.get F.SE_CFG_LIN_BANK) (hw : bits w 15 0 ≠ 0) :
    linAccess (some w) d = ((linAccess (some w) d).1,
      ({ d with se := { d.se with lin := kset d.se.lin d.linSel (bits w 15 0) } } : Dev).put F.SE_LIN_SEL_ENTRY
        ((d.get F.SE_LIN_SEL_ENTRY + 1) % 128)) := by
  refine Prod.ext rfl ?_
  simp [linAccess, he, hb, hw, Dev.linSel]

/-- ADJ_SEL moving on writes ADJ_SEL alone. -/
theorem adjAdvance_frame (d : Dev) : (adjAdvance d).cas = d.cas ∧ ∀ j, j ≠ F.CAS_ADJ_SEL_WORD.key → (adjAdvance d).reg j = d.reg j := by
  unfold adjAdvance
  split
  · exact ⟨rfl, fun j hj => by rw [Dev.reg_put_ne _ F.CAS_ADJ_SEL_PIXEL _ (show j ≠ F.CAS_ADJ_SEL_PIXEL.key from hj), Dev.reg_put_ne _ _ _ hj]⟩
  · exact ⟨rfl, fun j hj => Dev.reg_put_ne _ _ _ hj⟩

/-- A write of the second half of an entry of an unprotected bank (R214). -/
theorem adjWrite_second {v : Word} {d : Dev} (hi : d.get F.CAS_ADJ_SEL_PIXEL < 576) (hp : adjProtected (d.get F.CAS_ADJ_SEL_BANK) d = false)
    (hw : d.get F.CAS_ADJ_SEL_WORD = 1) :
    adjWrite v d = { adjAdvance d with cas := { d.cas with
      adj := kset d.cas.adj (d.get F.CAS_ADJ_SEL_BANK * 2048 + d.get F.CAS_ADJ_SEL_PIXEL * 2 + 1) (v &&& 0x3FFFFFFF) } } := by
  unfold adjWrite
  simp only [hp, Bool.false_eq_true, if_false, hi, if_true, hw, (adjAdvance_frame d).1]
  rfl

/-- DESC_SEL and the four words of DESC_DATA as a write of DESC_SEL leaves them (R225). -/
theorem descSelWrite_effect (v : Word) (d : Dev) :
    (descSelWrite v d).get F.TQ_DESC_SEL_INDEX = bits v 14 0 ∧ (∀ j, j < 4 → (descSelWrite v d).reg (R.TQ_DESC_DATA j) = descWord (bits v 14 0) j d) ∧
      (descSelWrite v d).tq = d.tq := by
  have e : descSelWrite v d = ((((d.put F.TQ_DESC_SEL_INDEX (bits v 14 0)).setReg (R.TQ_DESC_DATA 0) (descWord (bits v 14 0) 0 d)).setReg (R.TQ_DESC_DATA 1)
    (descWord (bits v 14 0) 1 d)).setReg (R.TQ_DESC_DATA 2) (descWord (bits v 14 0) 2 d)).setReg (R.TQ_DESC_DATA 3) (descWord (bits v 14 0) 3 d) := rfl
  have data (j : Nat) : F.TQ_DESC_SEL_INDEX.key ≠ R.TQ_DESC_DATA j := by
    show 0x0800B0 ≠ 0x0800B4 + 4 * j
    omega
  rw [e]
  refine ⟨?_, ?_, rfl⟩
  · have field := Dev.get_put_self d F.TQ_DESC_SEL_INDEX (bits v 14 0) (by decide) (by decide)
    simp only [Dev.get, Dev.reg_setReg_ne _ _ (data _)]
    exact field.trans (Nat.mod_eq_of_lt (bits_lt v 14 0))
  · intro j hj
    interval_cases j <;> simp [Dev.reg_setReg_ne, R.TQ_DESC_DATA]

/-- Settles O18: each access by the lemma about its function; the registers it leaves are those outside its selection register. -/
theorem readWindows : Obligations.ReadWindows := by
  refine ⟨fun s => ⟨rfl, rfl, rfl⟩, ?_⟩
  intro s w v q id t r m rest
  refine ⟨?_, ?_, ?_, ?_, ?_, ?_, ?_, ?_, ?_, ?_⟩
  · exact fun h => onRead_eq (txtsFineRead_cons h)
  · exact fun h => onRead_eq (txtsFineRead_nil h)
  · intro hk hu hq he
    refine ⟨_, onRead_eq (tableDataRead_inUse hk hu hq he), ?_, ?_, fun j hj => Dev.reg_put_ne _ _ _ hj, rfl⟩
    · cases ((s.dev.unit (s.dev.get F.TDC_TABLE_SEL_UNIT)).chain (s.dev.get F.TDC_TABLE_SEL_CHAIN)).tbl <;> rfl
    · exact (Dev.get_put_self s.dev _ _ (by decide) (by decide)).trans (Nat.mod_mod _ _)
  · exact ⟨_, rfl, rfl, rfl, (Dev.get_put_self s.dev _ _ (by decide) (by decide)).trans (Nat.mod_mod _ _)⟩
  · intro he hb hw k
    refine ⟨_, onRead_eq (linAccess_write he hb hw), rfl, ?_, fun j hj => Dev.reg_put_ne _ _ _ hj⟩
    exact (Dev.get_put_self s.dev _ _ (by decide) (by decide)).trans (Nat.mod_mod _ _)
  · intro hi hp hw
    exact ⟨_, onDev_eq (adjWrite_second hi hp hw), rfl, (adjAdvance_frame s.dev).2⟩
  · intro hi
    refine ⟨_, rfl, ?_, (adjAdvance_frame s.dev).1, (adjAdvance_frame s.dev).2⟩
    exact congrArg (fun x => [x]) (if_pos hi)
  · exact ⟨descSelWrite v s.dev, rfl, descSelWrite_effect v s.dev⟩
  · exact fun h => onRead_eq (fltPop_cons h)
  · exact fun h => onRead_eq (fltPop_nil h)

end Sys2Proof.Machine

/-! The firmware update: work that draws FW pips of the MRAM, chunks, VERIFY, COMMIT and the copy that follows (R42, R485 to R487, R492). -/

namespace Sys2Proof.Machine

open Sys2Proof.Safety

/-! ### Work that draws pips of a resource and stores bytes (R42) -/

/-- The pips have been granted: the work is done, and they are taken. -/
theorem withPipsS_paid {r a n : Nat} {f : State → State} {s : State} (h : 16 * n ≤ (s.dev.budAct r a).got) :
    withPipsS r a n f s = f (withDev s (s.dev.setBudAct r a { s.dev.budAct r a with got := (s.dev.budAct r a).got - 16 * n })) := if_pos h

/-- The pips have not been granted: they are asked for. -/
theorem withPipsS_waits {r a n : Nat} {f : State → State} {s : State} (h : (s.dev.budAct r a).got < 16 * n) :
    withPipsS r a n f s = withDev s (s.dev.setBudAct r a { s.dev.budAct r a with
      want := max (s.dev.budAct r a).want (16 * n - (s.dev.budAct r a).got) }) := if_neg (Nat.not_le.2 h)

/-! ### The slot that FW_BEGIN prepares (R485) -/

/-- The machine with the session ready and FW_READY raised. -/
def sessionReady (x : FwSession) (t : State) : State :=
  withDev t (raise E.SEC_FW_READY [] (t.dev.setSec { t.dev.sec with session := some { x with ready := true } }))

theorem fwPrepared_done {s : State} {x : FwSession} (h : s.dev.sec.session = none ∨ (s.dev.sec.session = some x ∧ x.ready = true)) : fwPrepared s = s := by
  unfold fwPrepared
  rcases h with h | ⟨h, hr⟩
  · rw [h]
  · simp only [h, hr, if_true]

/-- Slot A does not run, or slot B holds a valid image: slot A is invalidated. -/
theorem fwPrepared_invalidates {s : State} {x : FwSession} (h : s.dev.sec.session = some x) (hr : x.ready = false)
    (hb : slotVerifies s.mem x.kind 1 s.dev = true ∨ s.dev.sec.run.getD (x.kind - 1) none ≠ some 0) :
    fwPrepared s = withPipsS 2 6 1 (fun t => sessionReady x (invalidateA x.kind t)) s := by
  have copies : (!slotVerifies s.mem x.kind 1 s.dev && s.dev.sec.run.getD (x.kind - 1) none == some 0) = false := by
    rcases hb with hb | hb
    · rw [hb]; rfl
    · rw [beq_false_of_ne hb, Bool.and_false]
  unfold fwPrepared
  simp only [h, hr, copies, Bool.false_eq_true, if_false]
  rfl

/-- Slot A runs and slot B holds no valid image: slot A is copied to B before it is invalidated. -/
theorem fwPrepared_copies {s : State} {x : FwSession} (h : s.dev.sec.session = some x) (hr : x.ready = false)
    (hb : slotVerifies s.mem x.kind 1 s.dev = false) (ha : s.dev.sec.run.getD (x.kind - 1) none = some 0) :
    fwPrepared s = withPipsS 2 6 (1 + fwPips (imageBytes s.mem x.kind 0)) (fun t => sessionReady x (invalidateA x.kind (copySlot x.kind 0 1 t))) s := by
  unfold fwPrepared
  simp only [h, hr, hb, ha, Bool.not_false, Bool.true_and, beq_self_eq_true, Bool.false_eq_true, if_false, if_true]
  rfl

/-! ### Chunks (R485, R492) -/

theorem length_msBytes (ws : List Word) : (msBytes ws).length = 4 * ws.length := by
  simp [msBytes, List.length_flatMap, Nat.mul_comm]

/-- A chunk that waits alone is written once its pips have been granted. -/
theorem fwDrain_single {s : State} {off : Nat} {bs : List Byte} (h : s.dev.sec.chunks = [(off, bs)]) :
    fwDrain s = withPipsS 2 6 (fwPips bs.length) (fun t => mramWrite off bs (withDev t (t.dev.setSec { t.dev.sec with chunks := [] }))) s := by
  have one : s.dev.sec.chunks.length = 0 + 1 := by rw [h]; rfl
  unfold fwDrain
  rw [one, chunkDrain]
  simp only [h, chunkDrain, ite_self]
  rfl

theorem setSec_no_chunks {d : Dev} (h : d.sec.chunks = []) : d.setSec { d.sec with chunks := [] } = d := by
  have same : { d.sec with chunks := [] } = d.sec := by rw [← h]
  rw [same]
  rfl

/-- The machine with one more chunk waiting. -/
def withChunk (off : Nat) (bs : List Byte) (s : State) : State :=
  withDev s (s.dev.setSec { s.dev.sec with chunks := s.dev.sec.chunks ++ [(off, bs)] })

theorem withChunk_first {s : State} {off : Nat} {bs : List Byte} (h : s.dev.sec.chunks = []) :
    withChunk off bs s = withDev s (s.dev.setSec { s.dev.sec with chunks := [(off, bs)] }) := by
  rw [withChunk, h, List.nil_append]

/-- The first chunk to wait is written at once where its pips have been granted. -/
theorem fwDrain_first_paid {s : State} {off : Nat} {bs : List Byte} (h : s.dev.sec.chunks = []) (hg : 16 * fwPips bs.length ≤ (s.dev.budAct 2 6).got) :
    fwDrain (withChunk off bs s) = mramWrite off bs (withDev s (s.dev.setBudAct 2 6 { s.dev.budAct 2 6 with
      got := (s.dev.budAct 2 6).got - 16 * fwPips bs.length })) := by
  rw [withChunk_first h]
  refine (fwDrain_single rfl).trans ((withPipsS_paid (s := withDev s (s.dev.setSec { s.dev.sec with chunks := [(off, bs)] })) hg).trans ?_)
  exact congrArg (fun e => mramWrite off bs (withDev s e)) (setSec_no_chunks (d := s.dev.setBudAct 2 6 _) h)

/-- The first chunk to wait asks for the pips that it lacks. -/
theorem fwDrain_first_waits {s : State} {off : Nat} {bs : List Byte} (h : s.dev.sec.chunks = []) (hg : (s.dev.budAct 2 6).got < 16 * fwPips bs.length) :
    fwDrain (withChunk off bs s) = withDev s ((s.dev.setSec { s.dev.sec with chunks := [(off, bs)] }).setBudAct 2 6 { s.dev.budAct 2 6 with
      want := max (s.dev.budAct 2 6).want (16 * fwPips bs.length - (s.dev.budAct 2 6).got) }) := by
  rw [withChunk_first h]
  exact (fwDrain_single rfl).trans (withPipsS_waits hg)

theorem chunksWritten_none (h : s.dev.sec.chunks = []) : chunksWritten s = s := by
  unfold chunksWritten
  rw [h]
  exact congrArg (withDev s) (setSec_no_chunks h)

/-! ### FW_CHUNK (R485, R492) -/

section
variable {w : List Word} {s : State} {x : FwSession} (hm : s.dev.mode = .standby)
include hm

theorem mFwChunk_without_session (h : s.dev.sec.session = none) : mFwChunk w s = (s, 3, []) := by
  simp [mFwChunk, hm, h]

theorem mFwChunk_before_ready (h : s.dev.sec.session = some x) (hr : x.ready = false) : mFwChunk w s = (s, 1, []) := by
  simp [mFwChunk, hm, h, hr]

theorem mFwChunk_outside (h : s.dev.sec.session = some x) (hr : x.ready = true)
    (hb : (wordAt w 0).toNat % 4 ≠ 0 ∨ x.total < (wordAt w 0).toNat + 4 * (w.length - 1)) : mFwChunk w s = (s, 5, []) := by
  have bad : ((wordAt w 0).toNat % 4 != 0 || (w.drop 1).isEmpty || decide (125 < (w.drop 1).length) ||
      decide (x.total < (wordAt w 0).toNat + 4 * (w.drop 1).length)) = true := by
    rw [List.length_drop]
    rcases hb with hb | hb <;> simp [hb]
  simp only [mFwChunk, hm, h, hr, bad, bne_self_eq_false, Bool.not_true, Bool.false_eq_true, if_false, if_true]

theorem mFwChunk_taken (h : s.dev.sec.session = some x) (hr : x.ready = true) (h4 : (wordAt w 0).toNat % 4 = 0) (h2 : 2 ≤ w.length)
    (hn : w.length ≤ 126) (ht : (wordAt w 0).toNat + 4 * (w.length - 1) ≤ x.total) :
    mFwChunk w s = (fwDrain (withChunk (slotBase x.kind 0 + (wordAt w 0).toNat) (msBytes (w.drop 1)) s), 0, []) := by
  have some1 : (w.drop 1).isEmpty = false := by
    rw [List.isEmpty_eq_false_iff_exists_mem, ← List.length_pos_iff_exists_mem, List.length_drop]
    omega
  have few : ¬ 125 < (w.drop 1).length := by rw [List.length_drop]; omega
  have fits : ¬ x.total < (wordAt w 0).toNat + 4 * (w.drop 1).length := by rw [List.length_drop]; omega
  simp only [mFwChunk, hm, h, hr, h4, some1, few, fits, withChunk, withDev, bne_self_eq_false, Bool.not_true, Bool.or_self, decide_false, Bool.false_eq_true,
    if_false]

/-! ### FW_ACTIVATE with OP = VERIFY (R486) -/

theorem mFwVerify_without_session (h : s.dev.sec.session = none) : mFwVerify w s = (s, 3, []) := by
  simp [mFwVerify, hm, h]

theorem mFwVerify_other_kind (h : s.dev.sec.session = some x) (hk : bits (wordAt w 0) 1 0 ≠ x.kind) : mFwVerify w s = (chunksWritten s, 5, []) := by
  simp [mFwVerify, hm, h, hk]

theorem mFwVerify_bad_image (h : s.dev.sec.session = some x) (hk : bits (wordAt w 0) 1 0 = x.kind)
    (hb : Config.sha384 (slotBytes (chunksWritten s).mem x.kind 0 0 x.total) ≠ x.hash ∨
      headerOk x.kind (slotBytes (chunksWritten s).mem x.kind 0 0 256) = false ∨ imageSigned (chunksWritten s).mem x.kind 0 (chunksWritten s).dev = false) :
    mFwVerify w s = verifyFails 6 (chunksWritten s) := by
  have bad : (Config.sha384 (slotBytes (chunksWritten s).mem x.kind 0 0 x.total) != x.hash || !headerOk x.kind (slotBytes (chunksWritten s).mem x.kind 0 0 256) ||
      !imageSigned (chunksWritten s).mem x.kind 0 (chunksWritten s).dev) = true := by
    rcases hb with hb | hb | hb <;> simp [hb]
  simp only [mFwVerify, hm, h, hk, bad, bne_self_eq_false, Bool.false_eq_true, if_false, if_true]

/-- What VERIFY comes to for an image whose hash, header and signature hold: its version decides. -/
theorem mFwVerify_good_image (h : s.dev.sec.session = some x) (hk : bits (wordAt w 0) 1 0 = x.kind)
    (hh : Config.sha384 (slotBytes (chunksWritten s).mem x.kind 0 0 x.total) = x.hash)
    (ho : headerOk x.kind (slotBytes (chunksWritten s).mem x.kind 0 0 256) = true) (hs : imageSigned (chunksWritten s).mem x.kind 0 (chunksWritten s).dev = true) :
    mFwVerify w s = if imageVersion (chunksWritten s).mem x.kind 0 < (chunksWritten s).dev.sec.rollback.getD (x.kind - 1) 0 then verifyFails 9 (chunksWritten s)
      else (withDev (chunksWritten s) (wearRecord ((chunksWritten s).dev.setSec {
        (chunksWritten s).dev.sec with
        session := none
        trial := kset (chunksWritten s).dev.sec.trial x.kind 0
        applyDue := (chunksWritten s).dev.sec.applyDue || bit (wordAt w 0) 8 })), 0, []) := by
  simp only [mFwVerify, hm, h, hk, hh, ho, hs, bne_self_eq_false, Bool.not_true, Bool.or_self, Bool.false_eq_true, if_false]
  rfl

/-! ### FW_ACTIVATE with OP = COMMIT (R487) -/

theorem mFwCommit_refused {k : Nat} (hk : bits (wordAt w 0) 1 0 = k)
    (hb : k = 0 ∨ kfind s.dev.sec.trial k = none ∨ s.dev.sec.run.getD (k - 1) none ≠ some 0) : mFwCommit w s = (s, 5, []) := by
  have bad : (k == 0 || (kfind s.dev.sec.trial k).isNone || s.dev.sec.run.getD (k - 1) none != some 0) = true := by
    rcases hb with hb | hb | hb
    · simp [hb]
    · simp [hb]
    · rw [bne_iff_ne.2 hb, Bool.or_true]
  simp only [mFwCommit, hm, hk, bad, bne_self_eq_false, Bool.false_eq_true, if_false, if_true]

theorem mFwCommit_done {k : Nat} (hk : bits (wordAt w 0) 1 0 = k) (h0 : k ≠ 0) (ht : (kfind s.dev.sec.trial k).isSome = true)
    (hr : s.dev.sec.run.getD (k - 1) none = some 0) :
    mFwCommit w s = (withDev s (wearRecord (s.dev.setSec {
      s.dev.sec with
      rollback := s.dev.sec.rollback.set (k - 1) (max (s.dev.sec.rollback.getD (k - 1) 0) (imageVersion s.mem k 0))
      trial := kdel s.dev.sec.trial k
      copying := some k })), 0, []) := by
  have hn : (kfind s.dev.sec.trial k).isNone = false := by rw [← Option.not_isSome, ht]; rfl
  simp only [mFwCommit, hm, hk, hr, hn, beq_false_of_ne h0, bne_self_eq_false, Bool.or_self, Bool.false_eq_true, if_false]
  rfl

end

/-! ### OP in the word of FW_ACTIVATE -/

/-- A word whose field is replaced by the value it has stays. -/
theorem setBits_bits (w : Word) (hi lo : Nat) : setBits w hi lo (bits w hi lo) = w := by
  have below : nbits w.toNat hi lo * 2 ^ lo ≤ w.toNat := by
    calc nbits w.toNat hi lo * 2 ^ lo ≤ (w.toNat >>> lo) * 2 ^ lo := Nat.mul_le_mul_right _ (Nat.mod_le _ _)
      _ ≤ w.toNat := by rw [Nat.shiftRight_eq_div_pow]; exact Nat.div_mul_le_self _ _
  unfold setBits
  rw [show bits w hi lo % 2 ^ (hi + 1 - lo) = nbits w.toNat hi lo from Nat.mod_mod _ _, Nat.sub_add_cancel below]
  simp

theorem bits_of_bit_clear {w : Word} {i : Nat} (h : bit w i = false) : bits w i i = 0 := by
  have two : bits w i i < 2 := by simpa [bits, nbits] using Nat.mod_lt (w.toNat >>> i) (by decide : 0 < 2)
  have ne : bits w i i ≠ 1 := by simpa [bit, bits] using h
  omega

theorem bits_of_bit_set {w : Word} {i : Nat} (h : bit w i = true) : bits w i i = 1 := by
  simpa [bit, bits] using h

theorem modify_head_same {w : List Word} {f : Word → Word} (h : f (wordAt w 0) = wordAt w 0) : w.modify 0 f = w := by
  cases w with
  | nil => rfl
  | cons a r => exact congrArg (· :: r) h

theorem op_verify_same {w : List Word} (h : bit (wordAt w 0) 4 = false) : w.modify 0 (fun x => setBits x 4 4 0) = w :=
  modify_head_same ((congrArg (setBits _ 4 4) (bits_of_bit_clear h).symm).trans (setBits_bits _ 4 4))

theorem op_commit_same {w : List Word} (h : bit (wordAt w 0) 4 = true) : w.modify 0 (fun x => setBits x 4 4 1) = w :=
  modify_head_same ((congrArg (setBits _ 4 4) (bits_of_bit_set h).symm).trans (setBits_bits _ 4 4))

/-! ### The copy that follows COMMIT (R487) -/

theorem fwCopyDone_none {s : State} (h : s.dev.sec.copying = none) : fwCopyDone s = s := by
  unfold fwCopyDone
  rw [h]

/-- The machine with the copy ended and FW_COMMITTED raised. -/
def copyEnded (t : State) : State := withDev t (raise E.SEC_FW_COMMITTED [] (t.dev.setSec { t.dev.sec with copying := none }))

theorem fwCopyDone_some {s : State} {k : Nat} (h : s.dev.sec.copying = some k) :
    fwCopyDone s = withPipsS 2 6 (fwPips (imageBytes s.mem k 0)) (fun t => copyEnded (copySlot k 0 1 t)) s := by
  unfold fwCopyDone
  rw [h]
  rfl

/-! ### The commands -/

theorem exec_fwChunk {c : MsgCtx} {w : List Word} {s t : State} {st : Nat} (a : Accepted 0x0B05 c w s) (hm : mFwChunk w s = (t, st, [])) :
    exec (.fwChunk c w) s = .next (answer 0x0B05 c st [] t) :=
  congrArg _ (direct_answer a rfl hm)

theorem exec_fwVerify {c : MsgCtx} {w : List Word} {s t : State} {st : Nat} (hop : bit (wordAt w 0) 4 = false) (a : Accepted 0x0B06 c w s)
    (hm : mFwVerify w s = (t, st, [])) : exec (.fwVerify c w) s = .next (answer 0x0B06 c st [] t) := by
  have hact : mFwActivate w s = (t, st, []) := by rw [mFwActivate, hop, ← hm]; rfl
  show Host.Outcome.next (direct 0x0B06 c (w.modify 0 (fun x => setBits x 4 4 0)) s) = _
  rw [op_verify_same hop]
  exact congrArg _ (direct_answer a rfl hact)

theorem exec_fwCommit {c : MsgCtx} {w : List Word} {s t : State} {st : Nat} (hop : bit (wordAt w 0) 4 = true) (a : Accepted 0x0B06 c w s)
    (hm : mFwCommit w s = (t, st, [])) : exec (.fwCommit c w) s = .next (answer 0x0B06 c st [] t) := by
  have hact : mFwActivate w s = (t, st, []) := by rw [mFwActivate, hop, ← hm]; rfl
  show Host.Outcome.next (direct 0x0B06 c (w.modify 0 (fun x => setBits x 4 4 1)) s) = _
  rw [op_commit_same hop]
  exact congrArg _ (direct_answer a rfl hact)

/-- Settles O55: each part of the update is one lemma about what the model's function does in that case. The work that draws FW pips
takes one of two ways, as they are granted or not; the word of FW_ACTIVATE keeps its OP. -/
theorem firmwareUpdate : Obligations.FirmwareUpdate := by
  intro s c w x k d b wants pays
  refine ⟨fun h => ?prepared,
    fun h hr => ⟨fun hb => ⟨fun hg => ?invWaits, fun hg => ?invPaid⟩, fun hb ha => ⟨fun hg => ?copyWaits, fun hg => ?copyPaid⟩⟩,
    fun a hm => ⟨fun h => ?chunkNoSession, fun h hr => ?chunkBusy, fun h hr hb => ?chunkBad,
      fun h hr h4 h2 hn ht => ⟨fun hc hg => ?chunkPaid, fun hc hg => ?chunkWaits, ?chunk⟩⟩,
    fun hop _ a hm hk => ⟨fun h => ?verifyNoSession,
      fun h => ⟨fun hc => ?noChunks, fun hx => ?otherKind, fun hx hb => ?badImage, fun hx hh ho hs => ⟨fun hv => ?oldVersion, fun hv => ?verified⟩⟩⟩,
    fun hop _ a hm hk => ⟨fun hb => ?commitBad, fun h0 ht hr => ?committed⟩,
    fun h => ?noCopy, fun h => ⟨fun hg => ?doneWaits, fun hg => ?donePaid⟩,
    fun h => ?stays, fun h => ?resets⟩
  case prepared => exact congrArg _ (fwPrepared_done h)
  case invWaits => exact congrArg _ ((fwPrepared_invalidates h hr hb).trans (withPipsS_waits hg))
  case invPaid => exact congrArg _ ((fwPrepared_invalidates h hr hb).trans (withPipsS_paid hg))
  case copyWaits => exact congrArg _ ((fwPrepared_copies h hr hb ha).trans (withPipsS_waits hg))
  case copyPaid => exact congrArg _ ((fwPrepared_copies h hr hb ha).trans (withPipsS_paid hg))
  case chunkNoSession => exact exec_fwChunk a (mFwChunk_without_session hm h)
  case chunkBusy => exact exec_fwChunk a (mFwChunk_before_ready hm h hr)
  case chunkBad => exact exec_fwChunk a (mFwChunk_outside hm h hr hb)
  case chunk => exact exec_fwChunk a (mFwChunk_taken hm h hr h4 h2 hn ht)
  case chunkPaid =>
    have len : 16 * fwPips (msBytes (w.drop 1)).length = 16 * ((4 * (w.length - 1) + 15) / 16) := by rw [length_msBytes, List.length_drop]; rfl
    rw [exec_fwChunk a (mFwChunk_taken hm h hr h4 h2 hn ht), fwDrain_first_paid hc (len ▸ hg), len]
  case chunkWaits =>
    have len : 16 * fwPips (msBytes (w.drop 1)).length = 16 * ((4 * (w.length - 1) + 15) / 16) := by rw [length_msBytes, List.length_drop]; rfl
    rw [exec_fwChunk a (mFwChunk_taken hm h hr h4 h2 hn ht), fwDrain_first_waits hc (len ▸ hg), len]
    rfl
  case verifyNoSession => exact exec_fwVerify hop a (mFwVerify_without_session hm h)
  case noChunks => exact chunksWritten_none hc
  case otherKind => exact exec_fwVerify hop a (mFwVerify_other_kind hm h (hk ▸ hx))
  case badImage =>
    subst hx
    exact exec_fwVerify hop a (mFwVerify_bad_image hm h hk hb)
  case oldVersion =>
    subst hx
    exact exec_fwVerify hop a ((mFwVerify_good_image hm h hk hh ho hs).trans (if_pos hv))
  case verified =>
    subst hx
    exact exec_fwVerify hop a ((mFwVerify_good_image hm h hk hh ho hs).trans (if_neg (Nat.not_lt.2 hv)))
  case commitBad => exact exec_fwCommit hop a (mFwCommit_refused hm hk hb)
  case committed => exact exec_fwCommit hop a (mFwCommit_done hm hk h0 ht hr)
  case noCopy => exact congrArg _ (fwCopyDone_none h)
  case doneWaits => exact congrArg _ ((fwCopyDone_some h).trans (withPipsS_waits hg))
  case donePaid => exact congrArg _ ((fwCopyDone_some h).trans (withPipsS_paid hg))
  case stays => exact onDev_eq (if_neg (ne_true_of_eq_false h))
  case resets => exact onDev_eq (if_pos h)

end Sys2Proof.Machine

/-! Array time: beacons, the servo and its bound, secure time (R46 to R54, R66). -/

namespace Sys2Proof.Machine

open Sys2Proof.Safety

/-! ### A valid beacon (R46 to R54) -/

/-- A timing port after a valid beacon whose edge its unit resolves: the run of valid beacons goes on, and t2c − t1 is known. -/
def TPort.stamped (t : TPort) (chars : List Byte) (diff : Int) : TPort :=
  { t with seen := true, validRun := t.validRun + 1, missRun := 0, master := (chars.getD 6 0).toNat / 8, diff := some diff }

/-- The lag of a beacon in fb (R46). -/
def beaconLag (chars : List Byte) : Nat := bytesNat (chars.drop 7 |>.take 2) % 8192

/-- t2c − t1 of a beacon on port p whose sampling edge has the stamp t2 (R51). -/
def beaconDiff (p : Nat) (chars : List Byte) (t2 : Int) (d : Dev) : Int :=
  t2 - (d.reg (R.TIME_PORT_CAL p 1)).toNat - (bytesNat (chars.take 6) * 2 ^ 25 + beaconLag chars : Nat)

/-- The block with θ of port p formed: held with the port and shown in OFFSET (R51, R54). -/
def thetaShown (p : Nat) (th : Int) (d : Dev) : Dev :=
  (d.setTport p { d.tport p with theta := some th }).setLive (R.TIME_OFFSET p) (toWord (ofSigned 32 th))

theorem beaconReceive_bad_crc {p : Nat} {chars : List Byte} (k : List Nat) (d : Dev) (hp : p < 2)
    (h : crc8 (chars.take 9) ≠ (chars.getD 9 0).toNat) : beaconReceive p chars false k d = count1 (R.TIME_COUNT p) d := by
  simp only [beaconReceive, Nat.mod_eq_of_lt hp, beq_false_of_ne h, Bool.and_false, Bool.false_and, Bool.not_false, if_true]

/-- A lane whose EXCHANGE has passed stays as it is (R281). -/
theorem timingUp_active {p : Nat} {d : Dev} (h : d.get (F.LNK_LANE_STATUS_STAGE (16 + p)) = 5) : timingUp p d = d := by
  simp [timingUp, h]

/-- A port that is not lost does not return (R60). -/
theorem portReturn_up {p : Nat} {d : Dev} (h : d.is (upField p) = true) : portReturn p d = d := by
  simp [portReturn, h]

/-- A good beacon on a port that carries time: its θ is taken. -/
theorem beaconReceive_good {p : Nat} {chars : List Byte} {k : List Nat} {d : Dev} {t2 : Int} (hp : p < 2) (hl : chars.length = 10)
    (hc : crc8 (chars.take 9) = (chars.getD 9 0).toNat) (hlag : beaconLag chars < 5120) (hst : d.get (F.LNK_LANE_STATUS_STAGE (16 + p)) = 5)
    (hi : unitInitial (130 + p) d = false) (he : edgeStamp (130 + p) d.clk.turn d.clk.ct k d = some t2) (hu : d.is (upField p) = true)
    (hv : d.is (delayValidField p) = true) :
    beaconReceive p chars false k d =
      (let d1 := d.setTport p ((d.tport p).stamped chars (beaconDiff p chars t2 d))
      thetaTaken p (thetaOf d1 p (beaconDiff p chars t2 d)) d1) := by
  have up (x : TPort) : portReturn p (d.setTport p x) = d.setTport p x := portReturn_up hu
  have valid (x : TPort) : (d.setTport p x).is (delayValidField p) = true := hv
  have hlag' : bytesNat (chars.drop 7 |>.take 2) % 8192 < 5120 := hlag
  simp only [beaconReceive, Nat.mod_eq_of_lt hp, hl, hc, hlag', hst, timingUp_active hst, he, hi, up, valid, beq_self_eq_true, decide_true, Bool.and_self,
    Bool.not_false, Bool.not_true, Bool.true_or, Bool.false_eq_true, if_false]
  rfl

/-! ### θ of the AT source in LOCKED (R52 to R54) -/

/-- With the turn number valid, θ of the AT source that has locked is taken as it is. -/
theorem thetaTaken_locked {p : Nat} (th : Int) {d : Dev} (hs : d.atSrc = p) (hl : d.atState = 2) (hv : d.turnValid = true) :
    thetaTaken p th d = atUpdate p th (thetaShown p th d) := by
  have src : (thetaShown p th d).atSrc = p := hs
  have state : (thetaShown p th d).atState = 2 := hl
  have valid : (thetaShown p th d).turnValid = true := hv
  have same : servoTheta th d = th := by simp [servoTheta, hv]
  unfold thetaTaken
  simp only [same]
  change (if p != (thetaShown p th d).atSrc then _ else if (thetaShown p th d).atState == 0 then _ else
    atUpdate p th (if (thetaShown p th d).turnValid then thetaShown p th d else _)) = _
  simp [src, state, valid]

theorem atUpdate_within {p : Nat} {th : Int} {d : Dev} (hl : d.atState = 2) (h : (th.natAbs : Int) ≤ d.jumpLimit) :
    atUpdate p th d = servoUpdate th (d.put F.TIME_STATUS_JUMP_HOLD 0) := by
  simp only [atUpdate, hl, if_neg (Int.not_lt.2 h)]
  rfl

theorem atUpdate_beyond {p : Nat} {th : Int} {d : Dev} (hl : d.atState = 2) (h : d.jumpLimit < (th.natAbs : Int)) :
    atUpdate p th d = jumpRefuse d := by
  simp only [atUpdate, hl, if_pos h]
  rfl

/-! ### The servo's bound (R52) -/

/-- What a step of the servo can come to: a word within the bound, or one clamped at it with the integrator not moved further that way. -/
theorem servoStep_cases (kp ki : Nat) (theta : Int) (v : Servo) :
    (∃ i st, servoStep kp ki theta v = ({ v with i := i, steer := st }, false) ∧ -steerMax ≤ st ∧ st ≤ steerMax) ∨
      (∃ i ≤ v.i, servoStep kp ki theta v = ({ v with i := i, steer := steerMax }, true)) ∨
      (∃ i, v.i ≤ i ∧ servoStep kp ki theta v = ({ v with i := i, steer := -steerMax }, true)) := by
  unfold servoStep
  dsimp only
  generalize roundDiv (v.i * (2 ^ 22 : Nat) - theta * (2 ^ (37 - ki) : Nat)) (2 ^ 22) = i'
  generalize roundDiv (i' * 2 ^ 8 - theta * (2 ^ (23 - kp) : Nat)) (2 ^ 16) = st
  by_cases hi : steerMax < st
  · exact .inr (.inl ⟨if v.i < i' then v.i else i', by split_ifs <;> omega, by rw [if_pos hi]⟩)
  · by_cases lo : st < -steerMax
    · exact .inr (.inr ⟨if i' < v.i then v.i else i', by split_ifs <;> omega, by rw [if_neg hi, if_pos lo]⟩)
    · exact .inl ⟨i', st, by rw [if_neg hi, if_neg lo], Int.not_lt.1 lo, Int.not_lt.1 hi⟩

/-- STEER takes the word that waits for ct 256. -/
theorem steerApply_some {v : Int} {d : Dev} (h : d.time.newSteer = some v) :
    steerApply d = { ({ d with clk := { d.clk with ct := 256 } } : Dev).setLive R.TIME_STEER (toWord (ofSigned 32 v)) with
      time := { d.time with newSteer := none } } := by
  unfold steerApply
  simp only [h]

/-! ### Work on the block that draws pips, and the record of ST (R42, R66) -/

/-- The pips have been granted: the work is done, and they are taken. -/
theorem withPips_paid {r a n : Nat} {f : Dev → Dev} {d : Dev} (h : 16 * n ≤ (d.budAct r a).got) :
    withPips r a n f d = f (d.setBudAct r a { d.budAct r a with got := (d.budAct r a).got - 16 * n }) := if_pos h

/-- The pips have not been granted: they are asked for. -/
theorem withPips_waits {r a n : Nat} {f : Dev → Dev} {d : Dev} (h : (d.budAct r a).got < 16 * n) :
    withPips r a n f d = d.setBudAct r a { d.budAct r a with want := max (d.budAct r a).want (16 * n - (d.budAct r a).got) } :=
  if_neg (Nat.not_le.2 h)

theorem Dev.budAct_setBudAct (d : Dev) (r a : Nat) (b : BudAct) : (d.setBudAct r a b).budAct r a = b := by
  simp [Dev.budAct, Dev.setBudAct]

/-- The activities' records come from the budget alone. -/
theorem Dev.budAct_congr {d e : Dev} (r a : Nat) (h : e.bud = d.bud) : e.budAct r a = d.budAct r a := by simp [Dev.budAct, h]

/-- A count of writes to a sector touches the memory's own state and what an event touches (R396). -/
theorem wearAdd_keeps (sector n : Nat) (d : Dev) :
    (wearAdd sector n d).clk = d.clk ∧ (wearAdd sector n d).time = d.time ∧ (wearAdd sector n d).bud = d.bud := by
  unfold wearAdd
  dsimp only
  split_ifs <;> exact ⟨by simp, by simp, by simp⟩

theorem wearRecord_keeps (d : Dev) : (wearRecord d).clk = d.clk ∧ (wearRecord d).time = d.time ∧ (wearRecord d).bud = d.bud := by
  obtain ⟨clk, time, bud⟩ := wearAdd_keeps 192 8 d
  unfold wearRecord wearCount
  dsimp only
  split_ifs
  · exact ⟨clk, time, bud⟩
  · obtain ⟨clk', time', bud'⟩ := wearAdd_keeps 192 8 { wearAdd 192 8 d with
      ram := { (wearAdd 192 8 d).ram with wearKept := kset (wearAdd 192 8 d).ram.wearKept 192 (kget (wearAdd 192 8 d).ram.wear 192 0) } }
    exact ⟨clk'.trans clk, time'.trans time, bud'.trans bud⟩

/-- Settles O30: a good beacon comes down to its θ, which the AT source takes or refuses by the jump limit; STEER and the record of ST are each one
lemma about their function; the servo's bound is a case split on its clamp. -/
theorem beaconsAndSteering : Obligations.BeaconsAndSteering := by
  refine ⟨fun s p chars k t2 hp => ⟨fun h => ?crc, ?beacon, fun v hv => ?steer, rfl, fun hg => ?paid, fun hg => ?waits⟩, ?servo⟩
  case crc => exact onDev_eq (beaconReceive_bad_crc k s.dev hp h)
  case beacon =>
    intro n lag t diff u d1 th d2 hl hc hlag hst hi he hu hv hlen hs hstate hturn
    have port : d1.tport p = u := Dev.tport_setTport _ _ _ hlen
    have shown : thetaShown p th d1 = d2 := by unfold thetaShown; rw [port]
    have taken : beaconReceive p chars false k s.dev = atUpdate p th d2 := by
      rw [beaconReceive_good hp hl hc hlag hst hi he hu hv, ← shown]
      exact thetaTaken_locked th (d := d1) hs hstate hturn
    exact ⟨fun h => onDev_eq (taken.trans (atUpdate_within hstate h)), fun h => onDev_eq (taken.trans (atUpdate_beyond hstate h))⟩
  case steer => exact ⟨_, onDev_eq (steerApply_some hv), rfl, Dev.liveReg_setLive_self _ _ _, rfl, rfl⟩
  case paid =>
    obtain ⟨clk, time, bud⟩ := wearRecord_keeps { s.dev.setBudAct 2 6 { s.dev.budAct 2 6 with got := (s.dev.budAct 2 6).got - 16 * 1 } with
      time := { s.dev.time with stMram := s.dev.time.st } }
    refine ⟨_, onDev_eq (withPips_paid hg), time, clk, ?_⟩
    exact congrArg BudAct.got ((Dev.budAct_congr 2 6 bud).trans (Dev.budAct_setBudAct s.dev 2 6 _))
  case waits => exact onDev_eq (withPips_waits hg)
  case servo =>
    have within : -steerMax ≤ steerMax := by decide
    intro kp ki theta v
    rcases servoStep_cases kp ki theta v with ⟨i, st, h, low, high⟩ | ⟨i, hi, h⟩ | ⟨i, hi, h⟩
    · rw [h]
      exact ⟨low, high, nofun, rfl, rfl⟩
    · rw [h]
      exact ⟨within, le_refl _, fun _ => .inl ⟨rfl, hi⟩, rfl, rfl⟩
    · rw [h]
      exact ⟨le_refl _, within, fun _ => .inr ⟨rfl, hi⟩, rfl, rfl⟩

end Sys2Proof.Machine

/-! The delay exchange, time steps and the stretched interval (R50, R51, R55 to R58, R325). -/

namespace Sys2Proof.Machine

open Sys2Proof.Safety

/-! ### A Delay_Req leaves (R50) -/

/-- The Delay_Req that port p sends next. -/
def delayReqOf (p : Nat) (d : Dev) : DelayReq :=
  { port := p, domain := d.get F.TIME_CTRL_DOMAIN, chip := d.chipId, portNumber := p + 1, seq := (d.tport p).nextSeq
    chars := delayReqFrame (d.get F.TIME_CTRL_DOMAIN) d.chipId (p + 1) (d.tport p).nextSeq }

/-- The exchange that it opens, its first bit leaving t3fb fine bins after ct 8 192. -/
def exchangeOf (p t3fb : Nat) (d : Dev) : Exchange :=
  { seq := (d.tport p).nextSeq, turn := d.clk.bounds
    t3c := ((d.clk.turn * 16384 + 8192) * 2048 + t3fb : Nat) + ((d.reg (R.TIME_PORT_CAL p 0)).toNat : Int), diff := (d.tport p).diff }

/-- The block at ct 8 192 with the request handed to the lane and its exchange open. -/
def exchangeOpened (p t3fb : Nat) (d : Dev) : Dev :=
  let e := d.setTport p { d.tport p with nextSeq := ((d.tport p).nextSeq + 1) % 65536, exch := (d.tport p).exch ++ [exchangeOf p t3fb d] }
  { e with clk := { d.clk with ct := 8192 }, time := { e.time with sent := d.time.sent ++ [delayReqOf p d] } }

/-- A unit that leaves on a lane touches the links alone. -/
theorem emitUnit_keeps (l : Nat) (u : SentUnit) (d : Dev) :
    (emitUnit l u d).clk = d.clk ∧ (emitUnit l u d).regs = d.regs ∧ (emitUnit l u d).time = d.time := ⟨rfl, rfl, rfl⟩

theorem delayReqSend_sends {p : Nat} (t3fb : Nat) {d : Dev} (hp : p < 2) (ht : exchangeTurn d = true)
    (hs : d.get (F.LNK_LANE_STATUS_STAGE (16 + p)) = 5) (hx : d.is F.TIME_CTRL_EXCH_TXTS = false) :
    delayReqSend p t3fb d = emitUnit (16 + p) (.linkFrame (delayReqOf p d).chars) (exchangeOpened p t3fb d) := by
  have quiet : ¬ (emitUnit (16 + p) (.linkFrame (delayReqOf p d).chars) (exchangeOpened p t3fb d)).is F.TIME_CTRL_EXCH_TXTS = true := by
    rw [Dev.is, Dev.get_congr _ (emitUnit_keeps _ _ _).2.1]
    exact ne_true_of_eq_false hx
  have due : ¬ (!exchangeTurn d || d.get (F.LNK_LANE_STATUS_STAGE (16 + p)) != 5) = true := by simp [ht, hs]
  rw [delayReqSend, Nat.mod_eq_of_lt hp]
  exact (if_neg due).trans (if_neg quiet)

/-! ### A Delay_Resp arrives, or does not (R50, R51) -/

/-- The timing ports come from the state of array time alone. -/
theorem Dev.tport_congr {d e : Dev} (p : Nat) (h : e.time = d.time) : e.tport p = d.tport p := by simp [Dev.tport, h]

theorem Dev.setTport_setTport (d : Dev) (p : Nat) (t u : TPort) : (d.setTport p t).setTport p u = d.setTport p u := by
  simp [Dev.setTport]

/-- The arrival of the Delay_Req at the master, t4, that the bytes of a Delay_Resp give (R50, R51). -/
def respT4 (m : List Byte) : Int :=
  roundDiv (((bytesNat (m.drop 34 |>.take 6) * 1000000000 + bytesNat (m.drop 40 |>.take 4)) * 65536 : Nat) + signedOf 64 (bytesNat (m.drop 8 |>.take 8))) 50

/-- A good Delay_Resp for the one exchange under way closes it, and its d is the newest of those held. -/
theorem delayRespReceive_closes {p : Nat} {chars m : List Byte} {d : Dev} {e : Exchange} {diff : Int} (hp : p < 2) (hlen : p < d.time.ports.length)
    (hm : chars.take (chars.length - 4) = m) (h34 : 34 ≤ chars.length - 4) (hver : m.getD 1 0 = 0x12)
    (hcrc : crc32c m = bytesNat (chars.drop (chars.length - 4))) (hdom : bytesNat (m.drop 4 |>.take 1) = d.get F.TIME_CTRL_DOMAIN)
    (htype : (m.getD 0 0).toNat % 16 = 9) (hex : (d.tport p).exch = [e]) (hseq : e.seq = bytesNat (m.drop 30 |>.take 2))
    (hdiff : e.diff = some diff) (hup : d.is (upField p) = true) :
    delayRespReceive p chars false d =
      (d.setTport p { d.tport p with exch := [], ds := (diff + (respT4 m - e.t3c)) :: (d.tport p).ds.take 63 }).put (delayValidField p) 1 := by
  have up (t : TPort) : ((d.setTport p t).put (delayValidField p) 1).is (upField p) = true := by
    rw [Dev.is, Dev.get_put_field _ _ _ _ (by unfold delayValidField; split_ifs <;> decide) (by unfold delayValidField; split_ifs <;> decide)
      (by unfold delayValidField upField; split_ifs <;> decide)]
    exact hup
  unfold delayRespReceive
  simp only [Nat.mod_eq_of_lt hp, hm, Nat.not_lt.2 h34, hver, hcrc, hdom, htype, hex, ← hseq, hdiff, List.find?_cons, List.filter_cons, List.filter_nil,
    beq_self_eq_true, bne_self_eq_false, decide_false, Bool.or_self, Bool.false_eq_true, if_false, Dev.tport_setTport _ _ _ hlen, Dev.setTport_setTport,
    portReturn_up (up _)]
  rfl

/-- DELAY_VALID of a port is one bit. -/
theorem get_put_delayValid (p : Nat) (d : Dev) : (d.put (delayValidField p) 1).get (delayValidField p) = 1 := by
  unfold delayValidField
  split_ifs
  · exact Dev.get_put_self _ _ _ (by decide) (by decide)
  · exact Dev.get_put_self _ _ _ (by decide) (by decide)

theorem exchangeTimeout_drops {p : Nat} {d : Dev} {e : Exchange} {r : List Exchange} (hp : p < 2) (h : (d.tport p).exch = e :: r)
    (ht : e.turn + 4 ≤ d.clk.bounds) : exchangeTimeout p d = count1 (R.TIME_COUNT (4 + p)) (d.setTport p { d.tport p with exch := r }) := by
  unfold exchangeTimeout exchangeDrop
  simp only [Nat.mod_eq_of_lt hp, h, if_pos ht]
  rfl

theorem exchangeTimeout_waits {p : Nat} {d : Dev} {e : Exchange} {r : List Exchange} (hp : p < 2) (h : (d.tport p).exch = e :: r)
    (ht : d.clk.bounds < e.turn + 4) : exchangeTimeout p d = d := by
  unfold exchangeTimeout
  simp only [Nat.mod_eq_of_lt hp, h, if_neg (Nat.not_le.2 ht)]

/-! ### Requests for a step (R55, R56, R325) -/

/-- A request in range is BUSY where a step is pending, else taken. -/
theorem stepStatus_in_range {n : Nat} {d : Dev} (hv : d.turnValid = true) (h2 : d.clk.turn + 2 ≤ n) (hn : n ≤ d.clk.turn + 32767) :
    stepStatus n d = if d.time.step.isSome then 1 else 0 := by
  unfold stepStatus
  rw [hv, if_neg (by decide), if_neg (by omega), if_neg (by omega)]

theorem timeStepExplicit_in_range {n : Nat} {delta : Int} {d : Dev} (h1 : -(2 ^ 31 * 33554432) ≤ delta) (h3 : delta ≤ (2 ^ 31 - 1) * 33554432 + 32767)
    (hv : d.turnValid = true) (h2 : d.clk.turn + 2 ≤ n) (hn : n ≤ d.clk.turn + 32767) :
    timeStepExplicit n delta d = if d.time.step.isSome then (d, 1) else (stepStore .explicit n (some delta) d, 0) := by
  unfold timeStepExplicit
  rw [if_neg (by simp; omega), stepStatus_in_range hv h2 hn]
  cases d.time.step.isSome <;> rfl

theorem timeStepAdopt_in_range {p n : Nat} {d : Dev} (hp : p < 2) (hv : d.turnValid = true) (h2 : d.clk.turn + 2 ≤ n) (hn : n ≤ d.clk.turn + 32767) :
    timeStepAdopt p n d = if d.time.step.isSome then (d, 1) else (stepStore (.adopt p) n none d, 0) := by
  unfold timeStepAdopt
  rw [stepStatus_in_range hv h2 hn, Nat.mod_eq_of_lt hp]
  cases d.time.step.isSome <;> rfl

/-- Before the guard window a step that is not due is cancelled, and one that is due is LATE. -/
theorem timeStepCancel_early {d : Dev} {x : PendingStep} (hs : d.time.step = some x) (hct : d.clk.ct < 16368) :
    timeStepCancel d = if x.due then (d, 2) else ({ d.put F.TIME_STATUS_STEP_PENDING 0 with time := { d.time with step := none } }, 0) := by
  have closed : d.guardOpen = false := decide_eq_false (Nat.not_le.2 hct)
  unfold timeStepCancel
  simp only [closed, Bool.false_eq_true, if_false, hs]

/-- In the guard window the step for the next boundary is due, and LATE. -/
theorem timeStepCancel_late {d : Dev} {x : PendingStep} (hs : d.time.step = some x) (hd : x.due = true ∨ x.n = (d.clk.turn + 1) % 2 ^ 48)
    (hct : 16368 ≤ d.clk.ct) : timeStepCancel d = (guardMark d, 2) := by
  have opened : d.guardOpen = true := decide_eq_true hct
  have due : ∃ y, (guardMark d).time.step = some y ∧ y.due = true := by
    refine ⟨_, congrArg (Option.map _) hs, ?_⟩
    dsimp only
    split_ifs with hn
    · rfl
    · exact hd.resolve_right (fun h => hn (beq_iff_eq.2 h))
  obtain ⟨y, hy, hdue⟩ := due
  unfold timeStepCancel
  simp only [opened, if_true, hy, hdue]

/-! ### TIME_STEP as a message (R325) -/

/-- The range of δ of R325. -/
theorem delta_in_range {delta : Int} (h1 : -(2 ^ 31 * 33554432) ≤ delta) (h2 : delta ≤ (2 ^ 31 - 1) * 33554432 + 32767) :
    (deltaMin ≤ delta && delta ≤ deltaMax) = true := by
  rw [Bool.and_eq_true, decide_eq_true_iff, decide_eq_true_iff]
  exact ⟨(Int.neg_mul _ _).le.trans h1, h2⟩

theorem mTimeStep_explicit {n : Nat} {delta : Int} (d : Dev) (hn : n < 2 ^ 48) (h1 : -(2 ^ 31 * 33554432) ≤ delta)
    (h2 : delta ≤ (2 ^ 31 - 1) * 33554432 + 32767) : mTimeStep (0 :: hiLo n ++ hiLo (ofSigned 64 delta)) d = timeStepExplicit n delta d := by
  have turn : turnOf (wordAt (0 :: hiLo n ++ hiLo (ofSigned 64 delta)) 1) (wordAt (0 :: hiLo n ++ hiLo (ofSigned 64 delta)) 2) = n := turnOf_hiLo n hn
  have moved : signedOf 64 ((wordAt (0 :: hiLo n ++ hiLo (ofSigned 64 delta)) 3).toNat * 2 ^ 32 +
      (wordAt (0 :: hiLo n ++ hiLo (ofSigned 64 delta)) 4).toNat) = delta := signedOf_hiLo delta h1 h2
  have mode : bits (wordAt (0 :: hiLo n ++ hiLo (ofSigned 64 delta)) 0) 3 0 = 0 := by
    change bits 0 3 0 = 0
    decide
  unfold mTimeStep
  rw [turn, moved, mode]
  dsimp only
  rw [delta_in_range h1 h2]
  exact if_pos rfl

theorem mTimeStep_adopt {p n : Nat} (d : Dev) (hp : p < 2) (hn : n < 2 ^ 48) :
    mTimeStep (toWord (1 + p) :: hiLo n ++ [0, 0]) d = timeStepAdopt p n d := by
  have turn : turnOf (wordAt (toWord (1 + p) :: hiLo n ++ [0, 0]) 1) (wordAt (toWord (1 + p) :: hiLo n ++ [0, 0]) 2) = n := turnOf_hiLo n hn
  have still : signedOf 64 ((wordAt (toWord (1 + p) :: hiLo n ++ [0, 0]) 3).toNat * 2 ^ 32 + (wordAt (toWord (1 + p) :: hiLo n ++ [0, 0]) 4).toNat) = 0 := by
    change signedOf 64 ((0 : Word).toNat * 2 ^ 32 + (0 : Word).toNat) = 0
    decide
  have ports : p = 0 ∨ p = 1 := by omega
  have mode : bits (wordAt (toWord (1 + p) :: hiLo n ++ [0, 0]) 0) 3 0 = 1 + p := by
    change bits (toWord (1 + p)) 3 0 = 1 + p
    rcases ports with rfl | rfl <;> decide
  unfold mTimeStep
  rw [turn, still, mode]
  rcases ports with rfl | rfl <;> rfl

theorem mTimeStep_cancel (d : Dev) : mTimeStep [3, 0, 0, 0, 0] d = timeStepCancel d := by
  have still : signedOf 64 ((wordAt [3, 0, 0, 0, 0] 3).toNat * 2 ^ 32 + (wordAt [3, 0, 0, 0, 0] 4).toNat) = 0 := by decide
  have mode : bits (wordAt [3, 0, 0, 0, 0] 0) 3 0 = 3 := by decide
  unfold mTimeStep
  rw [still, mode]
  rfl

/-- The δ that an EXPLICIT request in range carries is sent as it is. -/
theorem exec_timeStepExplicit {c : MsgCtx} {n : Nat} {delta : Int} {s : State} (hn : n < 2 ^ 48) (h1 : -(2 ^ 31 * 33554432) ≤ delta)
    (h2 : delta ≤ (2 ^ 31 - 1) * 33554432 + 32767) :
    exec (.timeStepExplicit c n delta) s = .next (direct 0x0502 c (0 :: hiLo n ++ hiLo (ofSigned 64 delta)) s) := by
  have turn : n % turnMod = n := Nat.mod_eq_of_lt hn
  change Host.Outcome.next (direct 0x0502 c (0 :: hiLo (n % turnMod) ++ hiLo (ofSigned 64 (if (deltaMin ≤ delta && delta ≤ deltaMax) = true then delta else 2 ^ 62))) s) = _
  rw [if_pos (delta_in_range h1 h2), turn]

theorem exec_timeStepAdopt {c : MsgCtx} {p n : Nat} {s : State} (hp : p < 2) (hn : n < 2 ^ 48) :
    exec (.timeStepAdopt c p n) s = .next (direct 0x0502 c (toWord (1 + p) :: hiLo n ++ [0, 0]) s) := by
  have turn : n % turnMod = n := Nat.mod_eq_of_lt hn
  change Host.Outcome.next (direct 0x0502 c (toWord (1 + p % 2) :: hiLo (n % turnMod) ++ [0, 0]) s) = _
  rw [turn, Nat.mod_eq_of_lt hp]

/-- An accepted TIME_STEP is answered with the status that its function gives. -/
theorem direct_timeStep {c : MsgCtx} {w : List Word} {s : State} {d : Dev} {st : Nat} (a : Accepted 0x0502 c w s) (h : mTimeStep w s.dev = (d, st)) :
    direct 0x0502 c w s = answer 0x0502 c st [] (withDev s d) := by
  have step : message 0x0502 c w s = plainMsg (mTimeStep w) s := rfl
  exact direct_answer a rfl (by rw [step, plainMsg, devMsg, h]; rfl)

/-! ### The end of a stretched interval (R58, R192) -/

/-- The words of the chip-level GAP of cause STEP_STRETCH. -/
def stretchGap (d : Dev) : List Word64 :=
  [pack64 [(63, 60, 5), (51, 51, 1), (50, 48, 4), (39, 0, ({ turn := d.clk.turn, ct := 16383, fb := 2047 } : Stamp).t40)],
    pack64 [(63, 32, min d.clk.stretchLost (2 ^ 32 - 1)), (31, 0, d.clk.stepF.natAbs)]]

theorem stretchEnd_emits {d : Dev} (hs : d.clk.stepped = true) (hf : d.clk.stepF < 0) (hd : d.clk.stretchDone = false) :
    stretchEnd d = { d with
      clk := { d.clk with ct := d.clk.lastCt, stretchLost := 0, stretchDone := true }
      fifos := kset d.fifos 130 (kget d.fifos 130 [] ++ [{ t := { turn := d.clk.turn, ct := 16383, fb := 2047 }, src := 130, words := stretchGap d }]) } := by
  unfold stretchEnd
  rw [if_neg (by simp [hs, hd]; exact hf)]
  rfl

theorem stretchEnd_over {d : Dev} (h : d.clk.stepped = false ∨ d.clk.stretchDone = true) : stretchEnd d = d := by
  unfold stretchEnd
  rw [if_pos (by rcases h with h | h <;> simp [h])]

/-- The item is a GAP, type 5, of cause 4, whatever its T40. -/
theorem gap_fields (x : Nat) : wbits (pack64 [(63, 60, 5), (51, 51, 1), (50, 48, 4), (39, 0, x)]) 63 60 = 5 ∧
    wbits (pack64 [(63, 60, 5), (51, 51, 1), (50, 48, 4), (39, 0, x)]) 50 48 = 4 := by
  have low : x % 2 ^ 40 < 2 ^ 40 := Nat.mod_lt _ (Nat.two_pow_pos _)
  simp only [wbits, nbits, pack64, List.foldl_cons, List.foldl_nil, BitVec.toNat_ofNat, Nat.shiftRight_eq_div_pow]
  norm_num at low ⊢
  omega

/-- Settles O31: the exchange by its request, its response and its timeout; a step by the message that asks for it and the function that the
message calls; the stretched interval by what its end emits. -/
theorem delayExchangeAndTimeSteps : Obligations.DelayExchangeAndTimeSteps := by
  refine ⟨fun s p t3fb chars e r diff hp hlen => ⟨fun ht hs hx => ?sends, ?closes, fun h ht => ?drops, fun h ht => ?waits⟩,
    fun s c n p delta x hn hp h1 h2 => ⟨⟨fun a hv h3 h4 h0 => ?explicit, fun a hv h3 h4 h0 => ?adopt, fun a hv h3 h4 hx => ?busy⟩,
      fun a hx hd hct => ?cancelled, fun a hx hd hct => ?due, fun a hx hd hct => ?late, fun hs hf hd => ?emits, fun h => ?ended⟩⟩
  case sends =>
    obtain ⟨clk, regs, time⟩ := emitUnit_keeps (16 + p) (.linkFrame (delayReqOf p s.dev).chars) (exchangeOpened p t3fb s.dev)
    have port : (emitUnit (16 + p) (.linkFrame (delayReqOf p s.dev).chars) (exchangeOpened p t3fb s.dev)).tport p = _ :=
      (Dev.tport_congr p time).trans (Dev.tport_setTport s.dev p _ hlen)
    exact ⟨_, onDev_eq (delayReqSend_sends t3fb hp ht hs hx), clk, regs, congrArg TPort.nextSeq port,
      ⟨exchangeOf p t3fb s.dev, congrArg TPort.exch port, rfl, rfl, rfl, rfl⟩,
      delayReqOf p s.dev, congrArg TimeSt.sent time, rfl, rfl, rfl, rfl, rfl, rfl⟩
  case closes =>
    intro n m h34 hver hcrc hdom htype hex hseq hdiff hup t4
    have port := Dev.tport_setTport s.dev p { s.dev.tport p with exch := [], ds := (diff + (t4 - e.t3c)) :: (s.dev.tport p).ds.take 63 } hlen
    exact ⟨_, onDev_eq (delayRespReceive_closes hp hlen rfl h34 hver hcrc hdom htype hex hseq hdiff hup), congrArg TPort.exch port, congrArg TPort.ds port,
      get_put_delayValid p _, rfl⟩
  case drops => exact onDev_eq ((congrArg (exchangeTimeout · s.dev) (Nat.mod_eq_of_lt hp)).trans (exchangeTimeout_drops hp h ht))
  case waits => exact onDev_eq ((congrArg (exchangeTimeout · s.dev) (Nat.mod_eq_of_lt hp)).trans (exchangeTimeout_waits hp h ht))
  case explicit =>
    rw [exec_timeStepExplicit hn h1 h2]
    refine congrArg _ (direct_timeStep a ((mTimeStep_explicit s.dev hn h1 h2).trans ((timeStepExplicit_in_range h1 h2 hv h3 h4).trans ?_)))
    rw [h0]
    rfl
  case adopt =>
    rw [exec_timeStepAdopt hp hn]
    refine congrArg _ (direct_timeStep a ((mTimeStep_adopt s.dev hp hn).trans ((timeStepAdopt_in_range hp hv h3 h4).trans ?_)))
    rw [h0]
    rfl
  case busy =>
    rw [exec_timeStepExplicit hn h1 h2]
    refine congrArg _ (direct_timeStep a ((mTimeStep_explicit s.dev hn h1 h2).trans ((timeStepExplicit_in_range h1 h2 hv h3 h4).trans ?_)))
    rw [hx]
    rfl
  case cancelled => exact congrArg _ (direct_timeStep a ((mTimeStep_cancel s.dev).trans ((timeStepCancel_early hx hct).trans (if_neg (ne_true_of_eq_false hd)))))
  case due => exact congrArg _ (direct_timeStep a ((mTimeStep_cancel s.dev).trans ((timeStepCancel_early hx hct).trans (if_pos hd))))
  case late => exact congrArg _ (direct_timeStep a ((mTimeStep_cancel s.dev).trans (timeStepCancel_late hx hd hct)))
  case emits => exact ⟨stretchGap s.dev, onDev_eq (stretchEnd_emits hs hf hd), gap_fields _⟩
  case ended => exact onDev_eq (stretchEnd_over h)

end Sys2Proof.Machine

/-! Auxiliary inputs, gates and frequency results (R58, R115, R119 to R122). -/

namespace Sys2Proof.Machine

open Sys2Proof.Safety

/-! ### Does an edge merge (R115)? -/

theorem mergesAt_near {last : Option Int} {t : Int} (h : ∃ y, last = some y ∧ y ≤ t ∧ t ≤ y + 2097) : mergesAt last t = true := by
  obtain ⟨y, rfl, hy, ht⟩ := h
  have near : t - y ≤ 2097 := by omega
  simp [mergesAt, hy, near]

theorem mergesAt_far {last : Option Int} {t : Int} (h : ∀ y, last = some y → t < y ∨ y + 2097 < t) : mergesAt last t = false := by
  cases last with
  | none => rfl
  | some y =>
    have apart := h y rfl
    simp only [mergesAt, Bool.and_eq_false_iff, decide_eq_false_iff_not]
    omega

/-! ### An edge at an auxiliary input (R58, R119) -/

/-- What an auxiliary unit makes of an edge that its chains stamp: AUX_FREQ keeps its time, AUX_TRIG pairs it (R119). -/
def auxPaired (u : Nat) (trailing : Bool) (t : Int) (uncal : Bool) (d : Dev) : Dev :=
  if u != auxTrig then freqInEdge trailing t d
  else if trailing then trailEdge u (turnOfFb t) t uncal d else leadEdge u (turnOfFb t) t uncal d

theorem auxPaired_trail (t : Int) (uncal : Bool) (d : Dev) : auxPaired auxTrig true t uncal d = trailEdge auxTrig (turnOfFb t) t uncal d := rfl
theorem auxPaired_lead (t : Int) (uncal : Bool) (d : Dev) : auxPaired auxTrig false t uncal d = leadEdge auxTrig (turnOfFb t) t uncal d := rfl

section Edge

variable {u ct : Nat} {trailing : Bool} {k : List Nat} {d : Dev} {t : Int}

/-- In the stretched interval an edge of an enabled input is lost and counted (R58). -/
theorem auxEdge_stretched (h : 16384 ≤ ct) (hen : auxEnabled u d.clk.turn d = true) :
    auxEdge u trailing ct k d = ({ d with clk := { d.clk with stretchLost := d.clk.stretchLost + 1 } }, none) := by
  unfold auxEdge
  rw [if_pos h, if_pos hen]

theorem auxEdge_unresolved (h : ct < 16384) (hs : edgeStamp u d.clk.turn ct k d = none) :
    auxEdge u trailing ct k d = (if trailing then trailUnresolved u d else d, none) := by
  unfold auxEdge
  rw [if_neg (Nat.not_le.2 h)]
  simp only [hs]

/-- An input that is off at the edge's time, without an open pulse, does nothing with it. -/
theorem auxEdge_off (h : ct < 16384) (hs : edgeStamp u d.clk.turn ct k d = some t) (hen : auxEnabled u (turnOfFb t) d = false)
    (hp : (d.unit u).pulse = none) : auxEdge u trailing ct k d = (d, none) := by
  unfold auxEdge
  rw [if_neg (Nat.not_le.2 h)]
  simp only [hs, hen, hp]
  rfl

/-- An edge of an enabled input that merges goes to the unit alone. -/
theorem auxEdge_merged (h : ct < 16384) (hs : edgeStamp u d.clk.turn ct k d = some t) (hen : auxEnabled u (turnOfFb t) d = true)
    (hm : d.mergesEdge u trailing t = true) : auxEdge u trailing ct k d = (auxPaired u trailing t (calState u d != 2) d, none) := by
  unfold auxEdge
  rw [if_neg (Nat.not_le.2 h)]
  simp only [hs, hen, hm]
  rfl

/-- One that does not merge goes to the frequency engines and then to the unit. -/
theorem auxEdge_kept (h : ct < 16384) (hs : edgeStamp u d.clk.turn ct k d = some t) (hen : auxEnabled u (turnOfFb t) d = true)
    (hm : d.mergesEdge u trailing t = false) :
    auxEdge u trailing ct k d = (auxPaired u trailing t (calState u d != 2) (freqEdge u trailing t (calState u d != 2) d), some t) := by
  unfold auxEdge
  rw [if_neg (Nat.not_le.2 h)]
  simp only [hs, hen, hm]
  rfl

/-- An edge on TRIG_IN that the unit does not keep offers nothing. -/
theorem trigInEdge_not_kept {e : Dev} (h : auxEdge auxTrig trailing ct k d = (e, none)) : trigInEdge trailing ct k d = e := by
  unfold trigInEdge
  rw [h]

/-- A trailing edge on TRIG_IN offers nothing. -/
theorem trigInEdge_trailing {e : Dev} (h : auxEdge auxTrig true ct k d = (e, some t)) : trigInEdge true ct k d = e := by
  unfold trigInEdge
  rw [h]
  rfl

/-- A leading edge on TRIG_IN that the unit keeps offers TRIG_IN to every channel (R132). -/
theorem trigInEdge_leading {e : Dev} (h : auxEdge auxTrig false ct k d = (e, some t)) :
    trigInEdge false ct k d = offerAll { src := 3, t := t, gov := turnOfFb t, noLocal := false, tdc := false, cls := none, force := false } e := by
  unfold trigInEdge
  rw [h]
  rfl

/-- FREQ_IN keeps the block that its edge leaves. -/
theorem exec_freqInEdge {s : State} {e : Dev} {o : Option Int} (h : auxEdge auxFreq trailing ct k s.dev = (e, o)) :
    exec (.freqInEdge trailing ct k) s = .next (withDev s e) :=
  onDev_eq (f := fun d => (auxEdge auxFreq trailing ct k d).1) (congrArg Prod.fst h)

theorem exec_trigInEdge {s : State} {e : Dev} (h : trigInEdge trailing ct k s.dev = e) : exec (.trigInEdge trailing ct k) s = .next (withDev s e) :=
  onDev_eq h

end Edge

/-! ### The engines leave the units alone (R120 to R122) -/

theorem countUnpaired_units (e n : Nat) (d : Dev) : (countUnpaired e n d).tdc.units = d.tdc.units := by
  unfold countUnpaired
  dsimp only
  split_ifs
  · rfl
  · rw [raise_tdc]; rfl
  · rfl

theorem pairEdge_units (e : Nat) (g : Gate) (start stop : Int × Bool) (d : Dev) : (pairEdge e g start stop d).2.tdc.units = d.tdc.units := rfl

/-- The start side of an INTERVAL gate: an edge of SRC pairs with the oldest stop that waits, or waits itself (R122). -/
def gateStart (e u : Nat) (t : Int) (uncal : Bool) (g : Gate) (d : Dev) : Gate × Dev :=
  if u == g.src then
    (match g.stops with
    | s :: r => pairEdge e { g with stops := r } (t, uncal) s d
    | [] => if g.starts.length < 16 then ({ g with starts := g.starts ++ [(t, uncal)] }, d) else (g, countUnpaired e 1 d))
  else (g, d)

/-- The stop side: an edge of STOP_SRC pairs with the oldest start that waits, or waits itself (R122). -/
def gateStop (e u : Nat) (t : Int) (uncal : Bool) (g : Gate) (d : Dev) : Gate × Dev :=
  if u == g.stopSrc then
    (match g.starts with
    | s :: r => pairEdge e { g with starts := r } s (t, uncal) d
    | [] => if g.stops.length < 16 then ({ g with stops := g.stops ++ [(t, uncal)] }, d) else (g, countUnpaired e 1 d))
  else (g, d)

theorem gateStart_units (e u : Nat) (t : Int) (uncal : Bool) (g : Gate) (d : Dev) : (gateStart e u t uncal g d).2.tdc.units = d.tdc.units := by
  unfold gateStart
  split
  · split
    · exact pairEdge_units _ _ _ _ _
    · split
      · rfl
      · exact countUnpaired_units _ _ _
  · rfl

theorem gateStop_units (e u : Nat) (t : Int) (uncal : Bool) (g : Gate) (d : Dev) : (gateStop e u t uncal g d).2.tdc.units = d.tdc.units := by
  unfold gateStop
  split
  · split
    · exact pairEdge_units _ _ _ _ _
    · split
      · rfl
      · exact countUnpaired_units _ _ _
  · rfl

/-- A gate that does not measure an interval only counts its edges; one that does takes the start side and then the stop side. -/
theorem gateEdge_cases (e u : Nat) (trailing : Bool) (t : Int) (uncal : Bool) (g : Gate) (d : Dev) :
    (gateEdge e u trailing t uncal g d).2 = d ∨
      gateEdge e u trailing t uncal g d = gateStop e u t uncal (gateStart e u t uncal g d).1 (gateStart e u t uncal g d).2 := by
  unfold gateEdge
  split
  · exact .inl rfl
  · split
    · exact .inr rfl
    · split
      · exact .inl rfl
      · exact .inl rfl

theorem gateEdge_units (e u : Nat) (trailing : Bool) (t : Int) (uncal : Bool) (g : Gate) (d : Dev) :
    (gateEdge e u trailing t uncal g d).2.tdc.units = d.tdc.units := by
  rcases gateEdge_cases e u trailing t uncal g d with h | h
  · rw [h]
  · rw [h, gateStop_units, gateStart_units]

theorem freqEdge_units (u : Nat) (trailing : Bool) (t : Int) (uncal : Bool) (d : Dev) : (freqEdge u trailing t uncal d).tdc.units = d.tdc.units := by
  unfold freqEdge
  refine foldl_keep (fun d : Dev => d.tdc.units) _ (fun d e => ?_) (List.range 4) d
  exact foldl_keep (fun acc : List Gate × Dev => acc.2.tdc.units) _ (fun acc g => gateEdge_units e u trailing t uncal g acc.2) (d.gatesOf e) ([], d)


theorem freqEdge_unit (u w : Nat) (trailing : Bool) (t : Int) (uncal : Bool) (d : Dev) : (freqEdge u trailing t uncal d).unit w = d.unit w := by
  rw [Dev.unit, freqEdge_units, ← Dev.unit]

/-! ### AUX_FREQ keeps the time of an edge (R115, R119) -/

/-- The block with the time of AUX_FREQ's last edge of a polarity. -/
def freqSeen (trailing : Bool) (t : Int) (d : Dev) : Dev :=
  d.setUnit auxFreq (if trailing then { d.unit auxFreq with lastTrail := some t } else { d.unit auxFreq with lastLead := some t })

theorem auxPaired_freq_kept {trailing : Bool} {t : Int} {d : Dev} (uncal : Bool) (h : d.mergesEdge auxFreq trailing t = false) :
    auxPaired auxFreq trailing t uncal d = freqSeen trailing t d := by
  unfold auxPaired freqInEdge
  simp only [h]
  rfl

theorem auxPaired_freq_merged {trailing : Bool} {t : Int} {d : Dev} (uncal : Bool) (h : d.mergesEdge auxFreq trailing t = true) :
    auxPaired auxFreq trailing t uncal d = count1 (R.TDC_COUNT auxFreq 0) (freqSeen trailing t d) := by
  unfold auxPaired freqInEdge
  simp only [h]
  rfl

/-! ### The gates of the engines (R120) -/

theorem Dev.gatesOf_setGates_ne (d : Dev) {e j : Nat} (g : List Gate) (h : j ≠ e) : (d.setGates e g).gatesOf j = d.gatesOf j := by
  simp [Dev.gatesOf, Dev.setGates, List.getElem?_set_ne h.symm]

theorem Dev.gatesOf_setGates_self (d : Dev) {e : Nat} (g : List Gate) (h : d.gatesOf e ≠ []) : (d.setGates e g).gatesOf e = g := by
  have held : e < d.tdc.gates.length := by
    by_contra hout
    exact h (by simp [Dev.gatesOf, List.getElem?_eq_none (Nat.not_lt.1 hout)])
  simp [Dev.gatesOf, Dev.setGates, held]

/-- No gate of engine e is open. -/
theorem no_gate_open {e : Nat} {d : Dev} (h : ∀ g ∈ d.gatesOf e, g.closed.isSome = true) : (d.gatesOf e).find? (fun g => g.closed.isNone) = none := by
  rw [List.find?_eq_none]
  intro g hg
  simp [Option.isSome_iff_ne_none.1 (h g hg)]

theorem truncateGate_none {e : Nat} {now : Int} {d : Dev} (h : (d.gatesOf e).find? (fun g => g.closed.isNone) = none) : truncateGate e now d = d := by
  unfold truncateGate
  rw [h]

theorem truncateGate_short {e : Nat} {now : Int} {d : Dev} {g : Gate} (h : (d.gatesOf e).find? (fun g => g.closed.isNone) = some g) (hf : now ≤ g.full) :
    truncateGate e now d = d := by
  unfold truncateGate
  rw [h]
  exact if_neg (Int.not_lt.2 hf)

/-- Opening a gate of engine e leaves the gates of another. -/
theorem openGate_gatesOf_ne {e j : Nat} (t : Int) (d : Dev) (h : j ≠ e) : (openGate e t d).gatesOf j = d.gatesOf j := by
  unfold openGate
  split
  · rfl
  · exact Dev.gatesOf_setGates_ne d _ h

theorem openGate_gmode (e j : Nat) (t : Int) (d : Dev) : (openGate e t d).get (F.TDC_FR_GATE_GMODE j) = d.get (F.TDC_FR_GATE_GMODE j) := by
  unfold openGate
  split
  · rfl
  · exact Dev.get_put_ne _ _ _ _ (by simp [F.TDC_FR_GATE_GMODE, F.TDC_FR_STATUS_GATE_OPEN]; omega)

theorem closeGate_gatesOf_ne {e j : Nat} (t : Int) (flags : Nat) (shut : Bool) (d : Dev) (h : j ≠ e) :
    (closeGate e t flags shut d).gatesOf j = d.gatesOf j := Dev.gatesOf_setGates_ne d _ h

/-! ### GATE_IN (R120) -/

/-- What a change of GATE_IN to a level does to engine e. -/
def gateEngine (level : Bool) (now : Int) (d : Dev) (e : Nat) : Dev :=
  let d := truncateGate e now d
  let m := d.get (F.TDC_FR_GATE_GMODE e)
  let a := d.tdc.gateArm.getD e (false, false)
  match (d.gatesOf e).find? (fun g => g.closed.isNone) with
  | some g =>
    if g.gmode == 1 && !level then closeGate e now 0 false d
    else if g.gmode == 2 then d.setArm e (if level then (a.1, a.1) else (true, false))
    else d
  | none =>
    if m == 1 && level then openGate e now d
    else if m == 2 && level then d.setArm e (false, true)
    else d

theorem gateInEdge_same {level : Bool} {d : Dev} (h : d.tdc.gateIn = level) : gateInEdge level d = d := by
  unfold gateInEdge
  rw [if_pos (beq_iff_eq.2 h)]

/-- The block with a level of GATE_IN sampled. -/
def gateSampled (level : Bool) (d : Dev) : Dev := { d with tdc := { d.tdc with gateIn := level } }

/-- A change of GATE_IN goes to the four engines in turn. -/
theorem gateInEdge_changes {level : Bool} {d : Dev} (h : d.tdc.gateIn ≠ level) :
    gateInEdge level d = (List.range 4).foldl (gateEngine level (d.now.fbs : Nat)) (gateSampled level d) := by
  unfold gateInEdge
  rw [if_neg (fun e => h (beq_iff_eq.1 e))]
  rfl

/-- A fold in which one element alone acts, once. -/
theorem foldl_single {α β : Type} {f : α → β → α} {a b : α} {x : β} {l : List β} (hn : l.Nodup) (hx : x ∈ l) (at_ : f a x = b)
    (before : ∀ y ∈ l, y ≠ x → f a y = a) (after : ∀ y ∈ l, y ≠ x → f b y = b) : l.foldl f a = b := by
  induction l with
  | nil => simp at hx
  | cons y r ih =>
    obtain ⟨hy, hr⟩ := List.nodup_cons.1 hn
    rw [List.foldl_cons]
    by_cases h : y = x
    · subst h
      rw [at_]
      exact List.foldlRecOn (motive := (· = b)) r f rfl (fun c hc z hz => hc.symm ▸ after z (List.mem_cons_of_mem _ hz) (fun e => hy (e ▸ hz)))
    · rw [before y List.mem_cons_self h]
      exact ih hr (List.mem_of_ne_of_mem (Ne.symm h) hx) (fun z hz => before z (List.mem_cons_of_mem _ hz)) (fun z hz => after z (List.mem_cons_of_mem _ hz))

/-- A change of GATE_IN in which engine e alone acts. -/
theorem gateInEdge_one {level : Bool} {d d' : Dev} {e : Nat} (he : e < 4) (h : d.tdc.gateIn ≠ level)
    (at_ : gateEngine level (d.now.fbs : Nat) (gateSampled level d) e = d')
    (before : ∀ j, j < 4 → j ≠ e → gateEngine level (d.now.fbs : Nat) (gateSampled level d) j = gateSampled level d)
    (after : ∀ j, j < 4 → j ≠ e → gateEngine level (d.now.fbs : Nat) d' j = d') : gateInEdge level d = d' := by
  rw [gateInEdge_changes h]
  exact foldl_single List.nodup_range (List.mem_range.2 he) at_ (fun j hj => before j (List.mem_range.1 hj)) (fun j hj => after j (List.mem_range.1 hj))

section Engine

variable {level : Bool} {now : Int} {d : Dev} {e : Nat}

/-- An engine without an open gate does nothing where GATE_IN falls, or where its GMODE is neither EXTERNAL nor EXT_TURN. -/
theorem gateEngine_idle (hc : ∀ g ∈ d.gatesOf e, g.closed.isSome = true)
    (h : level = false ∨ d.get (F.TDC_FR_GATE_GMODE e) ≠ 1 ∧ d.get (F.TDC_FR_GATE_GMODE e) ≠ 2) : gateEngine level now d e = d := by
  unfold gateEngine
  simp only [truncateGate_none (no_gate_open hc), no_gate_open hc]
  rcases h with h | ⟨h1, h2⟩
  · simp [h]
  · simp [h1, h2]

theorem gateEngine_opens (hc : ∀ g ∈ d.gatesOf e, g.closed.isSome = true) (hm : d.get (F.TDC_FR_GATE_GMODE e) = 1) :
    gateEngine true now d e = openGate e now d := by
  unfold gateEngine
  simp only [truncateGate_none (no_gate_open hc), no_gate_open hc, hm]
  rfl

theorem gateEngine_arms (hc : ∀ g ∈ d.gatesOf e, g.closed.isSome = true) (hm : d.get (F.TDC_FR_GATE_GMODE e) = 2) :
    gateEngine true now d e = d.setArm e (false, true) := by
  unfold gateEngine
  simp only [truncateGate_none (no_gate_open hc), no_gate_open hc, hm]
  rfl

theorem gateEngine_closes {g : Gate} (hg : (d.gatesOf e).find? (fun g => g.closed.isNone) = some g) (hf : now ≤ g.full) (hm : g.gmode = 1) :
    gateEngine false now d e = closeGate e now 0 false d := by
  unfold gateEngine
  simp only [truncateGate_short hg hf, hg, hm]
  rfl

end Engine

/-! ### Results (R121, R122) -/

/-- Without a gate, or with an open one that has not reached its greatest length, there is no result. -/
theorem freqResult_none {e : Nat} {d : Dev} {g : Gate} {rest : List Gate}
    (h : d.gatesOf e = [] ∨ (d.gatesOf e = g :: rest ∧ g.closed = none ∧ (d.now.fbs : Int) ≤ g.full)) : freqResult e d = d := by
  unfold freqResult
  rcases h with h | ⟨h, hc, hf⟩
  · have same : truncateGate e (d.now.fbs : Nat) d = d := truncateGate_none (by rw [h]; rfl)
    simp only [same, h]
  · have same : truncateGate e (d.now.fbs : Nat) d = d := truncateGate_short (g := g) (by rw [h, List.find?_cons, hc]; rfl) hf
    simp only [same, h, hc]

section Result

variable {e : Nat} {d : Dev} {g : Gate} {rest : List Gate} {t : Int}

theorem truncateGate_closed {now : Int} (hg : d.gatesOf e = g :: rest) (hc : g.closed = some t) (hr : ∀ h ∈ rest, h.closed.isSome = true) :
    truncateGate e now d = d := by
  refine truncateGate_none (no_gate_open ?_)
  rw [hg, List.forall_mem_cons, hc]
  exact ⟨rfl, hr⟩

/-- The result of the oldest gate once it has closed, where the model computes no least-squares fit (R121, R122): the waiting edges of an
INTERVAL gate are unpaired; a counting gate gives its edges over its length; a period gate with fewer than two edges is EMPTY. -/
theorem freqResult_closed (hg : d.gatesOf e = g :: rest) (hc : g.closed = some t) (hr : ∀ h ∈ rest, h.closed.isSome = true) :
    (g.kind = 2 → freqResult e d = countUnpaired e (g.starts.length + g.stops.length) (d.setGates e rest)) ∧
    (g.kind = 1 → g.opened < t → ∀ x d', roundFree (g.n * microHzFb : Nat) (t - g.opened).toNat (d.setGates e rest) = (x, d') →
      freqResult e d = freqItem e 1 (g.flags + 32 * b2n g.uncal) g.n (stampFb t) x.toNat 0 x.toNat 0 d') ∧
    (g.kind = 0 → g.n < 2 →
      freqResult e d = freqItem e 0 (g.flags + 32 * b2n g.uncal + 16) g.n (stampFb t) 0 0 0 0 (d.setGates e rest)) := by
  unfold freqResult
  rw [truncateGate_closed hg hc hr]
  conv => zeta
  split
  case h_1 h => simp [hg] at h
  case h_2 x l h =>
    obtain ⟨rfl, rfl⟩ := List.cons.inj (hg.symm.trans h)
    split
    case h_1 h => simp [hc] at h
    case h_2 c h =>
      obtain rfl := Option.some.inj (hc.symm.trans h)
      refine ⟨fun hk => ?interval, fun hk ht x d' hx => ?counting, fun hk hn => ?empty⟩
      case interval =>
        have two : (g.kind == 2) = true := by rw [hk]; rfl
        rw [if_pos two, if_pos two]
      case counting =>
        have one : ¬ (g.kind == 2) = true ∧ (g.kind == 1) = true := by rw [hk]; decide
        have long : ¬ ((t - g.opened).toNat == 0) = true := by rw [beq_iff_eq]; omega
        rw [if_neg one.1, if_neg one.1, if_pos one.2, if_neg long, hx]
      case empty =>
        have zero : ¬ (g.kind == 2) = true ∧ ¬ (g.kind == 1) = true := by rw [hk]; decide
        rw [if_neg zero.1, if_neg zero.1, if_neg zero.2, if_pos hn]

end Result

/-- A free rounding of a quotient of naturals is the floor or the floor plus 1, and touches the free values alone. -/
theorem roundFree_floor (n den : Nat) (d : Dev) : ∃ x v, roundFree n den d = (x, { d with free := v }) ∧
    (n : Int) / (den : Int) ≤ (x.toNat : Int) ∧ (x.toNat : Int) ≤ (n : Int) / (den : Int) + 1 := by
  have pos : 0 ≤ (n : Int) / (den : Int) := Int.ediv_nonneg (Int.natCast_nonneg _) (Int.natCast_nonneg _)
  unfold roundFree
  split
  · exact ⟨_, d.free, rfl, by omega, by omega⟩
  · have less : (drawFree 1 d).1 < 2 := Nat.mod_lt _ (by decide)
    exact ⟨(n : Int) / (den : Int) + ((drawFree 1 d).1 : Int), d.free + 1, rfl, by omega, by omega⟩

/-- Settles O36: an edge takes one of the ways of auxEdge, which for AUX_TRIG goes on to the pairing and the triggers and for AUX_FREQ to the time
it keeps; a change of GATE_IN acts at one engine while the others stay; a result is that of the oldest gate, by its kind. -/
theorem auxiliaryInputsAndGates : Obligations.AuxiliaryInputsAndGates := by
  intro s ct e k trailing level t g rest he
  refine ⟨fun hct hen => ?trigLost, fun hct hen => ?freqLost, fun hct hs => ⟨?leadNone, ?trailNone⟩, fun hct hs => ?freqNone,
    fun hct hs => ⟨fun hen hp => ?trigOff, fun hen => ⟨fun hf => ?trailKept, fun hf => ?leadKept, fun hm => ?trailMerged, fun hm => ?leadMerged⟩⟩,
    fun hct hs => ⟨fun hen hp => ?freqOff, fun hen hf => ?freqKept, fun hen hm => ?freqMerged⟩, fun h => ?same,
    fun hin hc => ⟨fun hm => ?opens, fun hm => ?arms⟩, fun hin hc hg hopen hm hf => ?closes, fun h => ?noResult,
    fun hg hc hr => ⟨fun hk ht => ?counting, fun hk hn => ?empty, fun hk => ?interval⟩⟩
  case trigLost => exact exec_trigInEdge (trigInEdge_not_kept (auxEdge_stretched hct hen))
  case freqLost => exact exec_freqInEdge (auxEdge_stretched hct hen)
  case leadNone => exact exec_trigInEdge (trigInEdge_not_kept (auxEdge_unresolved hct hs))
  case trailNone => exact exec_trigInEdge (trigInEdge_not_kept (auxEdge_unresolved hct hs))
  case freqNone => exact exec_freqInEdge (auxEdge_unresolved hct hs)
  case trigOff => exact exec_trigInEdge (trigInEdge_not_kept (auxEdge_off hct hs hen hp))
  case trailKept =>
    have far : s.dev.mergesEdge auxTrig true t = false := mergesAt_far hf
    rw [exec_trigInEdge (trigInEdge_trailing (auxEdge_kept hct hs hen far)), auxPaired_trail]
  case leadKept =>
    have far : s.dev.mergesEdge auxTrig false t = false := mergesAt_far hf
    rw [exec_trigInEdge (trigInEdge_leading (auxEdge_kept hct hs hen far)), auxPaired_lead]
  case trailMerged =>
    have near : s.dev.mergesEdge auxTrig true t = true := mergesAt_near hm
    rw [exec_trigInEdge (trigInEdge_not_kept (auxEdge_merged hct hs hen near)), auxPaired_trail]
  case leadMerged =>
    have near : s.dev.mergesEdge auxTrig false t = true := mergesAt_near hm
    rw [exec_trigInEdge (trigInEdge_not_kept (auxEdge_merged hct hs hen near)), auxPaired_lead]
  case freqOff => exact exec_freqInEdge (auxEdge_off hct hs hen hp)
  case freqKept =>
    have far : s.dev.mergesEdge auxFreq trailing t = false := mergesAt_far hf
    have still (uncal : Bool) : (freqEdge auxFreq trailing t uncal s.dev).mergesEdge auxFreq trailing t = false := by
      rw [Dev.mergesEdge, freqEdge_unit]
      exact far
    refine ⟨_, ?_, rfl⟩
    rw [exec_freqInEdge (auxEdge_kept hct hs hen far), auxPaired_freq_kept _ (still _)]
    rfl
  case freqMerged =>
    have near : s.dev.mergesEdge auxFreq trailing t = true := mergesAt_near hm
    rw [exec_freqInEdge (auxEdge_merged hct hs hen near), auxPaired_freq_merged _ near]
    rfl
  case same => exact onDev_eq (gateInEdge_same h)
  case opens =>
    have rises : s.dev.tdc.gateIn ≠ true := by rw [hin]; decide
    have idle (j : Nat) (hj : j < 4) (hne : j ≠ e) : s.dev.get (F.TDC_FR_GATE_GMODE j) ≠ 1 ∧ s.dev.get (F.TDC_FR_GATE_GMODE j) ≠ 2 :=
      ⟨fun h => hne ((hm j hj).1.1 h), (hm j hj).2⟩
    refine onDev_eq (gateInEdge_one he rises (gateEngine_opens (hc e he) ((hm e he).1.2 rfl))
      (fun j hj hne => gateEngine_idle (hc j hj) (.inr (idle j hj hne))) (fun j hj hne => gateEngine_idle ?_ (.inr ?_)))
    · rw [openGate_gatesOf_ne _ _ hne]
      exact hc j hj
    · rw [openGate_gmode]
      exact idle j hj hne
  case arms =>
    have rises : s.dev.tdc.gateIn ≠ true := by rw [hin]; decide
    have idle (j : Nat) (hj : j < 4) (hne : j ≠ e) : s.dev.get (F.TDC_FR_GATE_GMODE j) ≠ 1 ∧ s.dev.get (F.TDC_FR_GATE_GMODE j) ≠ 2 :=
      ⟨(hm j hj).2, fun h => hne ((hm j hj).1.1 h)⟩
    exact onDev_eq (gateInEdge_one he rises (gateEngine_arms (hc e he) ((hm e he).1.2 rfl))
      (fun j hj hne => gateEngine_idle (hc j hj) (.inr (idle j hj hne))) (fun j hj hne => gateEngine_idle (hc j hj) (.inr (idle j hj hne))))
  case closes =>
    have falls : s.dev.tdc.gateIn ≠ false := by rw [hin]; decide
    have oldest : (s.dev.gatesOf e).find? (fun g => g.closed.isNone) = some g := by rw [hg, List.find?_cons, hopen]; rfl
    refine onDev_eq (gateInEdge_one he falls (gateEngine_closes oldest hf hm) (fun j hj hne => gateEngine_idle (hc j hj hne) (.inl rfl))
      (fun j hj hne => gateEngine_idle ?_ (.inl rfl)))
    rw [closeGate_gatesOf_ne _ _ _ _ hne]
    exact hc j hj hne
  case noResult => exact onDev_eq (freqResult_none h)
  case counting =>
    obtain ⟨_, counts, _⟩ := freqResult_closed hg hc hr
    have len : ((t - g.opened).toNat : Int) = t - g.opened := by omega
    have held : s.dev.gatesOf e ≠ [] := by rw [hg]; exact List.cons_ne_nil _ _
    obtain ⟨x, v, rounded, low, high⟩ := roundFree_floor (g.n * microHzFb) (t - g.opened).toNat (s.dev.setGates e rest)
    rw [len] at low high
    exact ⟨_, _, onDev_eq (counts hk ht _ _ rounded), Dev.gatesOf_setGates_self s.dev rest held, rfl, rfl, low, high⟩
  case empty =>
    obtain ⟨_, _, empties⟩ := freqResult_closed hg hc hr
    exact onDev_eq (empties hk hn)
  case interval =>
    obtain ⟨unpairs, _, _⟩ := freqResult_closed hg hc hr
    exact onDev_eq (unpairs hk)

end Sys2Proof.Machine

/-! Reserved offsets of the TQ and the CMP block (R250, R269). -/

namespace Sys2Proof.Machine

open Sys2Proof.Safety

/-- The keys of the model that a read or a write looks for by name and that stand alone. -/
def namedKeys : List Nat := [R.TRN_COMMIT_CTRL, R.TRN_TURN_LO, R.TIME_ST_LO, R.TDC_CMD, R.TDC_TABLE_DATA, R.CAP_CMD, R.SE_LIN_DATA, R.CAS_ADJ_DATA,
  R.TQ_STATUS, R.TQ_MARK_LO, R.TQ_MARK_HI, R.TQ_MARK_CMD, R.TQ_REWIND_CMD, R.TQ_UP_CMD, R.TQ_DESC_SEL, R.CMP_STATUS, R.CMP_JOB_CMD, R.LNK_CMD,
  R.MEM_FLIP_CTRL, R.MEM_COUNT 3, R.MON_INJ_CMD, R.MON_CAL_CTRL, R.GRD_GCMD, R.FLT_CMD, R.FLT_FE_CLEAR, R.FLT_WDOG_KICK, R.FLT_POP_HI]

/-- Each of them is a register of its block. -/
theorem namedKeys_have_rows : ∀ k ∈ namedKeys, (regRow k).isSome = true := by decide +kernel

section Reserved

variable {off : Nat} (block : off / 65536 = 8 ∨ off / 65536 = 9) (reserved : regRow off = none)

include reserved in
/-- So a reserved offset is none of them. -/
theorem reserved_not_named : ∀ k ∈ namedKeys, off ≠ k := by
  rintro k h rfl
  simpa [reserved] using namedKeys_have_rows _ h

include block in
/-- The channel registers of the DMA engine stand in another block. -/
theorem dmaKey_of_block (d : Dev) : dmaKey off d = some off := by
  have other : (off / 65536 != 12) = true := bne_iff_ne.2 (by omega)
  simp only [dmaKey, other, if_true]

include reserved in
/-- A reserved offset is no CUR_* mirror. -/
theorem curTarget_reserved : curTarget off = none := by
  simp only [curTarget, reserved]

include block reserved in
/-- A reserved offset shows no state held elsewhere. -/
theorem viewReg_reserved (d : Dev) : viewReg off d = none := by
  have status : off ≠ 0x080000 := reserved_not_named reserved R.TQ_STATUS (by decide)
  have low : off ≠ 0x080050 := reserved_not_named reserved R.TQ_MARK_LO (by decide)
  have high : off ≠ 0x080054 := reserved_not_named reserved R.TQ_MARK_HI (by decide)
  have job : off ≠ 0x090000 := reserved_not_named reserved R.CMP_STATUS (by decide)
  rcases block with b | b
  · have in0 : off % 65536 ≠ 0 ∧ off % 65536 ≠ 0x50 ∧ off % 65536 ≠ 0x54 := by omega
    simp [viewReg, viewLinks, b, in0]
  · have in0 : off % 65536 ≠ 0 := by omega
    simp [viewReg, viewLinks, b, in0]

include block reserved in
theorem readPlain_reserved (d : Dev) : readPlain off d = 0 := by
  simp [readPlain, dmaKey_of_block block, viewReg_reserved block reserved, curTarget_reserved reserved, reserved]

include block in
/-- The timestamp queues stand in another block. -/
theorem not_txtsFine (q : Nat) (hq : q < 4) : off ≠ R.TIME_TXTS_FINE q := by
  simp only [R.TIME_TXTS_FINE]
  omega

include block in
/-- So do the gates of the frequency engines. -/
theorem not_gateStatus (e : Nat) (he : e < 4) : off ≠ R.TDC_FR_STATUS e := by
  simp only [R.TDC_FR_STATUS]
  omega

include block reserved in
/-- A reserved offset reads as zero, and its read has no side effect. -/
theorem readReg_reserved (d : Dev) : readReg off d = (0, d) := by
  have named := reserved_not_named reserved
  simp only [namedKeys, List.forall_mem_cons] at named
  have fine : (List.range 4).find? (fun q => off == R.TIME_TXTS_FINE q) = none :=
    List.find?_eq_none.2 fun q hq => by simpa using not_txtsFine block q (List.mem_range.1 hq)
  simp [readReg, fine, readPlain_reserved block reserved, named]

include block reserved in
/-- A reserved offset is no command register. -/
theorem commandWrite_reserved (v : Word) (d : Dev) : commandWrite off v d = none := by
  have sec : off / 65536 ≠ 17 := by omega
  have dma : off / 65536 ≠ 12 := by omega
  have seq : off / 8 ≠ R.MON_SEQ_ENTRY0 63 / 8 := by simp only [R.MON_SEQ_ENTRY0]; omega
  have gates : ¬ ∃ e, e < 4 ∧ off = R.TDC_FR_STATUS e := fun ⟨e, he, h⟩ => not_gateStatus block e he h
  have named := reserved_not_named reserved
  simp only [namedKeys, List.forall_mem_cons] at named
  simp [commandWrite, dmaConfigBusy, sec, dma, seq, gates, named]

include block reserved in
/-- A write of a reserved offset changes nothing, whether its block is present or not. -/
theorem writeReg_reserved (v : Word) (s : State) : writeReg off v s = s := by
  have job : (off == R.CMP_JOB_CMD) = false := beq_eq_false_iff_ne.2 (reserved_not_named reserved _ (by decide))
  unfold writeReg
  by_cases absent : s.dev.absentKey off = true
  · simp only [absent, if_true, reserved]
  · simp only [absent, if_false, Bool.false_eq_true, dmaKey_of_block block, job, commandWrite_reserved block reserved, reserved]

end Reserved

/-- Settles O17: a reserved offset is none of the registers that a read or a write treats by name, and no row gives it a word or fields. -/
theorem reservedOffsetsReadZero : Obligations.ReservedOffsetsReadZero := by
  intro s off v block reserved
  have inside : off < 0x130000 := by omega
  refine ⟨readReg_reserved block reserved s.dev, ?_⟩
  calc exec (.registerWrite true 32 off v) s = .next (coreWrite true 32 off v s) := rfl
    _ = .next s := by rw [coreWrite_reaches v inside (.inl rfl), writeReg_reserved block reserved v s]

end Sys2Proof.Machine

/-! Blanking, the test pulser and the edges of the comparators (R80, R83, R85 to R87, R97, R115, R132). -/

namespace Sys2Proof.Machine

open Sys2Proof.Safety

/-! ### Blanking (R83) -/

@[simp] theorem Dev.afeCh_setAfeCh_self (d : Dev) (n : Nat) (c : AfeChannel) : (d.setAfeCh n c).afeCh n = c := by simp [Dev.afeCh]

theorem Dev.afeCh_setAfeCh_ne (d : Dev) {n m : Nat} (c : AfeChannel) (h : m ≠ n) : (d.setAfeCh n c).afeCh m = d.afeCh m := by
  simp [Dev.afeCh, kget_kset_ne _ _ _ h]

/-- After its end a blanking covers no period of the coarse clock. -/
theorem blankingEnd_not_blanked (n : Nat) (d : Dev) (p : Int) : (blankingEnd n d).blanked n p = false := by
  simp only [Dev.blanked, blankingEnd, Dev.afeCh_setAfeCh_self, Bool.and_eq_false_iff, decide_eq_false_iff_not]
  omega

/-! ### The test pulser (R86, R87) -/

/-- The charges that a launch injects: one for each enabled channel of the pulser (R86). -/
def tpCharges (d : Dev) : List (Nat × Nat) :=
  ((List.range 64).filter (fun n => d.is (F.AFE_CH_CFG_TP_EN n) && d.is (F.AFE_CH_CFG_EN n))).map (fun n =>
    (n, pulseCharge (d.get (F.AFE_CH_CFG_TP_RANGE n)) ((d.scanOf 3 n).getD (d.get (F.AFE_CH_CFG_TP_AMP n)))))

/-- The block at a launch: at the tick of the schedule, with the charges injected and the occurrence taken (R87). -/
def tpLaunched (d : Dev) : Dev :=
  { d with clk := { d.clk with ct := d.get F.AFE_TP_POS_CT }, afe := { d.afe with injected := tpCharges d, tpDone := true, tpFired := true } }

theorem tpLaunch_none {d : Dev} (h : d.tpOccurs d.clk.turn = false) : tpLaunch d = (d, false) := by
  unfold tpLaunch
  simp [h]

theorem tpLaunch_fires {d : Dev} (ho : d.tpOccurs d.clk.turn = true) (hm : tpMode d.mode = true) (hc : d.ctOccurs (d.get F.AFE_TP_POS_CT) = true)
    (hf : d.afe.tpFired = false) : tpLaunch d = (count1 (R.AFE_COUNT 0) (tpLaunched d), true) := by
  unfold tpLaunch
  simp only [ho, hm, hc, hf]
  rfl

theorem testPulseLaunch_none {d : Dev} (h : d.tpOccurs d.clk.turn = false) : testPulseLaunch d = d := by
  unfold testPulseLaunch
  simp [tpLaunch_none h]

/-- A launch offers TEST, at the tick of the launch, to every channel (R132). -/
theorem testPulseLaunch_fires {d e : Dev} (h : tpLaunch d = (e, true)) :
    testPulseLaunch d = trigEvent 4 ((e.clk.turn * 16384 + e.clk.ct) * 2048 : Nat) (offerAll
      { src := 4, t := ((e.clk.turn * 16384 + e.clk.ct) * 2048 : Nat), gov := e.clk.turn, noLocal := true, tdc := false, cls := none, force := false } e) := by
  unfold testPulseLaunch
  simp [h]

/-! ### The edges of a comparator (R80, R83, R97, R115) -/

section Edge

variable {ch ct : Nat} {high trailing : Bool} {k : List Nat} {d : Dev} {raw : Int}

/-- In the stretched interval an edge of a channel that is on is lost and counted (R58). -/
theorem comparatorEdge_stretched (h : 16384 ≤ ct) (on : d.comparatorOn ch d.clk.turn (d.clk.ctBase + ct : Nat) = true) :
    comparatorEdge ch high trailing ct k d = ({ d with clk := { d.clk with stretchLost := d.clk.stretchLost + 1 } }, false) := by
  unfold comparatorEdge
  rw [if_pos h, if_pos on]

theorem comparatorEdge_stretched_off (h : 16384 ≤ ct) (off : d.comparatorOn ch d.clk.turn (d.clk.ctBase + ct : Nat) = false) :
    comparatorEdge ch high trailing ct k d = (d, false) := by
  unfold comparatorEdge
  rw [if_pos h, if_neg (Bool.eq_false_iff.1 off)]

theorem comparatorEdge_lead_unresolved (h : ct < 16384) (hs : edgeStamp (2 * ch + b2n high) d.clk.turn ct k d = none) :
    comparatorEdge ch high false ct k d = (d, false) := by
  unfold comparatorEdge
  rw [if_neg (Nat.not_le.2 h)]
  simp only [hs]
  rfl

theorem comparatorEdge_trail_unresolved (h : ct < 16384) (hs : edgeStamp (2 * ch + b2n high) d.clk.turn ct k d = none)
    (on : d.comparatorOn ch d.clk.turn (d.clk.ctBase + ct : Nat) = true) :
    comparatorEdge ch high true ct k d = (trailUnresolved (2 * ch + b2n high) d, false) := by
  unfold comparatorEdge
  rw [if_neg (Nat.not_le.2 h)]
  simp only [hs, on]
  rfl

/-- The first trailing edge of an open pulse that no chain resolves makes it narrow (R115). -/
theorem trailUnresolved_open {u : Nat} {p : OpenPulse} (hp : (d.unit u).pulse = some p) (ht : p.trail = none) :
    trailUnresolved u d = setPulse u (some { p with trailLost := true }) d := by
  unfold trailUnresolved
  simp only [hp, ht]
  rfl

section Stamped

variable (h : ct < 16384) (hs : edgeStamp (2 * ch + b2n high) d.clk.turn ct k d = some raw)
include h hs

/-- A channel that was off or blanked at the edge's time before SKEW does nothing with it (R73, R83, R85). -/
theorem comparatorEdge_off (off : d.comparatorOn ch (turnOfFb raw) (d.periodOf raw) = false) :
    comparatorEdge ch high trailing ct k d = (d, false) := by
  unfold comparatorEdge
  rw [if_neg (Nat.not_le.2 h)]
  simp only [hs, off]
  rfl

variable (on : d.comparatorOn ch (turnOfFb raw) (d.periodOf raw) = true)
include on

/-- A trailing edge goes to the pairing, and before it to the engines where it does not merge. -/
theorem comparatorEdge_trail : comparatorEdge ch high true ct k d =
    (let u := 2 * ch + b2n high
    let t := raw + d.skewAt (turnOfFb raw) ch
    let uncal := calState u d != 2
    (trailEdge u (turnOfFb raw) t uncal (if d.mergesEdge u true t then d else freqEdge u true t uncal d), false)) := by
  unfold comparatorEdge
  rw [if_neg (Nat.not_le.2 h)]
  simp only [hs, on]
  cases d.mergesEdge (2 * ch + b2n high) true (raw + d.skewAt (turnOfFb raw) ch) <;> rfl

/-- A leading edge that merges goes to the pairing alone (R115). -/
theorem comparatorEdge_lead_merged (hm : d.mergesEdge (2 * ch + b2n high) false (raw + d.skewAt (turnOfFb raw) ch) = true) :
    comparatorEdge ch high false ct k d =
      (leadEdge (2 * ch + b2n high) (turnOfFb raw) (raw + d.skewAt (turnOfFb raw) ch) (calState (2 * ch + b2n high) d != 2) d, false) := by
  unfold comparatorEdge
  rw [if_neg (Nat.not_le.2 h)]
  simp only [hs, on, hm]
  rfl

/-- One that does not merge goes to the engines and the pairing, is remembered, and is offered to its channel (R132). -/
theorem comparatorEdge_lead_kept (hm : d.mergesEdge (2 * ch + b2n high) false (raw + d.skewAt (turnOfFb raw) ch) = false) :
    comparatorEdge ch high false ct k d =
      (let u := 2 * ch + b2n high
      let turn := turnOfFb raw
      let t := raw + d.skewAt turn ch
      let uncal := calState u d != 2
      (offerTrigger ch { src := b2n high, t := t, gov := turn, noLocal := false, tdc := true, cls := none, force := false }
        (noteEdge (b2n high) ch t turn (leadEdge u turn t uncal (freqEdge u false t uncal d))), true)) := by
  unfold comparatorEdge
  rw [if_neg (Nat.not_le.2 h)]
  simp only [hs, on, hm]
  rfl

end Stamped

/-- A leading edge that the unit keeps is counted in an open window of a scan too (R340). -/
theorem exec_comparatorEdge_result {s : State} {e : Dev} {kept : Bool} (hch : ch < 64) (h : comparatorEdge ch high trailing ct k s.dev = (e, kept)) :
    exec (.comparatorEdge ch high trailing ct k) s = .next (withDev s (if kept then scanEdge ch high e else e)) := by
  have run : exec (.comparatorEdge ch high trailing ct k) s = .next (withDev s (let r := comparatorEdge (ch % 64) high trailing ct k s.dev
    if r.2 then scanEdge (ch % 64) high r.1 else r.1)) := rfl
  rw [run, Nat.mod_eq_of_lt hch, h]

theorem exec_comparatorEdge {s : State} {e : Dev} (hch : ch < 64) (h : comparatorEdge ch high trailing ct k s.dev = (e, false)) :
    exec (.comparatorEdge ch high trailing ct k) s = .next (withDev s e) := exec_comparatorEdge_result hch h

theorem exec_comparatorEdge_kept {s : State} {e : Dev} (hch : ch < 64) (h : comparatorEdge ch high trailing ct k s.dev = (e, true)) :
    exec (.comparatorEdge ch high trailing ct k) s = .next (withDev s (scanEdge ch high e)) := exec_comparatorEdge_result hch h

end Edge

/-- Settles O32: a blanking that ends covers nothing; a launch is that of tpLaunch, offered as TEST; an edge takes one of the ways of
comparatorEdge. -/
theorem testPulsesAndEdges : Obligations.TestPulsesAndEdges := by
  refine ⟨fun s ch => ⟨⟨blankingEnd ch s.dev, rfl, blankingEnd_not_blanked ch s.dev, fun n hn => Dev.afeCh_setAfeCh_ne _ _ hn, rfl, rfl, rfl⟩,
    fun h => onDev_eq (testPulseLaunch_none h), fun ho hm hc hf => ?launches⟩, fun s ch ct high trailing k raw hch =>
    ⟨fun h on => ?stretched, fun h off => ?stretchedOff, fun h => ⟨fun hs => ⟨?leadNone, ?trailNone⟩, fun hs => ⟨fun off => ?off, fun on =>
      ⟨fun hf => ?leadKept, fun hm => ?leadMerged, fun hf => ?trailKept, fun hm => ?trailMerged⟩⟩⟩⟩⟩
  case launches =>
    have fires := testPulseLaunch_fires (tpLaunch_fires ho hm hc hf)
    rw [count1_clk] at fires
    exact onDev_eq fires
  case stretched => exact exec_comparatorEdge hch (comparatorEdge_stretched h on)
  case stretchedOff => exact exec_comparatorEdge hch (comparatorEdge_stretched_off h off)
  case leadNone =>
    rintro rfl
    exact exec_comparatorEdge hch (comparatorEdge_lead_unresolved h hs)
  case trailNone =>
    rintro rfl on p hp ht
    rw [← trailUnresolved_open hp ht]
    exact exec_comparatorEdge hch (comparatorEdge_trail_unresolved h hs on)
  case off => exact exec_comparatorEdge hch (comparatorEdge_off h hs off)
  case leadKept => exact exec_comparatorEdge_kept hch (comparatorEdge_lead_kept h hs on (mergesAt_far hf))
  case leadMerged => exact exec_comparatorEdge hch (comparatorEdge_lead_merged h hs on (mergesAt_near hm))
  case trailKept =>
    have far : s.dev.mergesEdge (2 * ch + b2n high) true (raw + s.dev.skewAt (turnOfFb raw) ch) = false := mergesAt_far hf
    rw [exec_comparatorEdge hch (comparatorEdge_trail h hs on), far]
    rfl
  case trailMerged =>
    have near : s.dev.mergesEdge (2 * ch + b2n high) true (raw + s.dev.skewAt (turnOfFb raw) ch) = true := mergesAt_near hm
    rw [exec_comparatorEdge hch (comparatorEdge_trail h hs on), near]
    rfl

end Sys2Proof.Machine

/-! Triggers, segments and copies of capture (R85, R125, R126, R128, R132, R134, R139, R140, R142, R143, R153). -/

namespace Sys2Proof.Machine

open Sys2Proof.Safety

/-! ### Records near a trigger and free segments (R134, R139) -/

/-- Does a record lie within 8 ct of a trigger and still take it in (R134)? -/
def Dev.takesIn (d : Dev) (x : Trig) (g : Segment) : Bool :=
  (d.present x.t - d.present g.t).natAbs < 8 * 2048 && !(6 ≤ x.src && g.st == .reading)

theorem takesIn_near {d : Dev} {x : Trig} {g : Segment} (immediate : x.src < 6) (h : (d.present x.t - d.present g.t).natAbs < 8 * 2048) :
    d.takesIn x g = true := by
  simp [Dev.takesIn, h, Nat.not_le.2 immediate]

theorem none_takesIn_far {d : Dev} {x : Trig} {l : List Segment} (h : ∀ g ∈ l, 8 * 2048 ≤ (d.present x.t - d.present g.t).natAbs) :
    l.any (d.takesIn x) = false := by
  refine List.any_eq_false.2 fun g hg => ?_
  simp [Dev.takesIn, Nat.not_lt.2 (h g hg)]

/-- The lowest index of n that no segment of a channel holds (R139). -/
def freeIndex (l : List Segment) (n : Nat) : Option Nat := (List.range n).find? (fun j => !l.any (fun g => g.j == j))

theorem freeIndex_eq_some {l : List Segment} {n i : Nat} (free : ∀ g ∈ l, g.j ≠ i) (hi : i < n) (lower : ∀ k, k < i → ∃ g ∈ l, g.j = k) :
    freeIndex l n = some i :=
  List.find?_range_eq_some.2 ⟨by simpa using free, List.mem_range.2 hi, fun k hk => by simpa using lower k hk⟩

theorem freeIndex_eq_none {l : List Segment} {n : Nat} (held : ∀ k, k < n → ∃ g ∈ l, g.j = k) : freeIndex l n = none :=
  List.find?_range_eq_none.2 fun k hk => by simpa using held k hk

/-- The record that a trigger claims at an index (R139, R141). -/
def claimedSegment (n j : Nat) (x : Trig) (d : Dev) : Segment :=
  { j := j, t := x.t, pre := d.getAt x.gov F.CAP_REC_PRE, post := d.getAt x.gov F.CAP_REC_POST, w := (d.geomAt x.gov).1, size := (d.geomAt x.gov).2,
    srcs := 2 ^ x.src, prio := srcPrio x.src, gov := x.gov, noLocal := x.noLocal, tdc := x.tdc, cls := x.cls, force := x.force,
    untrimmed := (d.capCh n).trimAt (sampleOf (d.present x.t)) == .converging }

/-! ### What offering a trigger does (R85, R126, R132, R134, R139, R143) -/

section Offer

variable {n : Nat} {x : Trig} {d : Dev}

/-- A source that is not accepted in the mode or not enabled, or a time at which the ADCs were off, changes nothing. -/
theorem offerTrigger_refused (h : srcMode (d.modeAt x.gov) x.src = false ∨ srcEnabled n x.src x.gov d = false ∨
    (d.capCh n).powered (sampleOf (d.present x.t)) = false) : offerTrigger n x d = d := by
  unfold offerTrigger
  refine if_pos ?_
  rcases h with h | h | h <;> simp [h]

variable (mode : srcMode (d.modeAt x.gov) x.src = true) (enabled : srcEnabled n x.src x.gov d = true)
  (powered : (d.capCh n).powered (sampleOf (d.present x.t)) = true)
include mode enabled powered

/-- A trigger goes into the first record that takes it in, and is counted there. -/
theorem offerTrigger_merges (h : (d.capCh n).segs.any (d.takesIn x) = true) : offerTrigger n x d =
    count1 (R.CAP_CH_COUNT n 4) (d.setCapCh n { d.capCh n with
      segs := listMod (d.capCh n).segs ((d.capCh n).segs.findIdx (d.takesIn x)) (fun g => mergeTrig g x) }) := by
  unfold offerTrigger
  refine (if_neg (by simp [mode, enabled, powered])).trans ?_
  exact if_pos h

variable (alone : (d.capCh n).segs.any (d.takesIn x) = false) (runs : (d.capCh n).st = .run)
  (valid : (d.capCh n).validFrom ≤ sampleOf (d.present x.t) - d.getAt x.gov F.CAP_REC_PRE)
include alone runs valid

/-- With no record near it, a trigger of a channel in RUN whose samples are valid goes to the lowest free segment. -/
theorem offerTrigger_alone : offerTrigger n x d =
    match freeIndex (d.capCh n).segs (segCount (d.geomAt x.gov).1 (d.geomAt x.gov).2) with
    | some j =>
      if d.se.off.contains (n / 8) then loseTrigger (some n) 0 x.t d
      else
        let e := emitGaps (fun y => y.ch == some n) (count1 (R.CAP_CH_COUNT n 0)
          (d.setCapCh n { d.capCh n with segs := (d.capCh n).segs ++ [claimedSegment n j x d] }))
        if 6 ≤ x.src then e else trigEvent 1 x.t e
    | none => loseTrigger (some n) 0 x.t d := by
  unfold offerTrigger
  refine (if_neg (by simp [mode, enabled, powered])).trans ?_
  refine (if_neg (Bool.eq_false_iff.1 alone)).trans ?_
  refine (if_neg (by simp [runs])).trans ?_
  exact (if_neg (Int.not_lt.2 valid)).trans rfl

/-- An immediate source claims the lowest free segment, which is counted; the gaps of the channel come first (R139, R143). -/
theorem offerTrigger_claims {j : Nat} (immediate : x.src < 6) (group : d.se.off.contains (n / 8) = false)
    (free : freeIndex (d.capCh n).segs (segCount (d.geomAt x.gov).1 (d.geomAt x.gov).2) = some j) : offerTrigger n x d =
    trigEvent 1 x.t (emitGaps (fun y => y.ch == some n) (count1 (R.CAP_CH_COUNT n 0)
      (d.setCapCh n { d.capCh n with segs := (d.capCh n).segs ++ [claimedSegment n j x d] }))) := by
  rw [offerTrigger_alone mode enabled powered alone runs valid, free]
  exact (if_neg (Bool.eq_false_iff.1 group)).trans (if_neg (Nat.not_le.2 immediate))

/-- Without a free segment it is lost with cause 0 (R143). -/
theorem offerTrigger_full (full : freeIndex (d.capCh n).segs (segCount (d.geomAt x.gov).1 (d.geomAt x.gov).2) = none) :
    offerTrigger n x d = loseTrigger (some n) 0 x.t d := by
  rw [offerTrigger_alone mode enabled powered alone runs valid, full]

end Offer

/-! ### The copy unit starts (R140) -/

theorem nextWaiting_none {l : List Segment} (h : ∀ g ∈ l, g.st ≠ .waiting) : nextWaiting l = none := by
  unfold nextWaiting
  refine List.foldlRecOn (motive := (· = none)) _ _ rfl fun m hm i _ => ?_
  split
  next => exact hm
  next g hg =>
    have idle : (g.st != .waiting) = true := bne_iff_ne.2 (h g (List.mem_of_getElem? hg))
    rw [if_pos idle]
    exact hm

/-- While a segment is copied, or without one that waits, no copy starts. -/
theorem copyStart_none {n : Nat} {d : Dev} (h : (∃ g ∈ (d.capCh n).segs, g.st = .copying) ∨ ∀ g ∈ (d.capCh n).segs, g.st ≠ .waiting) :
    copyStart n d = d := by
  unfold copyStart
  rcases h with ⟨g, hg, hc⟩ | h
  · exact if_pos (List.any_eq_true.2 ⟨g, hg, by simp [hc]⟩)
  · simp only [nextWaiting_none h, ite_self]

/-- The segment that waits longest is left until its last sample is written, given up when it is about to be overwritten, and copied
otherwise. -/
theorem copyStart_next {n i : Nat} {d : Dev} {g : Segment} (idle : ∀ g ∈ (d.capCh n).segs, g.st ≠ .copying)
    (next : nextWaiting (d.capCh n).segs = some i) (hg : (d.capCh n).segs[i]? = some g) : copyStart n d =
    if (d.nowSample : Int) < sampleOf (d.present g.t) + g.post then d
    else if (g.w : Int) - 32 < (d.nowSample : Int) - (sampleOf (d.present g.t) - g.pre) then
      loseTrigger (some n) 1 g.t (d.setCapCh n { d.capCh n with segs := (d.capCh n).segs.eraseIdx i })
    else d.setCapCh n { d.capCh n with segs := listMod (d.capCh n).segs i (fun g => { g with st := .copying }) } := by
  have none_copied : (d.capCh n).segs.any (fun g => g.st == .copying) = false := List.any_eq_false.2 fun g hg => by simpa using idle g hg
  unfold copyStart
  refine (if_neg (Bool.eq_false_iff.1 none_copied)).trans ?_
  simp only [next, hg]

/-! ### A copy is done (R125, R128, R140, R142) -/

/-- The first sample of a record, counted from turn 0. -/
def Segment.firstSample (g : Segment) : Int := sampleOf g.t - g.pre

/-- The code of sample i of a record from the readings of a copy, which end with those beside the record (R78, R128). -/
def recordCode (n : Nat) (g : Segment) (d : Dev) (h : Bool) (l : List Int) (i : Int) : Nat :=
  sampleCode h n ((g.firstSample + i) / 65536 % (turnMod : Int)).toNat (l.getD (if i < 0 then g.len else if i < g.len then i.toNat else g.len + 1) 0) d

/-- The codes of a record with the samples of the sub-converters of a mask replaced (R128). -/
def recordCodes (n : Nat) (g : Segment) (d : Dev) (h : Bool) (mask : Nat) (l : List Int) : List Nat :=
  (List.range g.len).map (interpolated mask g.firstSample (recordCode n g d h l))

theorem interpolated_unmasked (first : Int) (code : Int → Nat) (i : Nat) : interpolated 0 first code i = code i := by
  simp [interpolated, nbits]

/-- With every sub-converter in use the codes are those of the record's samples. -/
theorem recordCodes_unmasked (n : Nat) (g : Segment) (d : Dev) (h : Bool) (l : List Int) : recordCodes n g d h 0 l =
    (List.range g.len).map (fun j => sampleCode h n ((g.firstSample + (j : Nat)) / 65536 % (turnMod : Int)).toNat (l.getD j 0) d) := by
  refine List.map_congr_left fun j hj => ?_
  have inside : (j : Int) < g.len := Int.ofNat_lt.2 (List.mem_range.1 hj)
  have from0 : ¬ (j : Int) < 0 := Int.not_lt.2 (Int.natCast_nonneg j)
  rw [interpolated_unmasked, recordCode, if_neg from0, if_pos inside, Int.toNat_natCast]

/-- Without a segment being copied nothing is stored. -/
theorem copyDone_none {n : Nat} {hg lg : List Int} {bad : List Nat} {d : Dev} (h : ∀ g ∈ (d.capCh n).segs, g.st ≠ .copying) :
    copyDone n hg lg bad d = d := by
  have last : (d.capCh n).segs.findIdx (fun g => g.st == .copying) = (d.capCh n).segs.length :=
    List.findIdx_eq_length.2 fun g hg => beq_eq_false_iff_ne.2 (h g hg)
  unfold copyDone
  simp only [last, List.getElem?_eq_none le_rfl]

/-- The segment that was copied is READY with its codes, and the words that failed parity are reported (R140, R142). -/
theorem copyDone_ready {n i : Nat} {hg lg : List Int} {bad : List Nat} {d : Dev} {g : Segment}
    (hi : (d.capCh n).segs.findIdx (fun g => g.st == .copying) = i) (hs : (d.capCh n).segs[i]? = some g) : copyDone n hg lg bad d =
    (let p := segmentParity n g bad d
    p.2.setCapCh n { d.capCh n with segs := listMod (d.capCh n).segs i (fun s => { s with
      st := .ready, hg := recordCodes n g d true (adcMask n 0 d) hg, lg := recordCodes n g d false (adcMask n 1 d) lg, bad := p.1
      interp := hasReplaced (adcMask n 0 d) g.firstSample g.len || hasReplaced (adcMask n 1 d) g.firstSample g.len, readyCt := p.2.nowCt }) }) := by
  unfold copyDone
  simp only [hi, hs]
  rfl

/-- Without a word that failed parity, now or before, nothing is poisoned or reported. -/
theorem segmentParity_clean (n : Nat) {g : Segment} (d : Dev) (h : g.bad = []) : segmentParity n g [] d = ([], d) := by
  simp [segmentParity, h]

/-- After a copy an idle engine of the channel's group chooses (R153). -/
theorem exec_copyDone {n : Nat} {hg lg : List Int} {bad : List Nat} {s : State} {e : Dev} (h : copyDone n hg lg bad s.dev = e) :
    exec (.copyDone n hg lg bad) s = .next (withDev s (engineChoose (n / 8) e)) :=
  onDev_eq (f := fun d => engineChoose (n / 8) (copyDone n hg lg bad d)) (congrArg (engineChoose (n / 8)) h)

/-- Settles O38: a trigger takes one of the ways of offerTrigger; COPY_START looks at the segment that waits longest, COPY_DONE stores the
one being copied. -/
theorem segmentsAndCopies : Obligations.SegmentsAndCopies := by
  refine ⟨fun s n i x g => ⟨offerTrigger_refused, fun mode enabled powered runs group far valid => ⟨fun free hi lower immediate => ?claims, fun held => ?full⟩,
    fun mode enabled powered immediate one near => ?merges, fun h => onDev_eq (copyStart_none h), fun idle next hg => ?starts⟩,
    fun s n i hg lg bad g => ⟨fun h => ?nothing, fun hi hs => ?ready, segmentParity_clean n s.dev, recordCodes_unmasked n g s.dev⟩⟩
  case claims =>
    exact ⟨claimedSegment n i x s.dev, rfl, rfl, rfl, rfl, rfl, rfl, rfl, rfl,
      offerTrigger_claims mode enabled powered (none_takesIn_far far) runs valid immediate group (freeIndex_eq_some free hi lower)⟩
  case full => exact offerTrigger_full mode enabled powered (none_takesIn_far far) runs valid (freeIndex_eq_none held)
  case merges =>
    have taken : s.dev.takesIn x g = true := takesIn_near immediate near
    rw [offerTrigger_merges mode enabled powered (by rw [one, List.any_cons, taken, Bool.true_or]), one, List.findIdx_cons, taken]
    rfl
  case starts =>
    have outcome := copyStart_next idle next hg
    refine ⟨fun early => ?_, fun written kept => ?_, fun written lost => ?_⟩
    · exact onDev_eq (outcome.trans (if_pos early))
    · exact onDev_eq (outcome.trans ((if_neg (Int.not_lt.2 written)).trans (if_neg (Int.not_lt.2 kept))))
    · exact onDev_eq (outcome.trans ((if_neg (Int.not_lt.2 written)).trans (if_pos lost)))
  case nothing => exact exec_copyDone (copyDone_none h)
  case ready => exact exec_copyDone (copyDone_ready hi hs)

end Sys2Proof.Machine

/-! The TDC units: edges that pair into pulses, dice runs, full and initial calibration (R99, R101, R104, R106, R109, R111, R114 to R117). -/

namespace Sys2Proof.Machine

open Sys2Proof.Safety

@[simp] theorem Dev.unit_setUnit_self (d : Dev) (u : Nat) (x : TUnit) : (d.setUnit u x).unit u = x := by simp [Dev.unit]

/-! ### Pulses (R115 to R117) -/

section Pulse

variable {u turn : Nat} {t : Int} {uncal : Bool} {d : Dev} {p : OpenPulse}

/-- The settings of a turn and its mode do not look at the units. -/
theorem pairCfg_setUnit (u turn w : Nat) (x : TUnit) (d : Dev) : pairCfg u turn (d.setUnit w x) = pairCfg u turn d := rfl
theorem Dev.itemsAt_setUnit (d : Dev) (w : Nat) (x : TUnit) (turn : Nat) : (d.setUnit w x).itemsAt turn = d.itemsAt turn := rfl

/-- The pulse that a leading edge at t opens, under the settings of its turn (R117). -/
def pulseAtLead (u turn : Nat) (t : Int) (uncal : Bool) (d : Dev) : OpenPulse :=
  { lead := t, shift := 0, trail := none, trailLost := false, uncal := uncal, edges := (pairCfg u turn d).2.1, emits := d.itemsAt turn,
    leadSent := false, longDone := false }

/-- In a unit at rest a leading edge that does not merge opens a pulse where the unit pairs. -/
theorem leadEdge_opens (rest : (d.unit u).pulse = none) (far : mergesAt (d.unit u).lastLead t = false) (pairs : (pairCfg u turn d).1 = true) :
    leadEdge u turn t uncal d = setPulse u (some (pulseAtLead u turn t uncal d)) (d.setUnit u { d.unit u with lastLead := some t }) := by
  unfold leadEdge
  simp only [rest, far, pairCfg_setUnit, Dev.itemsAt_setUnit, pairs, Bool.not_true, Bool.false_eq_true, if_false]
  rfl

/-- A pulse is narrow where its trailing edge lies 786 fb or less behind, or is lost (R115). -/
theorem OpenPulse.narrow_iff : p.narrow = true ↔
    (∃ tr, p.trail = some tr ∧ tr - (p.lead + p.shift) ≤ 786) ∨ (p.trail = none ∧ p.trailLost = true) := by
  unfold OpenPulse.narrow
  cases p.trail with
  | none => simp
  | some tr => simp

theorem OpenPulse.not_narrow_of_wide {tr : Int} (ht : p.trail = some tr) (wide : 786 < tr - (p.lead + p.shift)) : p.narrow = false := by
  unfold OpenPulse.narrow
  rw [ht]
  exact decide_eq_false (Int.not_le.2 wide)

/-- A wide pulse with its trailing edge leaves as one HIT, at a time of items (R115). -/
theorem closePulse_wide {tr : Int} (long : p.longDone = false) (hits : p.edges = false) (ht : p.trail = some tr) (wide : p.narrow = false) :
    closePulse u p d = if p.emits then stagePush u (hitItem u (totOf p tr) p.uncal (stampFb p.lead)) (setPulse u none d) else setPulse u none d := by
  unfold closePulse
  simp only [long, hits, ht, wide, Bool.false_eq_true, if_false]

/-- A narrow pulse is counted and leaves as one EDGE item (R115). -/
theorem closePulse_narrow (long : p.longDone = false) (hits : p.edges = false) (narrow : p.narrow = true) (emits : p.emits = true) :
    closePulse u p d = stagePush u (edgeItem u false true false p.uncal (stampFb p.lead)) (count1 (R.TDC_COUNT u 1) (setPulse u none d)) := by
  unfold closePulse
  cases ht : p.trail with
  | none => simp only [long, hits, emits, Bool.false_eq_true, if_false, if_true]
  | some tr => simp only [long, hits, narrow, emits, Bool.false_eq_true, if_false, if_true]

theorem pulseClose_rest (rest : (d.unit u).pulse = none) : pulseClose u d = d := by
  unfold pulseClose
  rw [rest]

/-- A pulse of a HIT unit closes once its trailing edge came or is lost. -/
theorem pulseClose_ended (hp : (d.unit u).pulse = some p) (hits : p.edges = false) (ended : (p.trail.isSome || p.trailLost) = true) :
    pulseClose u d = closePulse u p d := by
  unfold pulseClose
  simp only [hp, hits, ended, Bool.false_eq_true, if_false, if_true]

theorem pulseClose_wide {tr : Int} (hp : (d.unit u).pulse = some p) (hits : p.edges = false) (long : p.longDone = false) (ht : p.trail = some tr)
    (wide : 786 < tr - (p.lead + p.shift)) : pulseClose u d =
      if p.emits then stagePush u (hitItem u (totOf p tr) p.uncal (stampFb p.lead)) (setPulse u none d) else setPulse u none d := by
  have ended : (p.trail.isSome || p.trailLost) = true := by rw [ht]; rfl
  exact (pulseClose_ended hp hits ended).trans (closePulse_wide long hits ht (OpenPulse.not_narrow_of_wide ht wide))

theorem pulseClose_narrow (hp : (d.unit u).pulse = some p) (hits : p.edges = false) (long : p.longDone = false)
    (narrow : (∃ tr, p.trail = some tr ∧ tr - (p.lead + p.shift) ≤ 786) ∨ (p.trail = none ∧ p.trailLost = true)) (emits : p.emits = true) :
    pulseClose u d = stagePush u (edgeItem u false true false p.uncal (stampFb p.lead)) (count1 (R.TDC_COUNT u 1) (setPulse u none d)) := by
  have ended : (p.trail.isSome || p.trailLost) = true := by
    rcases narrow with ⟨tr, ht, _⟩ | ⟨_, lost⟩
    · rw [ht]; rfl
    · rw [lost, Bool.or_true]
  exact (pulseClose_ended hp hits ended).trans (closePulse_narrow long hits (OpenPulse.narrow_iff.2 narrow) emits)

theorem pulseClose_open (hp : (d.unit u).pulse = some p) (hits : p.edges = false) (ht : p.trail = none) (lost : p.trailLost = false) :
    pulseClose u d = d := by
  unfold pulseClose
  simp only [hp, hits, ht, lost, Option.isSome_none, Bool.or_self, Bool.false_eq_true, if_false]

/-- In EDGES mode the leading edge leaves at the close (R116). -/
theorem pulseClose_edges (hp : (d.unit u).pulse = some p) (edges : p.edges = true) (emits : p.emits = true) (unsent : p.leadSent = false) :
    pulseClose u d = stagePush u (edgeItem u false false false p.uncal (stampFb p.lead)) (setPulse u (some { p with leadSent := true }) d) := by
  unfold pulseClose
  simp only [hp, edges, emits, unsent, Bool.false_eq_true, if_false, if_true]

theorem longPulse_rest (rest : (d.unit u).pulse = none) : longPulse u d = d := by
  unfold longPulse
  rw [rest]

/-- A pulse that nothing ended leaves as a HIT of the greatest TOT and is counted (R115). -/
theorem longPulse_open (hp : (d.unit u).pulse = some p) (hits : p.edges = false) (long : p.longDone = false) (ht : p.trail = none)
    (lost : p.trailLost = false) (emits : p.emits = true) :
    longPulse u d = stagePush u (hitItem u 0xFFF p.uncal (stampFb p.lead))
      (count1 (R.TDC_COUNT u 3) (setPulse u (some { p with longDone := true }) d)) := by
  unfold longPulse
  simp only [hp, hits, long, ht, lost, emits, Option.isSome_none, Bool.or_self, Bool.false_eq_true, if_false, if_true]

end Pulse

/-- Settles O33: an edge at rest opens the pulse of its settings; a pulse closes by whether it is narrow, wide or not ended, and by its mode. -/
theorem pulsesPair : Obligations.PulsesPair := by
  intro s u turn t uncal p
  refine ⟨fun rest apart pairs => ?opens, fun rest => ⟨onDev_eq (pulseClose_rest rest), onDev_eq (longPulse_rest rest)⟩,
    fun hp hits long => ⟨fun tr ht wide emits => ?hit, fun narrow emits => ?narrow, fun tr ht wide silent => ?silent, fun ht lost => ?stays,
      fun ht lost emits => ?long⟩, fun hp edges emits unsent => onDev_eq (pulseClose_edges hp edges emits unsent)⟩
  case opens =>
    refine ⟨pulseAtLead u turn t uncal s.dev, ?_, rfl, rfl, rfl, rfl, rfl, rfl⟩
    rw [leadEdge_opens rest (mergesAt_far apart) pairs, setPulse, Dev.unit_setUnit_self, Dev.unit_setUnit_self]
  case hit => exact onDev_eq ((pulseClose_wide hp hits long ht wide).trans (if_pos emits))
  case narrow => exact onDev_eq (pulseClose_narrow hp hits long narrow emits)
  case silent => exact onDev_eq ((pulseClose_wide hp hits long ht wide).trans (if_neg (ne_true_of_eq_false silent)))
  case stays => exact onDev_eq (pulseClose_open hp hits ht lost)
  case long => exact onDev_eq (longPulse_open hp hits long ht lost emits)

/-! ### Dice runs (R99, R101, R104, R106) -/

section Dice

variable {u q : Nat} {d : Dev} {c : Chain} {ph : DicePhase}

/-- Does a chain not take the end of a phase: it is in another one, its unit does not run, or it is out of use? -/
def Dev.diceBarred (d : Dev) (u q : Nat) (ph : DicePhase) : Bool :=
  ((d.unit u).chain q).phase != ph || !d.unitRuns u || d.outOfUse (.chain u q)

theorem diceBarred_of (hc : (d.unit u).chain q = c) (h : d.outOfUse (.chain u q) = true ∨ d.unitRuns u = false ∨ c.phase = .idle) (active : ph ≠ .idle) :
    d.diceBarred u q ph = true := by
  unfold Dev.diceBarred
  rcases h with out | stopped | idle
  · rw [out, Bool.or_true]
  · rw [stopped, Bool.not_false, Bool.or_true, Bool.true_or]
  · rw [hc, idle, bne_iff_ne.2 active.symm, Bool.true_or, Bool.true_or]

theorem not_diceBarred (hc : (d.unit u).chain q = c) (used : d.outOfUse (.chain u q) = false) (runs : d.unitRuns u = true) (hph : c.phase = ph) :
    ¬ d.diceBarred u q ph = true := by
  unfold Dev.diceBarred
  rw [hc, hph, used, runs, bne_self_eq_false]
  decide

theorem diceCollectDone_barred (hist : List Nat) (h : d.diceBarred u q .collect = true) : diceCollectDone u q hist d = d := if_pos h
theorem diceIntegrateDone_barred (h : d.diceBarred u q .integrate = true) : diceIntegrateDone u q d = d := if_pos h
theorem diceAlignDone_barred (dist : List Int) (h : d.diceBarred u q .align = true) : diceAlignDone u q dist d = d := if_pos h
theorem diceCheck_barred (h : d.diceBarred u q .check = true) : diceCheck u q d = d := if_pos h

theorem diceCollectDone_taken (hc : (d.unit u).chain q = c) (h : ¬ d.diceBarred u q .collect = true) (hist : List Nat) :
    diceCollectDone u q hist d =
      d.setUnit u ((d.unit u).setChain q { c with hist := some (hist.take 320), overrun := hist.getD 320 0, phase := .integrate }) := by
  subst hc
  exact if_neg h

/-- INTEGRATE is work that draws two pips (R101). -/
theorem diceIntegrateDone_taken (hc : (d.unit u).chain q = c) (h : ¬ d.diceBarred u q .integrate = true) :
    diceIntegrateDone u q d = withPips 0 1 2
      (fun e => e.setUnit u ((d.unit u).setChain q { c with new := some (diceTable (c.hist.getD []), 0), phase := .align })) d := by
  subst hc
  exact if_neg h

/-- The mean of the distances that ALIGN took, with the free value that its rounding draws (R99). -/
def diceMean (dist : List Int) (d : Dev) : Int × Dev :=
  if dist.length == 0 then (0, d) else roundFree (dist.foldl (· + ·) 0) dist.length d

theorem diceMean_keeps (dist : List Int) (d : Dev) : (diceMean dist d).2.regs = d.regs ∧ (diceMean dist d).2.ev = d.ev := by
  unfold diceMean
  split
  · exact ⟨rfl, rfl⟩
  · exact roundFree_keeps _ _ _

/-- n·Σx² − (Σx)² of the distances (R104). -/
def diceSpread (dist : List Int) : Int :=
  (dist.length : Int) * dist.foldl (fun a y => a + y * y) 0 - dist.foldl (· + ·) 0 * dist.foldl (· + ·) 0

/-- ALIGN leaves the alignment beside the table and the spread of the edges it took. -/
theorem diceAlignDone_taken (hc : (d.unit u).chain q = c) (h : ¬ d.diceBarred u q .align = true) (dist : List Int) :
    diceAlignDone u q dist d = (diceMean dist d).2.setUnit u ((d.unit u).setChain q { c with
      new := c.new.map (fun p => (p.1, (diceMean dist d).1.toNat)), spread := (dist.length, (diceSpread dist).toNat), phase := .check }) := by
  subst hc
  exact (if_neg h).trans rfl

/-- The largest difference of the new table from the one in use, where the drift check is made (R104). -/
def diceDrift (c : Chain) (d : Dev) : Nat :=
  if driftApplies c d then tableDrift (c.hist.getD []) (c.tbl.getD []) (c.new.getD ([], 0)).1 else 0

/-- Does a run pass the checks of R104? -/
def dicePasses (c : Chain) (d : Dev) : Bool :=
  c.overrun == 0 && maxBin (c.hist.getD []) ≤ d.get F.TDC_QUAL_CFG_MAX_BIN_FB * 128 &&
    c.spread.2 ≤ (d.get F.TDC_QUAL_CFG_ALIGN_RMS_FB * 64 * c.spread.1) ^ 2 && diceDrift c d ≤ d.get F.TDC_QUAL_CFG_DRIFT_LIMIT * 256

theorem dicePasses_iff : dicePasses c d = true ↔ c.overrun = 0 ∧ maxBin (c.hist.getD []) ≤ d.get F.TDC_QUAL_CFG_MAX_BIN_FB * 128 ∧
    c.spread.2 ≤ (d.get F.TDC_QUAL_CFG_ALIGN_RMS_FB * 64 * c.spread.1) ^ 2 ∧
    (driftApplies c d = true → tableDrift (c.hist.getD []) (c.tbl.getD []) ((c.new.map (·.1)).getD []) ≤ d.get F.TDC_QUAL_CFG_DRIFT_LIMIT * 256) := by
  have table : (c.new.map (·.1)).getD [] = (c.new.getD ([], 0)).1 := by cases c.new <;> rfl
  have drift : diceDrift c d ≤ d.get F.TDC_QUAL_CFG_DRIFT_LIMIT * 256 ↔ (driftApplies c d = true →
      tableDrift (c.hist.getD []) (c.tbl.getD []) (c.new.getD ([], 0)).1 ≤ d.get F.TDC_QUAL_CFG_DRIFT_LIMIT * 256) := by
    unfold diceDrift
    split_ifs with applies <;> simp [applies]
  rw [table, ← drift]
  simp only [dicePasses, Bool.and_eq_true, beq_iff_eq, decide_eq_true_iff, and_assoc]

/-- The figures of a run for UNIT_QUAL (R104), with the free values that their roundings draw. -/
def diceQual (c : Chain) (d : Dev) : (Nat × Nat × Nat) × Dev :=
  let v := c.spread.2
  let n := c.spread.1
  let b := roundFree (maxBin (c.hist.getD [])) 128 d
  let r2 := if n == 0 then 0 else v / (n * n) / 4096
  let r := if n == 0 || isqrt r2 * isqrt r2 * 4096 * (n * n) == v then (isqrt r2, b.2) else
    (isqrt r2 + (drawFree 1 b.2).1, (drawFree 1 b.2).2)
  let dr := roundFree (diceDrift c d) 256 r.2
  ((min b.1.toNat 255, min r.1 255, min dr.1.toNat 65535), dr.2)

theorem diceQual_keeps (c : Chain) (d : Dev) : (diceQual c d).2.regs = d.regs ∧ (diceQual c d).2.ev = d.ev := by
  obtain ⟨regs, ev⟩ := roundFree_keeps (maxBin (c.hist.getD [])) 128 d
  unfold diceQual
  dsimp only
  split_ifs
  all_goals exact ⟨(roundFree_keeps _ _ _).1.trans regs, (roundFree_keeps _ _ _).2.trans ev⟩

/-- CHECK leaves a READY chain or fails the run (R104, R106). -/
theorem diceCheck_taken (hc : (d.unit u).chain q = c) (h : ¬ d.diceBarred u q .check = true) : diceCheck u q d =
    if dicePasses c d then
      (diceQual c d).2.setUnit u (({ d.unit u with qual := (diceQual c d).1 }).setChain q { c with phase := .ready, failRun := 0, newAge := 0 })
    else diceFail u q ((diceQual c d).2.setUnit u { d.unit u with qual := (diceQual c d).1 }) := by
  subst hc
  exact (if_neg h).trans rfl

/-- The first failure in a row is counted, and the chain collects again or, with ROT_LOG2 = 0 outside its initial calibration, has FAILED (R106). -/
theorem diceFail_first (hc : (d.unit u).chain q = c) (first : c.failRun = 0) :
    diceFail u q d = count1 (R.TDC_COUNT u 4) (d.setUnit u ((d.unit u).setChain q { c with
      failRun := 1, new := none, phase := if d.get F.TDC_CTRL_ROT_LOG2 == 0 && !(d.unit u).initial then .failed else .collect })) := by
  subst hc
  unfold diceFail
  simp only [first]
  rfl

end Dice

/-- Settles O34: a barred chain takes no phase's end; each phase's end is one lemma about its function, INTEGRATE by whether its pips are granted and
CHECK by whether the run passes; the first failure in a row is counted. -/
theorem diceRuns : Obligations.DiceRuns := by
  intro s u q n hist dist c hc
  refine ⟨fun h => ?barred, fun used runs => ⟨fun ph => ?collect, fun ph paid => ?paid, fun ph short => ?waits, fun ph => ?align, fun ph => ?check⟩,
    fun first hn => ?fails⟩
  case barred =>
    exact ⟨onDev_eq (diceCollectDone_barred hist (diceBarred_of hc h nofun)), onDev_eq (diceIntegrateDone_barred (diceBarred_of hc h nofun)),
      onDev_eq (diceAlignDone_barred dist (diceBarred_of hc h nofun)), onDev_eq (diceCheck_barred (diceBarred_of hc h nofun))⟩
  case collect => exact onDev_eq (diceCollectDone_taken hc (not_diceBarred hc used runs ph) hist)
  case paid => exact onDev_eq ((diceIntegrateDone_taken hc (not_diceBarred hc used runs ph)).trans (withPips_paid paid))
  case waits => exact onDev_eq ((diceIntegrateDone_taken hc (not_diceBarred hc used runs ph)).trans (withPips_waits short))
  case align =>
    obtain ⟨regs, ev⟩ := diceMean_keeps dist s.dev
    refine ⟨_, _, onDev_eq (diceAlignDone_taken hc (not_diceBarred hc used runs ph) dist), rfl, rfl, ?_, rfl, rfl, regs, ev⟩
    exact Option.map_map _ _ _
  case check =>
    obtain ⟨regs, ev⟩ := diceQual_keeps c s.dev
    have result := diceCheck_taken hc (not_diceBarred hc used runs ph)
    exact ⟨_, { s.dev.unit u with qual := (diceQual c s.dev).1 }, rfl, regs, ev,
      fun passes => onDev_eq (result.trans (if_pos (dicePasses_iff.2 passes))),
      fun fails => onDev_eq (result.trans (if_neg (fun ok => fails (dicePasses_iff.1 ok))))⟩
  case fails =>
    have stops : (if n = 1 then DicePhase.failed else .collect) =
        if s.dev.get F.TDC_CTRL_ROT_LOG2 == 0 && !(s.dev.unit u).initial then .failed else .collect := by
      by_cases stop : (s.dev.get F.TDC_CTRL_ROT_LOG2 == 0 && !(s.dev.unit u).initial) = true
      · rw [if_pos stop, if_pos (hn.trans (if_pos stop))]
      · rw [if_neg stop, if_neg (by rw [hn, if_neg stop]; decide)]
    rw [stops]
    exact diceFail_first hc first

/-! ### Full and initial calibration (R109, R111, R112, R114) -/

/-- The status of a request for a full calibration (R111). -/
def fullCalStatus (d : Dev) : Nat := if d.mode ≠ .calibrate ∧ d.mode ≠ .test then 3 else if d.get F.TDC_STATUS_FULL_RUNNING = 1 then 1 else 0

/-- The block after a request for a full calibration: its status shows, and one that is OK waits for the boundary (R111). -/
def fullCalAsked (d : Dev) : Dev :=
  if fullCalStatus d = 0 then
    { (d.put F.TDC_CMD_STATUS_RESULT (fullCalStatus d)).put F.TDC_STATUS_FULL_RUNNING 1 with tdc := { d.tdc with fullReq := true } }
  else d.put F.TDC_CMD_STATUS_RESULT (fullCalStatus d)

theorem fullCalRequest_eq (d : Dev) : fullCalRequest d = (fullCalAsked d, fullCalStatus d) := by
  have status : (if d.mode != .calibrate && d.mode != .test then 3 else if d.is F.TDC_STATUS_FULL_RUNNING then 1 else 0) = fullCalStatus d := by
    simp only [fullCalStatus, Dev.is, Bool.and_eq_true, bne_iff_ne, beq_iff_eq]
  unfold fullCalRequest fullCalAsked
  rw [status]
  by_cases ok : fullCalStatus d = 0
  · simp only [ok, beq_self_eq_true, if_true]
    rfl
  · simp only [ok, beq_iff_eq, if_false]

/-- A write of TDC_CMD with its bit 0 is a request for a full calibration. -/
theorem writeReg_tdcCmd (s : State) : writeReg R.TDC_CMD 1 s = withDev s (fullCalRequest s.dev).1 := by
  have present : s.dev.absentKey R.TDC_CMD = false := by
    unfold Dev.absentKey
    rfl
  have key : dmaKey R.TDC_CMD s.dev = some R.TDC_CMD := rfl
  unfold writeReg
  simp only [present, key, Bool.false_eq_true, if_false]
  rfl

/-- INITIAL_CAL_DONE does nothing where INIT_DONE is set or a full calibration waits for the boundary. -/
theorem initialCalDone_none {d : Dev} (h : d.get F.TDC_STATUS_INIT_DONE = 1 ∨ d.tdc.fullReq = true) : initialCalDone d = d := by
  have barred : (d.is F.TDC_STATUS_INIT_DONE || d.tdc.fullReq) = true := by
    rcases h with done | asked
    · rw [Dev.is, done, beq_self_eq_true, Bool.true_or]
    · rw [asked, Bool.or_true]
  unfold initialCalDone
  rw [barred, Bool.true_or, if_pos rfl]

/-- Outside TEST, once no unit that runs is in its initial calibration, INIT_DONE is set and the calibration is judged (R109, R114). -/
theorem initialCalDone_sets {d : Dev} (undone : d.get F.TDC_STATUS_INIT_DONE = 0) (unasked : d.tdc.fullReq = false) (mode : d.mode ≠ .test)
    (ended : ∀ u ∈ allUnits, (d.unit u).initial = true → (d.unit u).off = true ∨ d.healthy u = []) :
    initialCalDone d = judgeCal ((d.put F.TDC_STATUS_INIT_DONE 1).put F.TDC_STATUS_FULL_RUNNING 0) := by
  have left : allUnits.any (fun u => (d.unit u).initial && !(d.unit u).off && !(d.healthy u).isEmpty) = false := by
    rw [List.any_eq_false]
    intro u hu busy
    obtain ⟨⟨initial, on⟩, healthy⟩ : ((d.unit u).initial = true ∧ (d.unit u).off = false) ∧ d.healthy u ≠ [] := by simpa using busy
    rcases ended u hu initial with off | gone
    · rw [on] at off
      exact Bool.false_ne_true off
    · exact healthy gone
  have mode' : ((d.put F.TDC_STATUS_INIT_DONE 1).put F.TDC_STATUS_FULL_RUNNING 0).mode ≠ .test := by
    have kept : ((d.put F.TDC_STATUS_INIT_DONE 1).put F.TDC_STATUS_FULL_RUNNING 0).mode = d.mode := by
      unfold Dev.mode
      rw [Dev.get_put_ne _ _ _ _ (by decide), Dev.get_put_ne _ _ _ _ (by decide)]
    rw [kept]
    exact mode
  unfold initialCalDone
  rw [left, unasked, Dev.is, undone, if_neg (by decide)]
  dsimp only
  rw [if_neg (by rw [beq_iff_eq]; exact mode')]

/-- Settles O35: message and register make the same request, whose status and effect are one lemma; INITIAL_CAL_DONE by whether anything holds it back. -/
theorem calibrations : Obligations.Calibrations := by
  intro s c
  refine ⟨?request, fun h => onDev_eq (initialCalDone_none h), fun undone unasked mode ended => onDev_eq (initialCalDone_sets undone unasked mode ended)⟩
  case request =>
    have asks : message 0x0301 c [] s = plainMsg fullCalRequest s := rfl
    refine ⟨congrArg _ ((writeReg_tdcCmd s).trans ?_), fun a => congrArg _ (direct_answer a rfl ?_)⟩
    · rw [fullCalRequest_eq]
      rfl
    · rw [asks, plainMsg, devMsg, fullCalRequest_eq]
      rfl

end Sys2Proof.Machine

/-! What ends the states of a channel's ADCs, its trim's turn, and the crossings of LEVEL (R126, R127, R131, R133). -/

namespace Sys2Proof.Machine

open Sys2Proof.Safety

section Channel

variable {n : Nat} {d : Dev}

/-! ### Warm-up and recut (R126, R131) -/

theorem warmupDone_warm (warm : (d.capCh n).st = .warmup) (filled : (d.capCh n).validFrom + (d.geomAt d.clk.turn).1 ≤ d.nowSample) :
    warmupDone n d = judgeRecut (d.setCapCh n { d.capCh n with st := .run }) :=
  if_pos (Bool.and_eq_true_iff.2 ⟨beq_iff_eq.2 warm, decide_eq_true filled⟩)

theorem warmupDone_early (h : (d.capCh n).st ≠ .warmup ∨ d.nowSample < (d.capCh n).validFrom + (d.geomAt d.clk.turn).1) : warmupDone n d = d := by
  refine if_neg fun done => ?_
  obtain ⟨warm, filled⟩ := Bool.and_eq_true_iff.1 done
  rcases h with other | short
  · exact other (beq_iff_eq.1 warm)
  · exact Nat.not_le.2 short (of_decide_eq_true filled)

/-- A recut channel whose ADCs are off is off once it holds no old segment. -/
theorem recutComplete_unpowered (recut : (d.capCh n).st = .recut) (released : (d.capCh n).segs = []) (off : (d.capCh n).adcOn = false) :
    recutComplete n d = judgeRecut (d.setCapCh n { d.capCh n with st := .off }) := by
  unfold recutComplete
  exact (if_neg (by simp [recut, released])).trans (if_pos (by rw [off, Bool.not_false]))

/-- One whose ADCs are on runs once it has filled its new ring with valid samples. -/
theorem recutComplete_filled (recut : (d.capCh n).st = .recut) (released : (d.capCh n).segs = []) (on : (d.capCh n).adcOn = true)
    (filled : max (d.capCh n).recutFrom (d.capCh n).validFrom + (d.geomAt d.clk.turn).1 ≤ d.nowSample) :
    recutComplete n d = judgeRecut (d.setCapCh n { d.capCh n with st := .run }) := by
  unfold recutComplete
  exact (if_neg (by simp [recut, released])).trans ((if_neg (by simp [on])).trans (if_pos filled))

theorem recutComplete_holds (h : (d.capCh n).st ≠ .recut ∨ (d.capCh n).segs ≠ []) : recutComplete n d = d := by
  unfold recutComplete
  refine if_pos ?_
  rcases h with other | held
  · simp [other]
  · simp [held]

/-! ### The sweep of the interleave trim (R127) -/

/-- A channel out of its turn, or a turn whose update is done, changes nothing. -/
theorem itrimUpdate_barred {est : List Int} (h : d.cap.trimNext.2 = true ∨ trimTarget d.cap.trimNext.1 d ≠ some n) : itrimUpdate n est d = d := by
  unfold itrimUpdate
  refine if_pos ?_
  rcases h with done | other
  · rw [done, Bool.true_or]
  · rw [bne_iff_ne.2 other, Bool.or_true]

/-- In its turn a channel keeps the estimates it has, or those that come, till its pip. -/
theorem itrimUpdate_turn {est : List Int} (due : d.cap.trimNext.2 = false) (turn : trimTarget d.cap.trimNext.1 d = some n) : itrimUpdate n est d =
    withPips 0 1 1 (trimApply n ((d.capCh n).est.getD est)) (d.setCapCh n { d.capCh n with est := some ((d.capCh n).est.getD est) }) := by
  unfold itrimUpdate
  exact if_neg (by simp [due, turn])

/-! ### Crossings of the LEVEL source (R133) -/

/-- THR of a channel's LEVEL source in 1/4 096 code. -/
def levelThr (n : Nat) (d : Dev) : Int := (d.get (F.CAP_CH_CFG_LEVEL_THR n) * 4096 : Nat)

/-- The time of a crossing, interpolated between samples j - 1 and j and set back by the delay of the moving mean. -/
def crossingTime (n j : Nat) (a b : Int) (d : Dev) : Int :=
  (d.clk.turn * 2 ^ 25 : Nat) + ((j : Int) - 1) * 512 + roundDiv ((levelThr n d - a) * 512) (b - a).toNat - ((2 ^ d.get F.CAP_CFG_LEVEL_FILT - 1) * 256 : Nat)

/-- The trigger that a crossing offers. -/
def crossingTrig (n j : Nat) (a b : Int) (d : Dev) : Trig :=
  { src := 2, t := crossingTime n j a b d, gov := turnOfFb (crossingTime n j a b d), noLocal := false, tdc := false, cls := none, force := false }

/-- LEVEL is offered, and its source disarmed, where a channel that writes samples crosses THR upwards within the turn and the source is armed. -/
theorem levelCrossing_eq (n j : Nat) (a b low : Int) (d : Dev) : levelCrossing n j a b low d =
    if !(d.capCh n).adcOn || (d.capCh n).st == .off || 65536 ≤ j || !(a < levelThr n d && levelThr n d ≤ b) then d
    else if !((d.capCh n).armed || low < levelThr n d - 32768) then d
    else offerTrigger n (crossingTrig n j a b d) (noteEdge 2 n (crossingTime n j a b d) (turnOfFb (crossingTime n j a b d))
      (d.setCapCh n { d.capCh n with armed := false })) := rfl

theorem levelCrossing_none {j : Nat} {a b low : Int} (h : (d.capCh n).adcOn = false ∨ (d.capCh n).st = .off ∨ 65536 ≤ j ∨ levelThr n d ≤ a ∨
    b < levelThr n d ∨ ((d.capCh n).armed = false ∧ levelThr n d - 32768 ≤ low)) : levelCrossing n j a b low d = d := by
  rw [levelCrossing_eq]
  rcases h with off | off | late | above | below | ⟨disarmed, near⟩
  · exact if_pos (by simp [off])
  · exact if_pos (by simp [off])
  · exact if_pos (by simp [late])
  · exact if_pos (by simp [Int.not_lt.2 above])
  · exact if_pos (by simp [Int.not_le.2 below])
  · exact ite_eq_left_iff.2 fun _ => if_pos (by simp only [disarmed, decide_eq_false (Int.not_lt.2 near), Bool.or_self, Bool.not_false])

theorem levelCrossing_fires {j : Nat} {a b low : Int} (on : (d.capCh n).adcOn = true) (writes : (d.capCh n).st ≠ .off) (hj : j < 65536)
    (below : a < levelThr n d) (above : levelThr n d ≤ b) (armed : (d.capCh n).armed = true ∨ low < levelThr n d - 32768) :
    levelCrossing n j a b low d = offerTrigger n (crossingTrig n j a b d)
      (noteEdge 2 n (crossingTime n j a b d) (turnOfFb (crossingTime n j a b d)) (d.setCapCh n { d.capCh n with armed := false })) := by
  rw [levelCrossing_eq]
  refine (if_neg (by simp [on, writes, hj, below, above])).trans (if_neg ?_)
  rcases armed with up | down
  · rw [up, Bool.true_or]
    exact Bool.false_ne_true
  · rw [decide_eq_true down, Bool.or_true]
    exact Bool.false_ne_true

end Channel

/-- Settles O37: each command by whether the condition it waits for holds; a trim whose turn it is waits for its pip as any background work does. -/
theorem channelStates : Obligations.ChannelStates := by
  intro s n j est a b low
  refine ⟨fun warm filled => onDev_eq (warmupDone_warm warm filled), fun h => onDev_eq (warmupDone_early h), ?ring, ?off,
    fun h => onDev_eq (recutComplete_holds h), fun h => onDev_eq (itrimUpdate_barred h), ?trim, fun h => onDev_eq (levelCrossing_none h),
    fun on writes hj below above armed => onDev_eq (levelCrossing_fires on writes hj below above armed)⟩
  case ring =>
    intro recut released on cut valid
    have full : max (s.dev.capCh n).recutFrom (s.dev.capCh n).validFrom + (s.dev.geomAt s.dev.clk.turn).1 ≤ s.dev.nowSample := by
      rcases max_choice (s.dev.capCh n).recutFrom (s.dev.capCh n).validFrom with h | h <;> rw [h]
      · exact cut
      · exact valid
    exact onDev_eq (recutComplete_filled recut released on full)
  case off => exact fun recut released off => onDev_eq (recutComplete_unpowered recut released off)
  case trim =>
    intro due turn
    have update := itrimUpdate_turn (est := est) due turn
    exact ⟨fun paid => onDev_eq (update.trans (withPips_paid paid)), fun short => onDev_eq (update.trans (withPips_waits short))⟩

end Sys2Proof.Machine

/-! Accepts as they arrive and are held, software triggers, primitives and the pin TRIG_OUT (R132, R136, R138, R146, R148, R149, R293). -/

namespace Sys2Proof.Machine

open Sys2Proof.Safety

/-! ### Short messages without a character error (R274, R293) -/

theorem shortIn_inactive {l : Nat} {d : Dev} (good : Bool) (e : CharErr) (f : Dev → Dev) (h : d.get (F.LNK_LANE_STATUS_STAGE l) ≠ 5) :
    shortIn l good e f d = d := if_pos (bne_iff_ne.2 h)

theorem shortIn_active {l : Nat} {d : Dev} (good : Bool) (f : Dev → Dev) (h : d.get (F.LNK_LANE_STATUS_STAGE l) = 5) :
    shortIn l good .none f d = if good then f d else count1 (R.LNK_LANE_COUNT l 3) d := by
  unfold shortIn
  refine (if_neg (by simp [h])).trans ?_
  cases good <;> rfl

/-- A body of KIND 2 is an ACCEPT for capture. -/
theorem acceptIn_cluster (p : Nat) {body : List Word} (d : Dev) (h : vl0Kind body = 2) : acceptIn p body d = acceptDecoded (acceptBody body d) d := by
  simp [acceptIn, h]

/-- ACCEPT_RECEIVE on an upstream port, without a character error. -/
theorem exec_acceptReceive {p : Nat} (body : List Word) (crcOk : Bool) (s : State) (hp : p < 2) : exec (.acceptReceive p body crcOk .none) s =
    .next (withDev s (shortIn (4 * p) (crcOk && vl0Good body) .none (acceptIn p body) s.dev)) := by
  have run : exec (.acceptReceive p body crcOk .none) s =
    .next (withDev s (shortIn (4 * (p % 2)) (crcOk && vl0Good body) .none (acceptIn (p % 2) body) s.dev)) := rfl
  rw [run, Nat.mod_eq_of_lt hp]

/-! ### Held accepts (R138) -/

theorem acceptHoldRelease_next {a : Accept} {d : Dev} (h : d.holdNext = some a) :
    acceptHoldRelease d = acceptTimely a { d with cap := { d.cap with holds := d.cap.holds.erase a } } := by
  unfold acceptHoldRelease
  rw [h]

theorem acceptHoldRelease_none {d : Dev} (h : d.cap.holds = []) : acceptHoldRelease d = d := by
  unfold acceptHoldRelease Dev.holdNext
  rw [h]
  rfl

theorem holdNext_one {a : Accept} {d : Dev} (h : d.cap.holds = [a]) : d.holdNext = some a := by
  unfold Dev.holdNext
  rw [h]
  rfl

theorem holdNext_two {a b : Accept} {d : Dev} (h : d.cap.holds = [a, b]) : d.holdNext = if d.tickBefore b a then some b else some a := by
  unfold Dev.holdNext
  rw [h]
  rfl

/-! ### Software triggers (R132) -/

/-- The block with its mask of software triggers. -/
def swMasked (lo hi : Word) (d : Dev) : Dev := (d.setReg R.CAP_SW_MASK_LO lo).setReg R.CAP_SW_MASK_HI hi

/-- The block with a software trigger that waits for the pip boundary. -/
def swWaits (d : Dev) : Dev := { d with cap := { d.cap with swPend := true } }

/-- The mask leaves the mode. -/
theorem swMasked_mode (lo hi : Word) (d : Dev) : (swMasked lo hi d).mode = d.mode := by
  unfold swMasked Dev.mode Dev.get
  rw [Dev.reg_setReg_ne _ _ (by decide), Dev.reg_setReg_ne _ _ (by decide)]

theorem swTrig_waits {d : Dev} (h : srcMode d.mode 5 = true) : swTrig d = swWaits d := if_pos h

theorem swTrig_none {d : Dev} (h : srcMode d.mode 5 = false) : swTrig d = d := if_neg (Bool.eq_false_iff.1 h)

/-- A row all of whose bits software writes at will (R15). -/
structure RegRow.Whole (r : RegRow) : Prop where
  all : r.rw = 2 ^ 32 - 1
  sh : r.sh = 0
  w1c : r.w1c = 0
  w1s : r.w1s = 0
  cnt : r.cnt = false

theorem writeFields_whole {r : RegRow} (k : Nat) (v : Word) (d : Dev) (h : r.Whole) : writeFields r k v d = d.setReg k v := by
  have word : fieldsWord r (d.reg k) v = v := by
    apply BitVec.eq_of_getLsbD_eq
    intro i hi
    rw [← bit_eq_getLsbD, ← bit_eq_getLsbD, bit_fieldsWord r _ v hi]
    simp only [h.all, h.w1c, h.w1s, Nat.testBit_two_pow_sub_one, hi, decide_true, Nat.zero_testBit, Bool.false_and, Bool.false_eq_true, if_false, if_true]
  rw [writeFields_plain r k v d h.sh, word, h.all, h.w1c, h.w1s]
  exact if_neg (by decide)

theorem writeReg_whole {k : Nat} {v : Word} {s : State} {r : RegRow} (present : s.dev.absentKey k = false) (key : dmaKey k s.dev = some k)
    (job : k ≠ R.CMP_JOB_CMD) (plain : commandWrite k v s.dev = none) (row : regRow k = some r) (h : r.Whole) :
    writeReg k v s = withDev s (s.dev.setReg k v) := by
  rw [writeReg_fields present key job plain row h.cnt, writeFields_whole k v s.dev h]

/-- Either half of SW_MASK takes the word written to it. -/
theorem writeReg_swMask {k : Nat} (v : Word) (s : State) (hk : k = R.CAP_SW_MASK_LO ∨ k = R.CAP_SW_MASK_HI) :
    writeReg k v s = withDev s (s.dev.setReg k v) := by
  have present : s.dev.absentKey k = false := by
    unfold Dev.absentKey
    rcases hk with rfl | rfl <;> rfl
  rcases hk with rfl | rfl
  · exact writeReg_whole present rfl (by decide) rfl rfl ⟨rfl, rfl, rfl, rfl, rfl⟩
  · exact writeReg_whole present rfl (by decide) rfl rfl ⟨rfl, rfl, rfl, rfl, rfl⟩

theorem writeReg_capCmd (s : State) : writeReg R.CAP_CMD 1 s = withDev s (swTrig s.dev) := by
  have present : s.dev.absentKey R.CAP_CMD = false := by
    unfold Dev.absentKey
    rfl
  have key : dmaKey R.CAP_CMD s.dev = some R.CAP_CMD := rfl
  unfold writeReg
  simp only [present, key, Bool.false_eq_true, if_false]
  rfl

/-- The registers of a software trigger: the mask, then CAP_CMD.SW_TRIG. -/
theorem exec_swTrigger_regs (lo hi : Word) (s : State) : exec (.swTrigger none lo hi) s = .next (withDev s (swTrig (swMasked lo hi s.dev))) := by
  have run : exec (.swTrigger none lo hi) s = .next (writeReg R.CAP_CMD 1 (writeReg R.CAP_SW_MASK_HI hi (writeReg R.CAP_SW_MASK_LO lo s))) := rfl
  rw [run, writeReg_swMask lo s (.inl rfl), writeReg_swMask hi _ (.inr rfl), writeReg_capCmd]
  rfl

theorem mSwTrigger_waits (lo hi : Word) {d : Dev} (h : srcMode d.mode 5 = true) : mSwTrigger [lo, hi] d = (swTrig (swMasked lo hi d), 0) := if_pos h

theorem mSwTrigger_denied (lo hi : Word) {d : Dev} (h : srcMode d.mode 5 = false) : mSwTrigger [lo, hi] d = (d, 3) := if_neg (Bool.eq_false_iff.1 h)

/-- The message of a software trigger, once accepted. -/
theorem exec_swTrigger_msg {c : MsgCtx} {lo hi : Word} {s : State} (a : Accepted 0x0401 c [lo, hi] s) : exec (.swTrigger (some c) lo hi) s =
    .next (answer 0x0401 c (mSwTrigger [lo, hi] s.dev).2 [] (withDev s (mSwTrigger [lo, hi] s.dev).1)) :=
  congrArg Host.Outcome.next (direct_answer a rfl rfl)

/-! ### Primitives and TRIG_OUT (R146, R148, R149) -/

section Form

variable {turn : Nat} {d : Dev} (pip : Nat)

theorem primitiveForm_none (h : primForms turn d = false) : primitiveForm turn pip d = d := by
  unfold primitiveForm
  exact if_pos (by rw [h, Bool.not_false])

theorem primitiveForm_forms (h : primForms turn d = true) : primitiveForm turn pip d =
    if d.isConc then { d with
      cap := { d.cap with maps := kset d.cap.maps (tickNo turn pip) (primBitmap turn pip d) }
      cas := { d.cas with prims := kset d.cas.prims (16 * tickNo turn pip + 8) (primBitmap turn pip d) } }
    else primLeaf turn pip d := by
  unfold primitiveForm
  exact if_neg (by simp [h])

end Form

theorem trigOutStart_none {d : Dev} (h : d.cap.trigEvents = []) : trigOutStart d = d := by
  unfold trigOutStart
  rw [h]

theorem trigOutStart_one {d : Dev} {t : Int} (h : d.cap.trigEvents = [t]) :
    trigOutStart d = { d with cap := { d.cap with trigOut := true, trigLast := t, trigEvents := [] } } := by
  unfold trigOutStart
  rw [h]
  rfl

/-- Settles O39: an accept by its lane and its CRC; of two held accepts by the order of their ticks; a software trigger by the mode, in both of its
forms; a primitive by the mode and by the Burjor's role. -/
theorem acceptsAndTriggerPins : Obligations.AcceptsAndTriggerPins := by
  intro s c p turn pip lo hi body a b t hp
  refine ⟨?inactive, ?active, fun h => onDev_eq (acceptHoldRelease_none h), ?one, ?two, ?waits, ?nothing, ?denied,
    fun h => onDev_eq (primitiveForm_none pip h), fun h conc => onDev_eq ((primitiveForm_forms pip h).trans (if_pos conc)),
    fun h leaf => onDev_eq ((primitiveForm_forms pip h).trans (if_neg (Bool.eq_false_iff.1 leaf))), fun h => onDev_eq (trigOutStart_one h),
    fun h => onDev_eq (trigOutStart_none h), rfl⟩
  case inactive =>
    intro h
    rw [exec_acceptReceive body true s hp, shortIn_inactive _ _ _ h]
    rfl
  case active =>
    intro h
    refine ⟨?_, fun good kind => ?_⟩
    · rw [exec_acceptReceive body false s hp, shortIn_active _ _ h]
      rfl
    · rw [exec_acceptReceive body true s hp, shortIn_active _ _ h, good, acceptIn_cluster p _ kind]
      rfl
  case one =>
    intro h
    refine onDev_eq ((acceptHoldRelease_next (holdNext_one h)).trans ?_)
    rw [h, List.erase_cons_head]
  case two =>
    intro h distinct
    refine ⟨fun before => onDev_eq ((acceptHoldRelease_next ((holdNext_two h).trans (if_pos before))).trans ?_),
      fun after => onDev_eq ((acceptHoldRelease_next ((holdNext_two h).trans (if_neg (Bool.eq_false_iff.1 after)))).trans ?_)⟩
    · rw [h, List.erase_cons_tail (by simpa using distinct), List.erase_cons_head]
    · rw [h, List.erase_cons_head]
  case waits =>
    intro mode
    have waits : swTrig (swMasked lo hi s.dev) = swWaits (swMasked lo hi s.dev) := swTrig_waits ((swMasked_mode lo hi s.dev).symm ▸ mode)
    refine ⟨?_, fun taken => ?_⟩
    · rw [exec_swTrigger_regs, waits]
      rfl
    · rw [exec_swTrigger_msg taken, mSwTrigger_waits lo hi mode, waits]
      rfl
  case nothing =>
    intro mode
    rw [exec_swTrigger_regs, swTrig_none ((swMasked_mode lo hi s.dev).symm ▸ mode)]
    rfl
  case denied =>
    intro mode taken
    rw [exec_swTrigger_msg taken, mSwTrigger_denied lo hi mode]
    rfl

end Sys2Proof.Machine

/-! The slice engines: which record an engine takes, what becomes of it, and the gain updates (R142, R152 to R155, R159, R166). -/

namespace Sys2Proof.Machine

open Sys2Proof.Safety

@[simp] theorem Dev.capCh_setCapCh_self (d : Dev) (n : Nat) (c : CapChannel) : (d.setCapCh n c).capCh n = c := by simp [Dev.capCh]

@[simp] theorem Dev.gainSums_setGainSums_self (d : Dev) (n : Nat) (x : GainSums) : (d.setGainSums n x).gainSums n = x := by simp [Dev.gainSums]

/-! ### An engine chooses (R153) -/

/-- An engine that runs, is out of use or finds no record that fits chooses none. -/
theorem engineChoose_none {k : Nat} {d : Dev} (h : (d.engine k).run.isSome = true ∨ d.se.off.contains k = true ∨ ∀ m, m / 8 = k → pickSegment d m = none) :
    engineChoose k d = d := by
  unfold engineChoose
  refine ite_eq_left_iff.2 fun idle => ?_
  obtain ⟨⟨rests, used⟩, -⟩ : ((d.engine k).run.isSome = false ∧ d.se.off.contains k = false) ∧ d.underTest (.engine k) = false := by
    simpa [-List.contains_eq_mem, -Option.isSome_eq_false_iff] using idle
  have empty : ∀ m, m / 8 = k → pickSegment d m = none := by
    rcases h with runs | off | empty
    · exact absurd (rests.symm.trans runs) Bool.false_ne_true
    · exact absurd (used.symm.trans off) Bool.false_ne_true
    · exact empty
  have found : ((List.range 8).map (fun i => 8 * k + (d.clk.ct / 2048 + i) % 8)).findSome? (fun n => (pickSegment d n).map (fun g => (n, g.j))) = none := by
    rw [List.findSome?_eq_none_iff]
    intro n hn
    obtain ⟨i, -, rfl⟩ := List.mem_map.1 hn
    rw [empty _ (by omega), Option.map_none]
  simp only [found]

/-- The block once engine k has taken segment j of channel n (R153, R154). -/
def engineTakes (k n j : Nat) (d : Dev) : Dev :=
  let d := d.setCapCh n { d.capCh n with segs := (d.capCh n).segs.map (fun g => if g.j == j then { g with st := .reading } else g) }
  let d := d.setEngine k { d.engine k with run := some (n, j), sliceEnd := d.clk.ctBase + (d.sliceEnd / 2048).toNat, items := [], waitFrom := none }
  d.put F.SE_STATUS_BUSY (d.get F.SE_STATUS_BUSY ||| 2 ^ k)

/-- In slice 0 an idle engine takes the record of its group's first channel that fits. -/
theorem engineChoose_owner {k : Nat} {d : Dev} {g : Segment} (slice : d.clk.ct < 2048) (rests : (d.engine k).run = none)
    (used : d.se.off.contains k = false) (untested : d.underTest (.engine k) = false) (found : pickSegment d (8 * k) = some g) :
    engineChoose k d = engineTakes k (8 * k) g.j d := by
  have first : d.clk.ct / 2048 = 0 := Nat.div_eq_of_lt slice
  have owner : ((List.range 8).map (fun i => 8 * k + (0 + i) % 8)).findSome? (fun n => (pickSegment d n).map (fun g => (n, g.j))) = some (8 * k, g.j) := by
    simp [List.range_succ_eq_map, found]
  unfold engineChoose
  refine (if_neg (by rw [rests, used, untested]; decide)).trans ?_
  simp only [first, owner]
  exact if_pos (by rw [Nat.add_zero, beq_self_eq_true])

/-- Setting bit k of a field of eight bits sets it. -/
theorem nbits_set_bit (x : Nat) {k : Nat} (hk : k < 8) : nbits ((x ||| 2 ^ k) % 2 ^ 8) k k = 1 := by
  have set : ((x ||| 2 ^ k) % 2 ^ 8).testBit k = true := by
    rw [Nat.testBit_mod_two_pow, Nat.testBit_or, Nat.testBit_two_pow_self, Bool.or_true, decide_eq_true hk, Bool.and_self]
  rw [Nat.testBit_eq_decide_div_mod_eq, decide_eq_true_iff] at set
  rw [nbits, Nat.shiftRight_eq_div_pow, Nat.add_sub_cancel_left, Nat.pow_one, set]

/-- An engine that has taken a record shows busy. -/
theorem engineTakes_busy {k : Nat} (n j : Nat) (d : Dev) (hk : k < 8) : nbits ((engineTakes k n j d).get F.SE_STATUS_BUSY) k k = 1 := by
  unfold engineTakes
  dsimp only
  rw [Dev.get_put_self _ _ _ (by decide) (by decide)]
  exact nbits_set_bit _ hk

/-! ### A record is done and written (R142, R155, R166) -/

theorem recordDone_rests {k fails : Nat} {bad : List Nat} {d : Dev} (h : (d.engine k).run = none) : recordDone k fails bad d = d := by
  unfold recordDone
  rw [h]

theorem seFifoRoom_rests {k : Nat} {d : Dev} (h : (d.engine k).run = none) : seFifoRoom k d = d := by
  unfold seFifoRoom
  rw [h]

theorem seFifoRoom_runs {k n j : Nat} {d : Dev} (h : (d.engine k).run = some (n, j)) :
    seFifoRoom k d = if (d.engine k).items = [] then d else engineWrite k n j (d.engine k).items d := by
  unfold seFifoRoom
  simp only [h, List.isEmpty_iff]

/-- The block once m failed residue checks of engine k are reported (R166, R461). -/
def residueReports (k m : Nat) (d : Dev) : Dev := (List.range m).foldl (fun d _ => report (0x120 + k) 0x0B 7 0x07 0 (some (.engine k)) d) d

theorem residueReports_zero (k : Nat) (d : Dev) : residueReports k 0 d = d := rfl

theorem residueReports_two (k : Nat) (d : Dev) : residueReports k 2 d =
    report (0x120 + k) 0x0B 7 0x07 0 (some (.engine k)) (report (0x120 + k) 0x0B 7 0x07 0 (some (.engine k)) d) := rfl

/-- What a record that is found comes to, whatever operations read it for parity, reduce it and write its items. (The operations are
variables here, so that no proof has to run the reduction.) -/
theorem found_record (parity : Nat → Segment → List Nat → Dev → List Nat × Dev) (reduction : Nat → Segment → Bool → Dev → List Entry × Dev)
    (write : Nat → Nat → Nat → List Entry → Dev → Dev) (k n j : Nat) (bad : List Nat) (poison : Bool) (g : Segment) (d e : Dev) :
    (match some g with
    | none => d
    | some g => match parity n g bad e with
      | (words, e) => match reduction n { g with bad := words } poison e with
        | (items, e) => write k n j items e) =
    (let p := parity n g bad e
    let r := reduction n { g with bad := p.1 } poison p.2
    write k n j r.1 r.2) := rfl

/-- The record of a running engine: failed residue checks are reported, two at most, then the words that failed parity; then it is reduced and
written. -/
theorem recordDone_runs {k fails n j : Nat} {bad : List Nat} {d : Dev} {g : Segment} (h : (d.engine k).run = some (n, j)) (unwritten : (d.engine k).items = [])
    (found : (d.capCh n).segs.find? (fun g => g.j == j) = some g) : recordDone k fails bad d =
    (let p := segmentParity n g bad (residueReports k (min fails 2) d)
    let r := reduceRecord n { g with bad := p.1 } (2 ≤ fails) p.2
    engineWrite k n j r.1 r.2) := by
  unfold recordDone residueReports
  rw [h]
  refine (if_neg (by rw [unwritten]; decide)).trans ?_
  generalize (d.capCh n).segs.find? (fun g => g.j == j) = o at found ⊢
  subst found
  exact found_record segmentParity reduceRecord engineWrite k n j bad (2 ≤ fails) g (d.setEngine k {}) _

/-- Without a word that failed parity the record is reduced as it was copied. -/
theorem recordDone_clean {k fails n j : Nat} {d : Dev} {g : Segment} (h : (d.engine k).run = some (n, j)) (unwritten : (d.engine k).items = [])
    (found : (d.capCh n).segs.find? (fun g => g.j == j) = some g) (clean : g.bad = []) : recordDone k fails [] d =
    (let r := reduceRecord n g (2 ≤ fails) (residueReports k (min fails 2) d)
    engineWrite k n j r.1 r.2) := by
  have same : { g with bad := [] } = g := by rw [← clean]
  rw [recordDone_runs h unwritten found, segmentParity_clean n _ clean]
  dsimp only
  rw [same]

/-! ### Gain updates (R159) -/

/-- The block with a new GAIN of a channel landed. -/
def gainLands (n v : Nat) (d : Dev) : Dev :=
  ((d.put (F.SE_GAIN_STATUS_GAIN n) v).put (F.SE_GAIN_STATUS_GR_STATE n) 1).setGainSums n { d.gainSums n with next := none }

theorem gainRatioUpdate_none {n : Nat} {d : Dev} (h : (d.gainSums n).next = none ∨ d.is (F.SE_CH_GAIN_GR_MODE n) = true) : gainRatioUpdate n d = d := by
  unfold gainRatioUpdate
  split
  next => rfl
  next v waits =>
    rcases h with none | fixed
    · exact absurd (none.symm.trans waits) (Option.some_ne_none v).symm
    · exact if_pos fixed

theorem gainRatioUpdate_waits {n v : Nat} {d : Dev} (h : (d.gainSums n).next = some v) (auto : d.is (F.SE_CH_GAIN_GR_MODE n) = false) :
    gainRatioUpdate n d = withPips 0 1 1 (gainLands n v) d := by
  unfold gainRatioUpdate
  rw [h]
  exact if_neg (Bool.eq_false_iff.1 auto)

theorem gainLands_status (n : Nat) {v : Nat} (d : Dev) (hv : v < 2 ^ 17) : (gainLands n v d).get (F.SE_GAIN_STATUS_GAIN n) = v ∧
    (gainLands n v d).get (F.SE_GAIN_STATUS_GR_STATE n) = 1 := by
  have put : (gainLands n v d).regs = ((d.put (F.SE_GAIN_STATUS_GAIN n) v).put (F.SE_GAIN_STATUS_GR_STATE n) 1).regs := rfl
  constructor
  · rw [Dev.get_congr _ put, Dev.get_put_field _ (F.SE_GAIN_STATUS_GR_STATE n) (F.SE_GAIN_STATUS_GAIN n) _ (show 31 < 32 by decide)
      (show 30 ≤ 31 by decide) (.inl (show 16 < 30 by decide)), Dev.get_put_self _ _ _ (show 16 < 32 by decide) (Nat.zero_le 16)]
    exact Nat.mod_eq_of_lt hv
  · rw [Dev.get_congr _ put, Dev.get_put_self _ _ _ (show 31 < 32 by decide) (show 30 ≤ 31 by decide)]
    rfl

/-- Settles O40: an engine by whether it is idle and what its channels hold; a record by its failed checks; a new GAIN by its mode and its pip. -/
theorem sliceEngines : Obligations.SliceEngines := by
  intro s k n j fails bad g v
  refine ⟨rfl, engineChoose_none, fun slice hk rests used untested found => ?takes, fun rests => ?rests, ?room, ?done, ?writes,
    fun h => onDev_eq (gainRatioUpdate_none h), ?lands⟩
  case takes =>
    refine ⟨_, engineChoose_owner slice rests used untested found, rfl, ?_, engineTakes_busy _ _ _ hk, rfl⟩
    exact congrArg CapChannel.segs (Dev.capCh_setCapCh_self s.dev (8 * k) _)
  case rests => exact ⟨onDev_eq (recordDone_rests rests), onDev_eq (seFifoRoom_rests rests)⟩
  case room => exact fun runs written => onDev_eq ((seFifoRoom_runs runs).trans (if_pos written))
  case writes => exact fun runs waiting => onDev_eq ((seFifoRoom_runs runs).trans (if_neg waiting))
  case done =>
    intro runs unwritten found
    refine ⟨fun clean => onDev_eq ?_, fun clean => onDev_eq ?_, onDev_eq ?_⟩
    · rw [recordDone_clean runs unwritten found clean, Nat.zero_min, residueReports_zero]
      rfl
    · rw [recordDone_clean runs unwritten found clean, Nat.min_eq_right (Nat.le_add_left 2 fails), residueReports_two, decide_eq_true (Nat.le_add_left 2 fails)]
    · rw [recordDone_runs runs unwritten found, Nat.zero_min, residueReports_zero]
      rfl
  case lands =>
    intro waits auto hv paid
    obtain ⟨gain, state⟩ := gainLands_status n (s.dev.setBudAct 0 1 { s.dev.budAct 0 1 with got := (s.dev.budAct 0 1).got - 16 * 1 }) hv
    exact ⟨_, onDev_eq ((gainRatioUpdate_waits waits auto).trans (withPips_paid paid)), gain, state,
      congrArg GainSums.next (Dev.gainSums_setGainSums_self _ n _), rfl, rfl⟩

end Sys2Proof.Machine

/-! The collector: which entry it emits, what an emission takes with it, and when a frame drains and closes (R171, R173, R174, R184, R197, R198,
R262). -/

namespace Sys2Proof.Machine

open Sys2Proof.Safety

section Collector

variable {d : Dev}

/-! ### The frame's tail (R173, R198) -/

theorem frameTail_waits (h : d.col.group.isSome = true ∨ d.col.closing = none) : frameTail d = d := by
  refine ite_eq_left_iff.2 fun idle => ?_
  rcases h with started | notClosing
  · exact absurd started idle
  · rw [notClosing]

theorem frameTail_closes {h : Option (Nat × List Word64)} (idle : d.col.group = none) (closing : d.col.closing = some h) :
    frameTail d = openFrame h (closeFrame { d with col := { d.col with closing := none } }) := by
  unfold frameTail
  refine (if_neg (by rw [idle, Option.isSome_none]; exact Bool.false_ne_true)).trans ?_
  rw [closing]

/-! ### What goes with an item (R174, R178, R262) -/

theorem stallCount_eq (stall : Nat) (d : Dev) : stallCount stall d = if stall = 0 then d else count (R.COL_COUNT 4) stall d := by
  simp only [stallCount, beq_iff_eq]

/-- A read that finds no error gives the item as it stands; an item of source 129 or above carries no error of its FIFO. -/
theorem readDeliver_clean {e : Entry} (fate : ItemFate) (d : Dev) (clean : 129 ≤ e.src ∨ e.err = 0) : readDeliver 0 fate e d = deliver fate e d := by
  have noError : (if 129 ≤ e.src then 0 else max 0 e.err) = 0 := by
    rcases clean with high | unmarked
    · exact if_pos high
    · rw [unmarked, Nat.max_self, ite_self]
  unfold readDeliver
  rw [noError]
  rfl

/-- An item of a turn without a frame is dropped (R197). -/
theorem entryFate_unframed {e : Entry} (unframed : d.framed e.t.turn = false) (past : e.t.turn ≤ d.clk.turn) : entryFate e d = some .noFrame := by
  unfold entryFate
  exact (if_pos (by rw [unframed, Bool.not_false])).trans (if_pos past)

/-! ### What the collector emits (R171, R187) -/

/-- The block as item i of a source has left its FIFO, of a group that goes on if it has more (R187). -/
def itemLeaves (src i : Nat) (fate : ItemFate) (e : Entry) (d : Dev) : Dev :=
  { d with
    fifos := kset d.fifos src ((kget d.fifos src []).eraseIdx i)
    col := { d.col with group := if e.more then some (src, i, fate) else none } }

theorem collectorEmit_group {o : Emission} {src i j : Nat} {fate : ItemFate} {e : Entry} (started : d.col.group = some (src, i, fate))
    (next : nextCont ((kget d.fifos src []).drop i) i = some (j, e)) :
    collectorEmit o d = readDeliver o.err fate e (overflowMark o.overflow (stallCount o.stall (itemLeaves src j fate e d))) := by
  simp only [collectorEmit, started, next, itemLeaves]

/-- The entry with the smallest key of those that do not wait for their own frame, with its place. -/
def smallestReady (d : Dev) : Option (Option Nat × Entry) := smallest ((examined d).filter (fun x => !awaitsOwnFrame x.2 d))

theorem smallestReady_empty (h : (examined d).filter (fun x => !awaitsOwnFrame x.2 d) = []) : smallestReady d = none := by
  rw [smallestReady, h]
  rfl

section Idle

variable {o : Emission} {e : Entry} (idle : d.col.group = none) (notClosing : d.col.closing = none)

include idle notClosing

theorem collectorEmit_empty (empty : smallestReady d = none) : collectorEmit o d = d := by
  unfold smallestReady at empty
  simp only [collectorEmit, idle, frameTail_waits (.inr notClosing), empty]

theorem collectorEmit_waits {place : Option Nat} (least : smallestReady d = some (place, e)) (waits : entryFate e d = none) : collectorEmit o d = d := by
  unfold smallestReady at least
  simp only [collectorEmit, idle, frameTail_waits (.inr notClosing), least, waits]

theorem collectorEmit_item {i : Nat} {fate : ItemFate} (least : smallestReady d = some (some i, e)) (goes : entryFate e d = some fate) :
    collectorEmit o d = readDeliver o.err fate e (overflowMark o.overflow (stallCount o.stall (itemLeaves e.src i fate e d))) := by
  unfold smallestReady at least
  simp only [collectorEmit, idle, frameTail_waits (.inr notClosing), least, goes, itemLeaves]

theorem collectorEmit_lost {fate : ItemFate} (least : smallestReady d = some (none, e)) (goes : entryFate e d = some fate) :
    collectorEmit o d = deliver fate e (overflowMark o.overflow (stallCount o.stall { d with lost := kdel d.lost e.src })) := by
  unfold smallestReady at least
  simp only [collectorEmit, idle, frameTail_waits (.inr notClosing), least, goes]

end Idle

/-! ### The drain begins (R143, R173) -/

/-- The block at the ct at which the drain begins. -/
def atDrain (d : Dev) : Dev := { d with clk := { d.clk with ct := max d.clk.ct 15360 } }

theorem emitPastGaps_none (h : d.cap.gaps = []) : emitPastGaps d = d := by
  unfold emitPastGaps emitGaps
  rw [h, List.foldl_nil]

theorem drainStart_eq (h : d.cap.gaps = []) : drainStart d = if d.col.build.isSome then (atDrain d).put F.COL_STATUS_DRAINING 1 else atDrain d := by
  have kept : emitPastGaps (atDrain d) = atDrain d := emitPastGaps_none h
  unfold drainStart
  dsimp only
  rw [← atDrain, kept]
  rfl

end Collector

/-- Settles O41: the emission by whether a group has started, and else by the next entry's place and fate; the drain by whether a frame is built; the
tail by whether a frame waits to close. -/
theorem collectorEmitsInKeyOrder : Obligations.CollectorEmitsInKeyOrder := by
  intro s i j src stall ov e fate h
  refine ⟨?emits, fun unframed past => ⟨entryFate_unframed unframed past, rfl⟩, ?rests, ?drains, fun waits => onDev_eq (frameTail_waits waits),
    fun idle closing => onDev_eq (frameTail_closes idle closing)⟩
  case emits =>
    intro stalled note
    have noted (d : Dev) : overflowMark ov (stallCount stall d) = note d := by
      rw [stallCount_eq]
      rfl
    refine ⟨fun idle notClosing => ?_, fun started next clean => onDev_eq ?group⟩
    case group => rw [collectorEmit_group started next, readDeliver_clean _ _ clean, noted, itemLeaves]
    refine ⟨fun least => ⟨fun waits => onDev_eq (collectorEmit_waits idle notClosing least waits), fun goes clean => onDev_eq ?item⟩,
      fun least goes => onDev_eq ?lost, fun empty => onDev_eq (collectorEmit_empty idle notClosing (smallestReady_empty empty))⟩
    case item => rw [collectorEmit_item idle notClosing least goes, readDeliver_clean _ _ clean, noted, itemLeaves]
    case lost => rw [collectorEmit_lost idle notClosing least goes, noted]
  case rests =>
    intro unbuilt gaps
    exact onDev_eq ((drainStart_eq gaps).trans (if_neg (by simp [unbuilt])))
  case drains =>
    intro built gaps
    exact ⟨_, onDev_eq ((drainStart_eq gaps).trans (if_pos built)), Dev.get_put_self _ _ _ (by decide) (by decide), rfl⟩

end Sys2Proof.Machine

/-! The cascade's cluster trigger: primitives from below, rules and SUMMARYs, ACCEPTs on their way down (R213 to R219, R293). -/

namespace Sys2Proof.Machine

open Sys2Proof.Safety

/-! ### Commands of one port -/

/-- A command takes the number of its port below n: over a port in that range, what its function makes of the block. -/
theorem onDev_port {i n : Nat} (f : Nat → Dev → Dev) {s : State} {d : Dev} (hi : i < n) (h : f i s.dev = d) : onDev (f (i % n)) s = .next (withDev s d) := by
  rw [Nat.mod_eq_of_lt hi]
  exact onDev_eq h

/-- A good short body on an ACTIVE lane, without a character error, reaches its function (R293). -/
theorem shortIn_good {l : Nat} {body : List Word} {d e : Dev} {f : Dev → Dev} (active : d.get (F.LNK_LANE_STATUS_STAGE l) = 5) (good : vl0Good body = true)
    (h : f d = e) : shortIn l (true && vl0Good body) .none f d = e :=
  (shortIn_active _ f active).trans ((if_pos good).trans h)

section Below

variable {j : Nat} {body : List Word} {s : State} (hj : j < 8) (active : s.dev.get (F.LNK_LANE_STATUS_STAGE (8 + j)) = 5) (good : vl0Good body = true)

include hj active good

theorem exec_summaryReceive : exec (.summaryReceive j body true .none) s = .next s :=
  onDev_port (fun j => shortIn (8 + j) (true && vl0Good body) .none (fun d => d)) hj (shortIn_good active good rfl)

theorem exec_primitiveReceive {d : Dev} (h : primitiveReceive j body s.dev = d) : exec (.primitiveReceive j body true .none) s = .next (withDev s d) :=
  onDev_port (fun j => shortIn (8 + j) (true && vl0Good body) .none (primitiveReceive j body)) hj (shortIn_good active good h)

end Below

theorem exec_arrayAcceptReceive {p : Nat} {body : List Word} {s : State} {d : Dev} (hp : p < 2) (active : s.dev.get (F.LNK_LANE_STATUS_STAGE (4 * p)) = 5)
    (good : vl0Good body = true) (h : acceptIn p body s.dev = d) : exec (.arrayAcceptReceive p body true .none) s = .next (withDev s d) :=
  onDev_port (fun p => shortIn (4 * p) (true && vl0Good body) .none (acceptIn p body)) hp (shortIn_good active good h)

/-! ### Primitives from below (R213) -/

section Primitive

variable {d : Dev} {j : Nat} {body : List Word}

theorem primitiveReceive_unattached (h : d.portState j ≠ 3) : primitiveReceive j body d = d :=
  if_pos (Bool.or_eq_true_iff.2 (.inl (bne_iff_ne.2 h)))

/-- The last period of the coarse clock in which a primitive of a tick is in time. -/
def Dev.primDue (d : Dev) (turn tick : Nat) : Int := d.periodOf ((tick * 32768 : Nat) : Int) + (d.getAt turn F.CAS_TRIG_CFG_D_CT : Nat) - 32

/-- The turn of a PRIMITIVE. -/
def Dev.primTurn (d : Dev) (body : List Word) : Nat := extendTurn d.clk.turn (bits (wordAt body 0) 27 13)

/-- The tick of a PRIMITIVE. -/
def Dev.primTick (d : Dev) (body : List Word) : Nat := tickNo (d.primTurn body) (bits (wordAt body 0) 12 3)

/-- The block with a PRIMITIVE in the bitmap of its tick. -/
def primJoined (j : Nat) (body : List Word) (d : Dev) : Dev :=
  { d with cas := { d.cas with
    prims := kset d.cas.prims (16 * d.primTick body + d.pairSlot j)
      (kget d.cas.prims (16 * d.primTick body + d.pairSlot j) 0 ||| ((wordAt body 1).toNat * 2 ^ 32 + (wordAt body 2).toNat))
    coarse := if bit (wordAt body 0) 28 && !d.cas.coarse.contains (d.primTick body) then d.cas.coarse ++ [d.primTick body] else d.cas.coarse } }

variable (kind : vl0Kind body = 1) (attached : d.portState j = 3)

include kind attached

theorem primitiveReceive_attached : primitiveReceive j body d =
    if d.primDue (d.primTurn body) (d.primTick body) < (d.nowCt : Int) then raiseOnce E.CAS_PRIM_LATE [] (count1 (R.CAS_PORT_COUNT j 6) d)
    else primJoined j body d := by
  unfold primitiveReceive
  exact if_neg (by rw [attached, kind]; decide)

theorem primitiveReceive_late (late : d.primDue (d.primTurn body) (d.primTick body) < (d.nowCt : Int)) :
    primitiveReceive j body d = raiseOnce E.CAS_PRIM_LATE [] (count1 (R.CAS_PORT_COUNT j 6) d) :=
  (primitiveReceive_attached kind attached).trans (if_pos late)

theorem primitiveReceive_timely (timely : (d.nowCt : Int) ≤ d.primDue (d.primTurn body) (d.primTick body)) :
    primitiveReceive j body d = primJoined j body d :=
  (primitiveReceive_attached kind attached).trans (if_neg (not_lt.2 timely))

end Primitive

/-! ### A configuration field is not touched by counting (R23, R38) -/

theorem Dev.getAt_of_evOnly {d e : Dev} (ev : EvOnly d e) (turn : Nat) (f : FRef) (kept : e.get f = d.get f) : e.getAt turn f = d.getAt turn f := by
  have sameTurn : e.presentTurn turn = d.presentTurn turn := by
    unfold Dev.presentTurn
    rw [ev.clk]
  unfold Dev.getAt Dev.cfgAt
  rw [sameTurn, ev.commit]
  cases d.commit.prev.find? (fun p => d.presentTurn turn < p.1) with
  | some p => rfl
  | none => exact kept

/-- The cascade's counters leave UP_PRIM. -/
theorem Dev.upPrim_count (i n turn : Nat) (d : Dev) (hi : i < 64) : (count (R.CAS_COUNT i) n d).getAt turn F.CAS_CFG_UP_PRIM = d.getAt turn F.CAS_CFG_UP_PRIM := by
  have block : R.CAS_COUNT i / 65536 = 7 := by
    unfold R.CAS_COUNT
    omega
  refine Dev.getAt_of_evOnly (evOnly_count _ _ _) turn _ (count_get _ _ _ _ ?_ (by decide))
  rw [block]
  decide

/-! ### The rules of the cluster trigger (R215, R218) -/

/-- The block with the bitmap of tick p taken from its primitives (R213). -/
def clusterTaken (turn p : Nat) (d : Dev) : Dev :=
  { d with cas := { d.cas with
    maps := kset (d.cas.maps.filter (fun x => p < x.1 + 8)) p (clusterMap turn p d)
    prims := d.cas.prims.filter (fun x => p < x.1 / 16)
    coarse := d.cas.coarse.filter (fun t => p < t + 8) } }

/-- The rules that fired, in their order. -/
def firedRules (res : List (Bool × Nat × Bool)) : List Nat := (List.range 4).filter (fun r => (res.getD r (false, 0, false)).1)

/-- The block after its rules: the next holds, each rule that fired and the suppressed hits counted. -/
def rulesCounted (res : List (Bool × Nat × Bool)) (d : Dev) : Dev :=
  let e := (firedRules res).foldl (fun d r => count1 (R.CAS_COUNT (6 + r)) d) { d with cas := { d.cas with hold := res.map (fun x => x.2.1) } }
  if (res.filter (fun x => x.2.2)).length = 0 then e else count (R.CAS_COUNT 2) (res.filter (fun x => x.2.2)).length e

/-- The block with the ACCEPT that rule r decides. -/
def acceptDecided (turn pip r : Nat) (d : Dev) : Dev :=
  { d with cas := { d.cas with
    due := d.cas.due ++ [{ turn := turn, pip := pip, cls := d.getAt turn (F.CAS_RULE_CLASS r), coarse := ruleCoarse turn (tickNo turn pip) r d }] } }

/-- The block after its rules, with the ACCEPT of the lowest that fired. -/
def rulesDecided (turn pip : Nat) (res : List (Bool × Nat × Bool)) (d : Dev) : Dev :=
  match firedRules res with
  | [] => rulesCounted res d
  | r :: _ => acceptDecided turn pip r (rulesCounted res d)

/-- What the rules say without CT_EN: none fires and each keeps its hold. -/
def rulesAtRest (d : Dev) : List (Bool × Nat × Bool) := d.cas.hold.map (fun h => (false, h, false))

/-- What the four rules say of tick p. -/
def ruleResults (turn p : Nat) (d : Dev) : List (Bool × Nat × Bool) :=
  if d.isAt turn F.CAS_TRIG_CFG_CT_EN then (List.range 4).map (fun r => ruleStep turn p r d) else rulesAtRest d

theorem rulesCounted_upPrim (res : List (Bool × Nat × Bool)) (turn : Nat) (d : Dev) :
    (rulesCounted res d).getAt turn F.CAS_CFG_UP_PRIM = d.getAt turn F.CAS_CFG_UP_PRIM := by
  have fired : ((firedRules res).foldl (fun d r => count1 (R.CAS_COUNT (6 + r)) d) { d with cas := { d.cas with hold := res.map (fun x => x.2.1) } }).getAt turn
      F.CAS_CFG_UP_PRIM = d.getAt turn F.CAS_CFG_UP_PRIM := by
    refine List.foldlRecOn (motive := fun e : Dev => e.getAt turn F.CAS_CFG_UP_PRIM = d.getAt turn F.CAS_CFG_UP_PRIM) _ _ rfl fun e same r member => ?_
    have rule : r < 4 := List.mem_range.1 (List.mem_filter.1 member).1
    exact (Dev.upPrim_count (6 + r) 1 turn e (by omega)).trans same
  unfold rulesCounted
  dsimp only
  split
  · exact fired
  · exact (Dev.upPrim_count 2 _ turn _ (by decide)).trans fired

theorem rulesDecided_upPrim (turn pip : Nat) (res : List (Bool × Nat × Bool)) (d : Dev) :
    (rulesDecided turn pip res d).getAt turn F.CAS_CFG_UP_PRIM = d.getAt turn F.CAS_CFG_UP_PRIM := by
  unfold rulesDecided
  split <;> exact rulesCounted_upPrim res turn d

theorem clusterEvaluate_none {turn : Nat} (pip : Nat) {d : Dev} (h : d.isConc = false ∨ primMode (d.modeAt turn) = false) : clusterEvaluate turn pip d = d :=
  if_pos (by
    rcases h with leaf | mode
    · rw [leaf]
      rfl
    · rw [mode, Bool.not_false, Bool.or_true])

/-- The evaluation of a tick where no SUMMARY goes up. -/
theorem clusterEvaluate_decides {turn : Nat} (pip : Nat) {d : Dev} (conc : d.isConc = true) (mode : primMode (d.modeAt turn) = true)
    (noSummary : d.getAt turn F.CAS_CFG_UP_PRIM = 0) : clusterEvaluate turn pip d =
      rulesDecided turn pip (ruleResults turn (tickNo turn pip) (clusterTaken turn (tickNo turn pip) d)) (clusterTaken turn (tickNo turn pip) d) := by
  have quiet : ¬ (rulesDecided turn pip (ruleResults turn (tickNo turn pip) (clusterTaken turn (tickNo turn pip) d)) (clusterTaken turn (tickNo turn pip) d)).getAt
      turn F.CAS_CFG_UP_PRIM = 1 := by
    rw [rulesDecided_upPrim]
    exact fun summary => absurd (noSummary.symm.trans summary) (by decide)
  unfold clusterEvaluate
  refine (if_neg (by rw [conc, mode]; decide)).trans ?_
  simp only [beq_iff_eq]
  exact if_neg quiet

theorem ruleResults_off {turn : Nat} {d : Dev} {p q : Nat} (off : d.isAt turn F.CAS_TRIG_CFG_CT_EN = false) :
    ruleResults turn p (clusterTaken turn q d) = rulesAtRest (clusterTaken turn q d) := if_neg (Bool.eq_false_iff.1 off)

theorem ruleResults_on {turn : Nat} {d : Dev} {p q : Nat} (on : d.isAt turn F.CAS_TRIG_CFG_CT_EN = true) :
    ruleResults turn p (clusterTaken turn q d) = (List.range 4).map (fun r => ruleStep turn p r (clusterTaken turn q d)) := if_pos on

/-- At rest no rule fires and nothing is suppressed, and the holds stay. -/
theorem rulesDecided_atRest (turn pip : Nat) (d : Dev) : rulesDecided turn pip (rulesAtRest d) d = d := by
  have fired : firedRules (rulesAtRest d) = [] := by
    refine List.filter_eq_nil_iff.2 fun r _ => ?_
    unfold rulesAtRest
    rw [List.getD_eq_getElem?_getD, List.getElem?_map]
    cases d.cas.hold[r]? <;> exact Bool.false_ne_true
  have supp : (rulesAtRest d).filter (fun x => x.2.2) = [] := List.filter_eq_nil_iff.2 fun x member => by
    obtain ⟨h, _, rfl⟩ := List.mem_map.1 member
    exact Bool.false_ne_true
  have hold : (rulesAtRest d).map (fun x => x.2.1) = d.cas.hold := by
    unfold rulesAtRest
    rw [List.map_map]
    exact List.map_id _
  unfold rulesDecided rulesCounted
  rw [fired, supp, hold]
  rfl

theorem rulesDecided_none {res : List (Bool × Nat × Bool)} (turn pip : Nat) (d : Dev) (unfired : firedRules res = []) :
    rulesDecided turn pip res d = rulesCounted res d := by
  unfold rulesDecided
  rw [unfired]

theorem rulesDecided_lowest {res : List (Bool × Nat × Bool)} {i : Nat} {l : List Nat} (turn pip : Nat) (d : Dev) (lowest : firedRules res = i :: l) :
    rulesDecided turn pip res d = acceptDecided turn pip i (rulesCounted res d) := by
  unfold rulesDecided
  rw [lowest]

/-- A summary that holds no tick. -/
theorem heldSummary_eq {h : HeldSummary} (slots : h.slots = 0) (mult : h.mult = 0) (rules : h.rules = 0) (span : h.span = 0) : h = {} := by
  obtain ⟨_, _, _, _⟩ := h
  subst slots mult rules span
  rfl

/-- The slots of a bitmap with a pixel (R218). -/
def slotsHit (map : Nat) : Nat := ((List.range 9).filter (fun s => nbits map (64 * s + 63) (64 * s) != 0)).foldl (fun a s => a + 2 ^ s) 0

/-- The SUMMARY of one tick (R218). -/
def summaryWords (turn pip map rules : Nat) : List Word :=
  [pack32 [(31, 29, 4), (28, 28, 0), (27, 13, turn % 32768), (12, 3, pip), (2, 0, 0)], pack32 [(31, 23, slotsHit map), (22, 13, popcount map 576), (12, 9, rules)], 0]

/-- The block whose bucket on a port has paid for a message (R148). -/
def creditTaken (port : Nat) (d : Dev) : Dev := (d.setBucket port (d.bucketFill port)).setBucket port (d.bucketFill port - 16)

/-- The block with the SUMMARY of one tick on its way up. -/
def summarySent (turn pip map rules : Nat) (d : Dev) : Dev :=
  count1 (R.CAS_COUNT 5) { creditTaken d.primPort d with
    cas := { d.cas with held := {} }
    outShort := d.outShort ++ [{ port := d.primPort, body := summaryWords turn pip map rules }] }

/-- A SUMMARY that is due, with credit and none held before it, goes out on the ACTIVE port (R148, R218). -/
theorem summaryForm_leaves {turn map rules : Nat} (pip : Nat) {d : Dev} (unheld : d.cas.held = {}) (due : d.getAt turn F.CAS_TRIG_CFG_UP_MULT ≤ popcount map 576)
    (credit : 16 ≤ d.bucketFill d.primPort) (active : d.get (F.LNK_LANE_STATUS_STAGE (4 * d.primPort)) = 5) :
    summaryForm turn pip map rules d = summarySent turn pip map rules d := by
  have held : (d.setBucket d.primPort (d.bucketFill d.primPort)).cas.held = {} := unheld
  have many : decide (popcount map 576 < (d.setBucket d.primPort (d.bucketFill d.primPort)).getAt turn F.CAS_TRIG_CFG_UP_MULT) = false :=
    decide_eq_false (not_lt.2 due)
  have up : ((d.setBucket d.primPort (d.bucketFill d.primPort)).get (F.LNK_LANE_STATUS_STAGE (4 * d.primPort)) == 5) = true := beq_iff_eq.2 active
  unfold summaryForm
  simp only [held, many, up, Nat.zero_or, Nat.zero_max, Nat.zero_add]
  exact (if_neg Bool.false_ne_true).trans (if_pos credit)

/-! ### ACCEPTs on their way down (R216, R217) -/

theorem acceptIn_array (p : Nat) {body : List Word} {d : Dev} (kind : vl0Kind body = 3) (conc : d.isConc = true) : acceptIn p body d = arrayAccept p body d :=
  if_pos (by rw [kind, conc]; rfl)

/-- The array ACCEPTs relayed within 64 ticks. -/
def Dev.recentAccepts (d : Dev) : List (Nat × Nat) := d.cas.relayed.filter (fun r => d.nowCt / 16 ≤ r.1 + 64)

/-- What tells one array ACCEPT from another. -/
def acceptKey (body : List Word) : Nat := bits (wordAt body 0) 24 0 + bits (wordAt body 0) 28 26 * 2 ^ 25

theorem relayed_iff {d : Dev} {body : List Word} : d.recentAccepts.any (fun r => r.2 == acceptKey body) = true ↔ ∃ r ∈ d.recentAccepts, r.2 = acceptKey body := by
  simp only [List.any_eq_true, beq_iff_eq]

theorem arrayAccept_inactive {p : Nat} (body : List Word) {d : Dev} (h : d.upState p ≠ 1) : arrayAccept p body d = d := if_pos (bne_iff_ne.2 h)

theorem dueAccepts_none {d : Dev} (f : Nat) (h : ∀ a, d.cas.due.head? = some a → (d.nowCt : Int) < a.leaves d) : dueAccepts f d = d := by
  cases f with
  | zero => rfl
  | succ f =>
    unfold dueAccepts
    cases hd : d.cas.due with
    | nil => rfl
    | cons a r => exact if_neg (not_le.2 (h a (by rw [hd]; rfl)))

section Active

variable {p : Nat} {body : List Word} {d : Dev} (active : d.upState p = 1)

include active

theorem arrayAccept_active : arrayAccept p body d =
    if d.recentAccepts.any (fun r => r.2 == acceptKey body) then { d with cas := { d.cas with relayed := d.recentAccepts } }
    else
      let own := dueAccepts d.cas.due.length d
      let e := acceptDecoded (acceptBody body own) { own with cas := { own.cas with relayed := d.recentAccepts ++ [(d.nowCt / 16, acceptKey body)] } }
      if d.mode == .boot || d.mode == .test || d.mode == .dormant then e
      else (List.range 8).foldl (fun d j => sendDown false body j d) (count1 (R.CAS_COUNT 1) e) := by
  have key : bits (wordAt body 0) 24 0 % 2 ^ 25 + bits (wordAt body 0) 28 26 * 2 ^ 25 = acceptKey body := by
    rw [Nat.mod_eq_of_lt (bits_lt (wordAt body 0) 24 0), acceptKey]
  unfold arrayAccept
  rw [key]
  exact if_neg (by rw [active]; decide)

theorem arrayAccept_relayed (known : ∃ r ∈ d.recentAccepts, r.2 = acceptKey body) :
    arrayAccept p body d = { d with cas := { d.cas with relayed := d.recentAccepts } } :=
  (arrayAccept_active active).trans (if_pos (relayed_iff.2 known))

/-- A fresh array ACCEPT that no own one of the same ct precedes (R217). -/
theorem arrayAccept_fresh (fresh : ∀ r ∈ d.recentAccepts, r.2 ≠ acceptKey body) (boot : d.mode ≠ .boot) (test : d.mode ≠ .test) (dormant : d.mode ≠ .dormant)
    (waits : ∀ a, d.cas.due.head? = some a → (d.nowCt : Int) < a.leaves d) : arrayAccept p body d =
      (List.range 8).foldl (fun d j => sendDown false body j d) (count1 (R.CAS_COUNT 1)
        (acceptDecoded (acceptBody body d) { d with cas := { d.cas with relayed := d.recentAccepts ++ [(d.nowCt / 16, acceptKey body)] } })) := by
  have unknown : ¬ d.recentAccepts.any (fun r => r.2 == acceptKey body) = true := fun known =>
    have ⟨r, member, same⟩ := relayed_iff.1 known
    fresh r member same
  rw [arrayAccept_active active, if_neg unknown, dueAccepts_none _ waits]
  exact if_neg (by simp [boot, test, dormant])

end Active

theorem sendDown_chipId (c : Bool) (body : List Word) (j : Nat) (d : Dev) : (sendDown c body j d).chipId = d.chipId := by
  unfold sendDown
  split
  · rfl
  · split
    · cases c
      · rfl
      · exact count1_chipId _ _
    · rfl

/-- A body that bears the chip ID is the same on every port. -/
theorem foldl_sendDown_chipId (words : Nat → List Word) (l : List Nat) (d : Dev) :
    l.foldl (fun d j => sendDown true (words d.chipId) j d) d = l.foldl (fun e j => sendDown true (words d.chipId) j e) d := by
  induction l generalizing d with
  | nil => rw [List.foldl_nil, List.foldl_nil]
  | cons j l ih => rw [List.foldl_cons, List.foldl_cons, ih, sendDown_chipId]

theorem clusterAcceptSend_none {d : Dev} (h : d.cas.due = []) : clusterAcceptSend d = d := by
  unfold clusterAcceptSend
  rw [h]

theorem clusterAcceptSend_oldest {d : Dev} {a : DueAccept} {r : List DueAccept} (h : d.cas.due = a :: r) : clusterAcceptSend d =
    acceptDecoded { array := false, cls := a.cls, turn := a.turn, pip := a.pip }
      ((List.range 8).foldl (fun e j => sendDown true (acceptWords 2 a.cls a.coarse a.turn a.pip d.chipId) j e)
        (count1 (R.CAS_COUNT 0) { d with cas := { d.cas with due := r } })) := by
  unfold clusterAcceptSend
  rw [h]
  dsimp only
  rw [foldl_sendDown_chipId (acceptWords 2 a.cls a.coarse a.turn a.pip), count1_chipId]

theorem dueAccepts_one {d : Dev} {a : DueAccept} {r : List DueAccept} (leaves : a.leaves d ≤ (d.nowCt : Int)) (h : d.cas.due = a :: r) :
    dueAccepts 1 d = clusterAcceptSend d := by
  unfold dueAccepts
  rw [h]
  exact if_pos leaves

theorem acceptDelayedSend_one {d : Dev} {m : Nat × List Word} (h : d.cas.delayed = [m]) : acceptDelayedSend m.1 d =
    if d.outShort.any (fun x => x.port == 2 + m.1) then d
    else { d with outShort := d.outShort ++ [{ port := 2 + m.1, body := m.2 }], cas := { d.cas with delayed := [] } } := by
  unfold acceptDelayedSend
  rw [h]
  simp

/-- Settles O42: a PRIMITIVE by its port and its time; the rules by CT_EN and by whether one fires; an array ACCEPT by its port and by those relayed
before it; what leaves by what waits for it. -/
theorem primitivesAndAccepts : Obligations.PrimitivesAndAccepts := by
  intro s j p turn pip map rules i body a r m l hj hp
  refine ⟨fun active good => ⟨fun _ => exec_summaryReceive hj active good,
      fun _ unattached => exec_primitiveReceive hj active good (primitiveReceive_unattached unattached), ?attached⟩,
    fun h => onDev_eq (clusterEvaluate_none pip h), ?rules, ?summary, ?array, fun h => onDev_eq (clusterAcceptSend_none h),
    fun h => onDev_eq (clusterAcceptSend_oldest h), dueAccepts_one, ?delayed⟩
  case attached =>
    intro _ _ _ kind attached
    exact ⟨fun late => exec_primitiveReceive hj active good (primitiveReceive_late kind attached late),
      fun timely => ⟨_, exec_primitiveReceive hj active good (primitiveReceive_timely kind attached timely), kget_kset_self _ _ _ _, rfl, rfl, rfl⟩⟩
  case rules =>
    intro conc mode noSummary
    have run := clusterEvaluate_decides pip conc mode noSummary
    refine ⟨fun off => onDev_eq (run.trans ?_), fun on unfired => onDev_eq (run.trans ?_), fun on lowest => onDev_eq (run.trans ?_)⟩
    · rw [ruleResults_off off]
      exact rulesDecided_atRest turn pip _
    · rw [ruleResults_on on]
      exact rulesDecided_none turn pip _ unfired
    · rw [ruleResults_on on]
      exact rulesDecided_lowest turn pip _ lowest
  case summary =>
    intro span due credit _ _ _ slots mult rules active
    exact summaryForm_leaves pip (heldSummary_eq slots mult rules span) due credit active
  case array =>
    intro active good kind conc
    have run {d : Dev} (h : arrayAccept p body s.dev = d) : exec (.arrayAcceptReceive p body true .none) s = .next (withDev s d) :=
      exec_arrayAcceptReceive hp active good ((acceptIn_array p kind conc).trans h)
    exact ⟨fun inactive => run (arrayAccept_inactive body inactive), fun up known => run (arrayAccept_relayed up known),
      fun up fresh boot test dormant waits => run (arrayAccept_fresh up fresh boot test dormant waits)⟩
  case delayed =>
    intro one port
    subst port
    have run := acceptDelayedSend_one one
    exact ⟨fun idle => onDev_port acceptDelayedSend hj (run.trans (if_neg (by simpa using idle))),
      fun busy => onDev_port acceptDelayedSend hj (run.trans (if_pos (by simpa using busy)))⟩

end Sys2Proof.Machine

/-! Frames on their way up: from below into the OPEN queues (R209, R210, R212, R262), and out of an upstream port (R231, R236, R239, R240, R246). -/

namespace Sys2Proof.Machine

open Sys2Proof.Safety

/-! ### A frame on its way in (R209, R210) -/

section Receive

variable {d : Dev} {j : Nat} {r : RxFrame}

/-- The block without the frame that is arriving on D_j. -/
def rxGone (j : Nat) (d : Dev) : Dev := d.setCasPort j { d.casPort j with rx := none }

theorem dropRx_some (rx : (d.casPort j).rx = some r) : dropRx j d = dropPages (r.pages ++ r.pages2) (rxGone j d) := by
  unfold dropRx
  rw [rx]
  rfl

theorem frameHeadReceive_none (rx : (d.casPort j).rx = none) : frameHeadReceive j d = d := by
  unfold frameHeadReceive
  rw [rx]

theorem frameHeadReceive_waits (rx : (d.casPort j).rx = some r) (h : r.stage ≠ .head ∨ r.words.length < 3) : frameHeadReceive j d = d := by
  unfold frameHeadReceive
  rw [rx]
  exact if_pos (by simpa using h)

section Head

variable (rx : (d.casPort j).rx = some r) (head : r.stage = .head) (whole : 3 ≤ r.words.length)

include rx head whole

theorem frameHeadReceive_checks : frameHeadReceive j d =
    if wbits (r.words.headD 0) 63 60 != 0xC then rejectRx j 4 d
    else match headFails j (r.words.headD 0) (r.words.getD 1 0) d with
      | some i => discardRx j i d
      | none => d.setCasPort j { d.casPort j with rx := some { r with stage := .body } } := by
  unfold frameHeadReceive
  rw [rx]
  exact if_neg (by simp [head, whole])

theorem frameHeadReceive_noHead (other : wbits (r.words.headD 0) 63 60 ≠ 0xC) : frameHeadReceive j d = rejectRx j 4 d := by
  rw [frameHeadReceive_checks rx head whole]
  exact if_pos (bne_iff_ne.2 other)

theorem frameHeadReceive_passes (turnHead : wbits (r.words.headD 0) 63 60 = 0xC) (passes : headFails j (r.words.headD 0) (r.words.getD 1 0) d = none) :
    frameHeadReceive j d = d.setCasPort j { d.casPort j with rx := some { r with stage := .body } } := by
  rw [frameHeadReceive_checks rx head whole, turnHead, passes]
  rfl

theorem frameHeadReceive_fails {i : Nat} (turnHead : wbits (r.words.headD 0) 63 60 = 0xC)
    (fails : headFails j (r.words.headD 0) (r.words.getD 1 0) d = some i) : frameHeadReceive j d = discardRx j i d := by
  rw [frameHeadReceive_checks rx head whole, turnHead, fails]
  rfl

end Head

theorem rejectRx_some (rx : (d.casPort j).rx = some r) (i : Nat) :
    rejectRx j i d = count1 (R.CAS_PORT_COUNT j i) (dropPages (r.pages ++ r.pages2) (rxGone j d)) := by
  rw [rejectRx, dropRx_some rx]

theorem discardRx_some (rx : (d.casPort j).rx = some r) (i : Nat) : discardRx j i d =
    let e := count1 (R.CAS_PORT_COUNT j i) (dropPages (r.pages ++ r.pages2) (rxGone j d))
    if i = 3 then raiseOnce E.CAS_LATE_FRAME [] e else e := by
  simp only [discardRx, rejectRx_some rx, beq_iff_eq]

theorem frameTailReceive_none (rx : (d.casPort j).rx = none) : frameTailReceive j d = d := by
  unfold frameTailReceive
  rw [frameHeadReceive_none rx]
  dsimp only
  rw [rx]

theorem frameTailReceive_headWaits (rx : (d.casPort j).rx = some r) (head : r.stage = .head) (short : r.words.length < 3) : frameTailReceive j d = d := by
  unfold frameTailReceive
  rw [frameHeadReceive_waits rx (.inr short)]
  dsimp only
  rw [rx]
  exact if_pos (by rw [head]; rfl)

section Body

variable (rx : (d.casPort j).rx = some r) (body : r.stage = .body)

include rx body

/-- The TURN_HEAD of a frame is checked once. -/
theorem frameHeadReceive_body : frameHeadReceive j d = d := frameHeadReceive_waits rx (.inl (by rw [body]; decide))

theorem frameTailReceive_incomplete (part : wholeFrame r.words = none) : frameTailReceive j d = d := by
  unfold frameTailReceive
  rw [frameHeadReceive_body rx body]
  dsimp only
  rw [rx]
  refine (if_neg (by rw [body]; decide)).trans ?_
  rw [part]

variable {items : List (List Word64)} (whole : wholeFrame r.words = some items)

include whole

theorem frameTailReceive_whole : frameTailReceive j d =
    if frameGood items = true ∧ r.recode = true ∧ itemType (items.getD 1 []) ≠ 0xA then
      (rxGone j d).setCasPort j { (rxGone j d).casPort j with pipe := ((rxGone j d).casPort j).pipe ++ [{ r with done := items.flatMap id }] }
    else spliceRx j (items.flatMap id) (!frameGood items) false r.pages (dropPages r.pages2 (rxGone j d)) := by
  unfold frameTailReceive
  rw [frameHeadReceive_body rx body]
  dsimp only
  rw [rx]
  refine (if_neg (by rw [body]; decide)).trans ?_
  rw [whole]
  simp only [rxGone, Bool.not_not, Bool.and_eq_true, bne_iff_ne, and_assoc]

theorem frameTailReceive_spliced (raw : r.recode = false ∨ frameGood items = false ∨ itemType (items.getD 1 []) = 0xA) : frameTailReceive j d =
    spliceRx j (items.flatMap id) (!frameGood items) false r.pages (dropPages r.pages2 (rxGone j d)) := by
  refine (frameTailReceive_whole rx body whole).trans (if_neg ?_)
  rintro ⟨good, recode, first⟩
  rcases raw with unchosen | bad | concentrator
  · exact absurd (recode.symm.trans unchosen) (by decide)
  · exact absurd (good.symm.trans bad) (by decide)
  · exact first concentrator

theorem frameTailReceive_piped (recode : r.recode = true) (good : frameGood items = true) (first : itemType (items.getD 1 []) ≠ 0xA) : frameTailReceive j d =
    (rxGone j d).setCasPort j { (rxGone j d).casPort j with pipe := ((rxGone j d).casPort j).pipe ++ [{ r with done := items.flatMap id }] } :=
  (frameTailReceive_whole rx body whole).trans (if_pos ⟨good, recode, first⟩)

end Body

/-! ### Splicing and recoding (R209, R210, R262) -/

theorem spliceRx_refused {i : Nat} {ws : List Word64} (crcBad recoded : Bool) (pages : List Nat)
    (refused : closedOrDuplicate (ws.headD 0) (ws.getD 1 0) d = some i) : spliceRx j ws crcBad recoded pages d =
      let e := count1 (R.CAS_PORT_COUNT j i) (dropPages pages d)
      if i = 3 then raiseOnce E.CAS_LATE_FRAME [] e else e := by
  simp only [spliceRx, refused, beq_iff_eq]

theorem recodeDone_empty (ov : Bool) (empty : (d.casPort j).pipe = []) : recodeDone j ov d = d := by
  unfold recodeDone
  rw [empty]

/-- The block without the oldest frame in the recoding pipe of D_j. -/
def pipeLeft (j : Nat) (pipe : List RxFrame) (d : Dev) : Dev := d.setCasPort j { d.casPort j with pipe := pipe }

section Pipe

variable {pipe : List RxFrame} (oldest : (d.casPort j).pipe = r :: pipe)

include oldest

theorem recodeDone_refused {i : Nat} (ov : Bool) (refused : closedOrDuplicate (r.done.headD 0) (r.done.getD 1 0) (pipeLeft j pipe d) = some i) :
    recodeDone j ov d = spliceRx j r.done false false r.pages (dropPages r.pages2 (pipeLeft j pipe d)) := by
  unfold pipeLeft at refused
  simp only [recodeDone, oldest, refused, pipeLeft]

theorem recodeDone_spliced (ov : Bool) (spliced : closedOrDuplicate (r.done.headD 0) (r.done.getD 1 0) (pipeLeft j pipe d) = none) : recodeDone j ov d =
    let x := recodeChoice ov r.short r.done r.pages r.pages2 (pipeLeft j pipe d)
    spliceRx j x.1.1 false x.1.2.1 x.1.2.2 x.2 := by
  unfold pipeLeft at spliced
  simp only [recodeDone, oldest, spliced, pipeLeft]

end Pipe

theorem recodeChoice_overflow (short : Bool) (ws : List Word64) (pages pages2 : List Nat) (d : Dev) : recodeChoice true short ws pages pages2 d =
    ((ws, false, pages), raiseOnce E.CMP_NO_RECODE [] (count1 (R.CMP_COUNT 4) (dropPages pages2 d))) := rfl

end Receive

/-! ### The own frame (R212, R251) -/

section Own

variable {d : Dev} {o : OwnFrame} {rest : List OwnFrame}

theorem ownFrameSplice_none (h : d.col.ownDone = []) : ownFrameSplice d = d := by
  unfold ownFrameSplice
  rw [h]

/-- The block without the oldest own frame that has closed. -/
def ownTaken (rest : List OwnFrame) (d : Dev) : Dev := { d with col := { d.col with ownDone := rest } }

variable (oldest : d.col.ownDone = o :: rest)

include oldest

theorem ownFrameSplice_gone (gone : (ownTaken rest d).queueOpen o.turn = false) : ownFrameSplice d = dropPages (o.pages ++ o.pages2) (ownTaken rest d) := by
  unfold ownFrameSplice
  rw [oldest]
  exact if_pos (by rw [Bool.not_eq_true']; exact gone)

theorem ownFrameSplice_takes (takes : (ownTaken rest d).queueOpen o.turn = true) : ownFrameSplice d =
    let x := if o.recode then recodeChoice o.overflow o.short o.words o.pages o.pages2 (ownTaken rest d) else ((o.words, false, o.pages), ownTaken rest d)
    spliceSub 255 x.2.chipId o.turn x.1.1 false x.1.2.1 x.1.2.2 x.2 := by
  unfold ownFrameSplice
  rw [oldest]
  exact if_neg (by rw [Bool.not_eq_true', Bool.not_eq_false]; exact takes)

end Own

/-! ### A frame that leaves (R231, R236, R239, R240, R246) -/

section Send

variable {d : Dev} {p t : Nat} {x : TQueue}

theorem frameSendStart_step (d : Dev) (hp : p < 2) : frameSendStart p d = frameSendStartF (32767 + 1) p d := by
  unfold frameSendStart
  rw [Nat.mod_eq_of_lt hp]

theorem frameSendStartF_none (f : Nat) (h : (d.upPort p).job.isSome = true ∨ nextSend p d = none) : frameSendStartF (f + 1) p d = d := by
  unfold frameSendStartF
  refine ite_eq_left_iff.2 fun free => ?_
  rcases h with busy | nothing
  · exact absurd busy free
  · rw [nothing]

theorem frameSendStartF_first (f : Nat) (free : (d.upPort p).job = none) (next : nextSend p d = some (t, .first)) (held : d.holding t = some x) :
    frameSendStartF (f + 1) p d =
      let y := frameToSend x false d
      startJob p t .first y.1.1 (count1 (R.TQ_COUNT (sendCounter 0 y.1.2)) (y.2.putDesc (qIndex t)
        { y.1.2 with st := .sent, sentOnce := true, viaUB := p == 1, inflight := true, lastSend := some y.2.clk.bounds })) := by
  simp only [frameSendStartF, free, next, held, Option.isSome_none, Bool.false_eq_true, if_false]

/-- The block with a turn off the replays of a port. -/
def replayTaken (p t : Nat) (d : Dev) : Dev := d.setUpPort p { d.upPort p with replay := (d.upPort p).replay.filter (· != t) }

theorem Dev.holding_setUpPort (d : Dev) (p : Nat) (u : UpPort) (t : Nat) : (d.setUpPort p u).holding t = d.holding t := rfl

theorem frameSendStartF_replay (f : Nat) (free : (d.upPort p).job = none) (next : nextSend p d = some (t, .replay)) (held : d.holding t = some x)
    (sent : x.st = .sent) : frameSendStartF (f + 1) p d =
      let y := frameToSend x true (replayTaken p t d)
      startJob p t .replay y.1.1 (count1 (R.TQ_COUNT (sendCounter 1 y.1.2)) (y.2.putDesc (qIndex t) { y.1.2 with inflight := true, viaUB := p == 1 })) := by
  simp only [frameSendStartF, free, next, Dev.holding_setUpPort, held, sent, replayTaken, Option.isSome_none, Bool.false_eq_true, if_false, beq_self_eq_true, if_true]

theorem frameSendStartF_stub (f : Nat) (free : (d.upPort p).job = none) (next : nextSend p d = some (t, .stub)) : frameSendStartF (f + 1) p d =
    startJob p t .stub (stubFrame t false d) { d with tq := { d.tq with refusals := dropRefusal t d.tq.refusals } } := by
  simp only [frameSendStartF, free, next, Option.isSome_none, Bool.false_eq_true, if_false]

theorem queueCheck_clean (x : TQueue) (clean : d.ram.faulty = []) : queueCheck x d = (x, d) := by
  unfold queueCheck
  rw [clean]
  rfl

/-- A frame without poisoned words leaves as it stands, a replay with REPLAY set. -/
theorem frameToSend_clean (replay : Bool) (clean : d.ram.faulty = []) (good : x.bad = []) :
    frameToSend x replay d = ((if replay then asReplay x.words else x.words, x), d) := by
  unfold frameToSend
  rw [queueCheck_clean x clean]
  exact if_pos (by rw [good]; rfl)

theorem sendCounter_good (i : Nat) (good : x.bad = []) : sendCounter i x = i := if_pos (by rw [good]; rfl)

variable {job : SendJob}

theorem frameSendDone_idle (hp : p < 2) (idle : (d.upPort p).job = none) : frameSendDone p d = d := by
  unfold frameSendDone
  dsimp only
  rw [Nat.mod_eq_of_lt hp, idle]

theorem frameSendDone_sends (hp : p < 2) (sends : (d.upPort p).job = some job) (left : job.left ≠ []) : frameSendDone p d = d := by
  unfold frameSendDone
  dsimp only
  rw [Nat.mod_eq_of_lt hp, sends]
  exact if_pos (by simpa using left)

/-- The block with a port that has sent its frame. -/
def jobTaken (p : Nat) (d : Dev) : Dev := d.setUpPort p { d.upPort p with job := none }

theorem Dev.upPort_setUpPort_ne (d : Dev) {p q : Nat} (u : UpPort) (h : q ≠ p) : (d.setUpPort p u).upPort q = d.upPort q := by
  simp [Dev.upPort, List.getElem?_set_ne h.symm]

theorem sendsFrame_jobTaken (d : Dev) {q : Nat} (t : Nat) (h : q ≠ p) : (jobTaken p d).sendsFrame q t = d.sendsFrame q t := by
  unfold Dev.sendsFrame jobTaken
  rw [Dev.upPort_setUpPort_ne _ _ h]

theorem frameSendDone_sent (hp : p < 2) (sent : (d.upPort p).job = some job) (left : job.left = []) : frameSendDone p d =
    match d.holding job.turn with
    | some x => if job.kind == .stub || job.kind == .gone then jobTaken p d
        else (jobTaken p d).putDesc (qIndex job.turn) { x with inflight := d.sendsFrame (1 - p) job.turn, lastSend := some d.clk.bounds }
    | none => jobTaken p d := by
  have other : (jobTaken p d).sendsFrame (1 - p) job.turn = d.sendsFrame (1 - p) job.turn := sendsFrame_jobTaken d job.turn (by omega)
  unfold frameSendDone
  dsimp only
  rw [Nat.mod_eq_of_lt hp, sent]
  refine (if_neg (by simp [left])).trans ?_
  rw [← other]
  rfl

theorem frameSendDone_forgets (hp : p < 2) (sent : (d.upPort p).job = some job) (left : job.left = [])
    (h : job.kind = .stub ∨ job.kind = .gone ∨ d.holding job.turn = none) : frameSendDone p d = jobTaken p d := by
  rw [frameSendDone_sent hp sent left]
  rcases h with stub | gone | free
  · rw [stub]
    cases d.holding job.turn <;> rfl
  · rw [gone]
    cases d.holding job.turn <;> rfl
  · rw [free]

theorem frameSendDone_waits (hp : p < 2) (sent : (d.upPort p).job = some job) (left : job.left = []) (stub : job.kind ≠ .stub) (gone : job.kind ≠ .gone)
    (held : d.holding job.turn = some x) : frameSendDone p d =
      (jobTaken p d).putDesc (qIndex job.turn) { x with inflight := d.sendsFrame (1 - p) job.turn, lastSend := some d.clk.bounds } := by
  rw [frameSendDone_sent hp sent left, held]
  exact if_neg (by simp [stub, gone])

end Send

/-- Settles O43: a frame from below by how far it has come and by its checks; one in the pipe by whether its turn is still open; the own frame by its
queue and its recoding; a port by what it would send next; a job by whether its last word has left. -/
theorem framesFromBelowAndOut : Obligations.FramesFromBelowAndOut := by
  refine ⟨?below, ?out⟩
  case below =>
    intro s j i ov r pipe items o rest hj
    have head {d : Dev} (h : frameHeadReceive j s.dev = d) : exec (.frameHeadReceive j) s = .next (withDev s d) := onDev_port frameHeadReceive hj h
    have tail {d : Dev} (h : frameTailReceive j s.dev = d) : exec (.frameTailReceive j) s = .next (withDev s d) := onDev_port frameTailReceive hj h
    have recodes {ov : Bool} {d : Dev} (h : recodeDone j ov s.dev = d) : exec (.recodeDone j ov) s = .next (withDev s d) :=
      onDev_port (fun j => recodeDone j ov) hj h
    refine ⟨fun rx => ⟨head (frameHeadReceive_none rx), tail (frameTailReceive_none rx)⟩, ?head, fun rx body part => tail (frameTailReceive_incomplete rx body part),
      ?tail, fun empty => recodes (recodeDone_empty ov empty), ?pipe, fun closed => onDev_eq (ownFrameSplice_none closed), ?own⟩
    case head =>
      intro rx atHead
      exact ⟨fun short => ⟨head (frameHeadReceive_waits rx (.inr short)), tail (frameTailReceive_headWaits rx atHead short)⟩,
        fun whole other => head ((frameHeadReceive_noHead rx atHead whole other).trans (rejectRx_some rx 4)),
        fun whole turnHead => ⟨fun passes => head (frameHeadReceive_passes rx atHead whole turnHead passes),
          fun fails => head ((frameHeadReceive_fails rx atHead whole turnHead fails).trans (discardRx_some rx i))⟩⟩
    case tail =>
      intro rx body whole
      exact ⟨fun raw => tail (frameTailReceive_spliced rx body whole raw), fun recode good first => tail (frameTailReceive_piped rx body whole recode good first)⟩
    case pipe =>
      intro oldest
      refine ⟨fun refused => recodes ((recodeDone_refused oldest ov refused).trans (spliceRx_refused _ _ _ refused)),
        fun spliced => ⟨recodes ((recodeDone_spliced oldest true spliced).trans ?_), recodes (recodeDone_spliced oldest false spliced)⟩⟩
      rw [recodeChoice_overflow]
      rfl
    case own =>
      intro oldest
      refine ⟨fun gone => onDev_eq (ownFrameSplice_gone oldest gone), fun takes raw => onDev_eq ((ownFrameSplice_takes oldest takes).trans ?_),
        fun takes recode overflow => onDev_eq ((ownFrameSplice_takes oldest takes).trans ?_),
        fun takes recode fits => onDev_eq ((ownFrameSplice_takes oldest takes).trans ?_)⟩
      · rw [raw]
        rfl
      · rw [recode, overflow, recodeChoice_overflow]
        rfl
      · rw [recode, fits]
        rfl
  case out =>
    intro s p t x job hp
    have starts {d : Dev} (h : frameSendStartF (32767 + 1) p s.dev = d) : exec (.frameSendStart p) s = .next (withDev s d) :=
      onDev_eq ((frameSendStart_step s.dev hp).trans h)
    exact ⟨fun h => starts (frameSendStartF_none _ h), fun free next held => starts (frameSendStartF_first _ free next held),
      fun free next held sent => starts (frameSendStartF_replay _ free next held sent),
      fun clean good => ⟨frameToSend_clean false clean good, frameToSend_clean true clean good, fun i => sendCounter_good i good⟩,
      fun free next => starts (frameSendStartF_stub _ free next), fun idle => onDev_eq (frameSendDone_idle hp idle),
      fun sends left => onDev_eq (frameSendDone_sends hp sends left),
      fun sent left => ⟨fun h => onDev_eq (frameSendDone_forgets hp sent left h), fun stub gone held => onDev_eq (frameSendDone_waits hp sent left stub gone held)⟩⟩

end Sys2Proof.Machine

/-! The turn queues: acknowledgements, verdicts and give-ups from above, and marks, rewinds and forced give-ups from this side (R225 to R230, R234, R238,
R239, R243, R267, R293). -/

namespace Sys2Proof.Machine

open Sys2Proof.Safety

/-! ### A descriptor is written (R225, R393) -/

/-- What a flip leaves in a unit draws free values at most. -/
theorem flipOutcome_free (fam : Nat) (parity : Bool) (dm cm : Nat) (d : Dev) : ∃ free, (flipOutcome fam parity dm cm d).2 = { d with free := free } := by
  unfold flipOutcome drawFree
  dsimp only
  split_ifs <;> exact ⟨_, rfl⟩

/-- A write of units touches their marks, free values and the register that arms the flip, in which it clears ARM at most. -/
theorem unitsWritten_touches (fam : Nat) (us : List Nat) (d : Dev) : ∃ ram free,
    (unitsWritten fam us d).2 = { d with ram := ram, free := free } ∨
    (unitsWritten fam us d).2 = { d.put F.MEM_FLIP_CTRL_ARM 0 with ram := ram, free := free } := by
  have step := unmark_step fam us d
  unfold MemSt.unmarked at step
  unfold unitsWritten
  rw [step]
  dsimp only
  split
  · exact ⟨_, _, .inl rfl⟩
  · split
    · exact ⟨_, _, .inl rfl⟩
    · obtain ⟨free, drawn⟩ := flipOutcome_free fam false _ _ _
      split
      · exact ⟨_, free, .inr drawn⟩
      · rw [drawn]
        exact ⟨_, free, .inr rfl⟩

theorem descWritten_tq (i : Nat) (d : Dev) : (descWritten i d).tq = d.tq := by
  unfold descWritten
  obtain ⟨ram, free, plain | disarmed⟩ := unitsWritten_touches 5 [2 * i, 2 * i + 1] d
  · rw [plain]
  · rw [disarmed, Dev.put_tq]

theorem descWritten_get (i : Nat) (d : Dev) {f : FRef} (h : f.key ≠ F.MEM_FLIP_CTRL_ARM.key) : (descWritten i d).get f = d.get f := by
  unfold descWritten
  obtain ⟨ram, free, plain | disarmed⟩ := unitsWritten_touches 5 [2 * i, 2 * i + 1] d
  · rw [plain]
    rfl
  · rw [disarmed]
    exact Dev.get_put_ne d _ _ _ h

theorem putDesc_tq (d : Dev) (i : Nat) (x : TQueue) : (d.putDesc i x).tq = { d.tq with q := kset d.tq.q i x } := descWritten_tq i _

theorem freeQueue_tq (i : Nat) (d : Dev) : (freeQueue i d).tq = { d.tq with q := kdel d.tq.q i } := descWritten_tq i _

theorem queue_putDesc (d : Dev) (i : Nat) (x : TQueue) : (d.putDesc i x).queue i = some x := by
  rw [Dev.queue, putDesc_tq, kfind_kset_self]

theorem queue_freeQueue (i : Nat) (d : Dev) : (freeQueue i d).queue i = none := by
  rw [Dev.queue, freeQueue_tq]
  exact kfind_filter_none _ _ _ (fun _ => by simp)

/-! ### Link control bodies (R229, R230, R293) -/

/-- A link control body as one 64-bit word. -/
def controlWord (body : List Word) : Word64 := BitVec.ofNat 64 ((wordAt body 0).toNat * 2 ^ 32 + (wordAt body 1).toNat)

section Control

variable {p : Nat} {body : List Word} {d : Dev}

theorem controlBody_ack (kind : wbits (controlWord body) 63 60 = 1) :
    controlBody p body d = (bodyTurns (controlWord body)).foldl (fun d t => ackTurn t d) d := by
  unfold controlWord at kind ⊢
  simp only [controlBody, kind]

theorem controlBody_accept (kind : wbits (controlWord body) 63 60 = 2) :
    controlBody p body d = (bodyTurns (controlWord body)).foldl (fun d t => verdictTurn 1 t d) d := by
  unfold controlWord at kind ⊢
  simp only [controlBody, kind]

theorem controlBody_reject (kind : wbits (controlWord body) 63 60 = 3) :
    controlBody p body d = (bodyTurns (controlWord body)).foldl (fun d t => verdictTurn 2 t d) d := by
  unfold controlWord at kind ⊢
  simp only [controlBody, kind]

theorem controlBody_giveUp (hp : p < 2) (kind : wbits (controlWord body) 63 60 = 4) : controlBody p body d = portGiveUp p d := by
  unfold controlWord at kind
  simp only [controlBody, kind, Nat.mod_eq_of_lt hp]

theorem controlBody_unknown (kind : wbits (controlWord body) 63 60 = 0) : controlBody p body d = d := by
  unfold controlWord at kind
  simp only [controlBody, kind]

variable (hp : p < 2) (active : d.get (F.LNK_LANE_STATUS_STAGE (4 * p)) = 5)

include hp active

theorem controlIn_good (two : body.length = 2) : controlIn p body true .none d = controlBody p body d := by
  unfold controlIn
  rw [Nat.mod_eq_of_lt hp, shortIn_active _ _ active, two]
  exact if_pos rfl

theorem controlIn_badCrc : controlIn p body false .none d = count1 (R.LNK_LANE_COUNT (4 * p) 3) d := by
  unfold controlIn
  rw [Nat.mod_eq_of_lt hp, shortIn_active _ _ active]
  rfl

end Control

/-! ### A SENT turn is released (R226, R230, R246) -/

section Release

variable {d : Dev} {t : Nat} {x : TQueue}

/-- The block with a turn off the replays of every port. -/
def unreplayed (t : Nat) (d : Dev) : Dev :=
  { d with tq := { d.tq with up := d.tq.up.map (fun u => { u with replay := u.replay.filter (· != t) }) } }

theorem not_mem_unreplayed (t : Nat) (d : Dev) : ∀ u ∈ (unreplayed t d).tq.up, t ∉ u.replay := by
  intro u hu
  obtain ⟨v, -, rfl⟩ := List.mem_map.1 hu
  simp

theorem releaseSent_held (i : Nat) (kept : d.is F.TQ_CFG_RETAIN = true ∨ d.pinned x.turn = true) :
    releaseSent i x d = (unreplayed x.turn d).putDesc i { x with st := .held } :=
  if_pos (Bool.or_eq_true_iff.2 kept)

theorem releaseSent_free (i : Nat) (retain : d.is F.TQ_CFG_RETAIN = false) (pinned : d.pinned x.turn = false) :
    releaseSent i x d = freeQueue i (unreplayed x.turn d) :=
  if_neg (by
    show ¬ (d.is F.TQ_CFG_RETAIN || d.pinned x.turn) = true
    rw [retain, pinned]
    decide)

/-- However a SENT turn is released, its ports are those of which none replays it. -/
theorem releaseSent_up (i : Nat) (x : TQueue) (d : Dev) : (releaseSent i x d).tq.up = (unreplayed x.turn d).tq.up := by
  unfold releaseSent
  dsimp only
  split
  · rw [putDesc_tq]
    rfl
  · rw [freeQueue_tq]
    rfl

theorem ackTurn_sent (held : d.holding t = some x) (sent : x.st = .sent) : ackTurn t d =
    releaseSent (qIndex t) x { d with tq := { d.tq with newestAck := some (max (d.tq.newestAck.getD t) t) } } := by
  unfold ackTurn
  rw [held]
  refine (if_pos (beq_iff_eq.2 sent)).trans ?_
  cases d.tq.newestAck with
  | some m => rfl
  | none => simp

theorem ackTurn_free (free : d.holding t = none) : ackTurn t d = count1 (R.TQ_COUNT 5) d := by
  unfold ackTurn
  rw [free]

theorem ackTimeout_free (free : d.holding t = none) : ackTimeout t d = d := by
  unfold ackTimeout
  rw [free]

/-- ACK_WAIT decides on a SENT turn that has left (R230). -/
theorem ackTimeout_sent {since : Nat} (held : d.holding t = some x) (sent : x.st = .sent) (last : x.lastSend = some since) (left : x.inflight = false) :
    ackTimeout t d = if since + d.get F.TQ_CFG_ACK_WAIT ≤ d.clk.bounds then releaseSent (qIndex t) x (count1 (R.TQ_COUNT 4) d) else d := by
  unfold ackTimeout
  simp only [held, last, sent, left, beq_self_eq_true, Bool.not_false, Bool.true_and, decide_eq_true_eq]

end Release

/-! ### Verdicts (R228, R230) -/

section Verdict

variable {d : Dev} {t : Nat} {x : TQueue}

theorem verdictTurn_free (v : Nat) (free : d.holding t = none) : verdictTurn v t d = count1 (R.TQ_COUNT 6) d := by
  unfold verdictTurn
  rw [free]

theorem verdictTimeout_free (free : d.holding t = none) : verdictTimeout t d = d := by
  unfold verdictTimeout
  rw [free]

theorem actVerdict_accept (i : Nat) (d : Dev) (accept : x.verdict = 1) : actVerdict i x d = d.putDesc i x :=
  if_neg (by simp [accept])

theorem actVerdict_reject (i : Nat) (closed : x.st = .closed) (reject : x.verdict = 2) (pinned : d.pinned x.turn = false) :
    actVerdict i x d = freeQueue i d :=
  (if_pos (by rw [closed, reject]; rfl)).trans (if_neg (Bool.eq_false_iff.1 pinned))

/-- VERDICT_DEFAULT = SEND accepts a turn. -/
theorem defaultAction_send (x : TQueue) (send : d.is F.TQ_CFG_VERDICT_DEFAULT = true) :
    defaultAction x d = ({ x with verdict := 1 }, raiseOnce E.TQ_DEFAULT_ACTION [] (count1 (R.TQ_COUNT 8) d)) := by
  unfold defaultAction
  rw [send]
  rfl

variable (held : d.holding t = some x) (policy : d.verdictPolicy = true) (closed : x.st = .closed) (open_ : x.verdict = 0)

include held policy closed open_

/-- A closed turn without a verdict takes the one that arrives. -/
theorem verdictTurn_closed (v : Nat) : verdictTurn v t d = actVerdict (qIndex t) { x with verdict := v } d := by
  unfold verdictTurn
  rw [held]
  exact if_pos (by rw [policy, closed, open_]; rfl)

/-- VERDICT_LIMIT decides on a closed turn without a verdict. -/
theorem verdictTimeout_closed : verdictTimeout t d =
    if x.closedAt + d.get F.TQ_LIMITS_VERDICT_LIMIT ≤ d.clk.bounds then actVerdict (qIndex t) (defaultAction x d).1 (defaultAction x d).2 else d := by
  have waits : awaitsVerdict x d = true := by
    unfold awaitsVerdict
    rw [policy, closed, open_]
    rfl
  unfold verdictTimeout
  simp only [held, waits, Bool.true_and, decide_eq_true_eq]

end Verdict

/-! ### Pages, credit and forced give-ups (R232, R243) -/

theorem reclaim_enough {d : Dev} (h : 256 ≤ d.freePages) : reclaim d = d := if_neg (Nat.not_lt.2 h)

theorem reclaim_short {d : Dev} (h : d.freePages < 256) : reclaim d = (reclaimFrom d.candidates d).1 := if_pos h

theorem creditTimeout_waits {d : Dev} {p : Nat} (hp : p < 2) (h : (d.upPort p).waitTurns < 4) : creditTimeout p d = d := by
  unfold creditTimeout
  rw [Nat.mod_eq_of_lt hp]
  exact if_neg (Nat.not_le.2 h)

theorem creditTimeout_met {d : Dev} {p : Nat} (hp : p < 2) (h : 4 ≤ (d.upPort p).waitTurns) : creditTimeout p d = portGiveUp p d := by
  unfold creditTimeout
  rw [Nat.mod_eq_of_lt hp]
  exact if_pos h

theorem Dev.upPort_setUpPort_self (d : Dev) {p : Nat} (u : UpPort) (h : p < d.tq.up.length) : (d.setUpPort p u).upPort p = u := by
  simp [Dev.upPort, h]

/-- Ports come from the turn queues alone. -/
theorem Dev.upPort_congr {d e : Dev} (p : Nat) (h : e.tq = d.tq) : e.upPort p = d.upPort p := by simp [Dev.upPort, h]

theorem forceGiveUp_port {d : Dev} {p : Nat} (hp : p < 2) : forceGiveUp (1 + p) d = portGiveUp p d := by
  obtain rfl | rfl : p = 0 ∨ p = 1 := by omega
  · rfl
  · rfl

/-- A first trigger on a port that carries frames or stands by is noted with its turn. -/
theorem portGiveUp_first {d : Dev} {p : Nat} (state : d.upState p = 1 ∨ d.upState p = 2) (first : (d.upPort p).gaveUp = none) (hp : p < d.tq.up.length) :
    (portGiveUp p d).upPort p = { d.upPort p with hit := true, gaveUp := some d.clk.bounds } := by
  have length (u : UpPort) : p < (d.setUpPort p u).tq.up.length := by simpa using hp
  have met : ((d.upState p == 1 || d.upState p == 2) && (d.upPort p).gaveUp.isNone) = true := by
    rw [first]
    simpa using state
  unfold portGiveUp
  refine (congrArg (Dev.upPort · p) (if_pos met)).trans ?_
  rw [Dev.upPort_congr p (count1_tq _ _), Dev.upPort_setUpPort_self _ _ (length _), Dev.upPort_setUpPort_self _ _ hp]
  rfl

/-! ### Operands in registers (R14, R15, R234, R238) -/

/-- A row whose low n bits software writes at will, and no others (R15). -/
structure RegRow.Low (n : Nat) (r : RegRow) : Prop where
  low : r.rw = 2 ^ n - 1
  sh : r.sh = 0
  w1c : r.w1c = 0
  w1s : r.w1s = 0
  cnt : r.cnt = false

theorem fieldsWord_low {n : Nat} {r : RegRow} (w v : Word) (h : r.Low n) (hn : n ≤ 32) : (fieldsWord r w v).toNat % 2 ^ n = v.toNat % 2 ^ n := by
  apply Nat.eq_of_testBit_eq
  intro i
  rw [Nat.testBit_mod_two_pow, Nat.testBit_mod_two_pow]
  by_cases hi : i < n
  · have same := bit_fieldsWord r w v (b := i) (by omega)
    simp only [h.low, h.w1c, h.w1s, Nat.testBit_two_pow_sub_one, hi, decide_true, Nat.zero_testBit, Bool.false_and, Bool.false_eq_true, if_false, if_true,
      bit_eq_getLsbD] at same
    rw [BitVec.testBit_toNat, BitVec.testBit_toNat, same]
  · simp [hi]

theorem evOnly_writeFields (r : RegRow) (k : Nat) (v : Word) (d : Dev) (h : r.sh = 0) : EvOnly d (writeFields r k v d) := by
  rw [writeFields_plain r k v d h]
  split
  · exact EvOnly.refl d
  · exact evOnly_setReg d k _

/-- A register of the turn queues that is no command, and whose low n bits software writes. -/
structure TqOperand (n k : Nat) : Prop where
  block : k / 65536 = 8
  plain : ∀ v d, commandWrite k v d = none
  row : ∃ r, regRow k = some r ∧ r.Low n
  le : n ≤ 32

theorem tqOperand_markLo : TqOperand 32 R.TQ_MARK_TARGET_LO := ⟨rfl, fun _ _ => rfl, ⟨_, rfl, rfl, rfl, rfl, rfl, rfl⟩, by decide⟩
theorem tqOperand_markHi : TqOperand 16 R.TQ_MARK_TARGET_HI := ⟨rfl, fun _ _ => rfl, ⟨_, rfl, rfl, rfl, rfl, rfl, rfl⟩, by decide⟩
theorem tqOperand_firstLo : TqOperand 32 R.TQ_REWIND_FIRST_LO := ⟨rfl, fun _ _ => rfl, ⟨_, rfl, rfl, rfl, rfl, rfl, rfl⟩, by decide⟩
theorem tqOperand_firstHi : TqOperand 16 R.TQ_REWIND_FIRST_HI := ⟨rfl, fun _ _ => rfl, ⟨_, rfl, rfl, rfl, rfl, rfl, rfl⟩, by decide⟩
theorem tqOperand_count : TqOperand 16 R.TQ_REWIND_COUNT := ⟨rfl, fun _ _ => rfl, ⟨_, rfl, rfl, rfl, rfl, rfl, rfl⟩, by decide⟩

/-- No register of the turn queues is absent or guarded by the DMA's worlds. -/
theorem tqKey_reached {k : Nat} (d : Dev) (block : k / 65536 = 8) : d.absentKey k = false ∧ dmaKey k d = some k := by
  unfold Dev.absentKey dmaKey
  simp [block]

/-- An operand register takes the word written to it, and no other register changes. -/
theorem writeReg_operand {n k : Nat} (v : Word) (s : State) (h : TqOperand n k) : ∃ d, writeReg k v s = withDev s d ∧ EvOnly s.dev d ∧
    (d.reg k).toNat % 2 ^ n = v.toNat % 2 ^ n ∧ ∀ j, j ≠ k → d.reg j = s.dev.reg j := by
  obtain ⟨block, plain, ⟨r, row, low⟩, le⟩ := h
  obtain ⟨present, key⟩ := tqKey_reached s.dev block
  have job : k ≠ R.CMP_JOB_CMD := by
    rintro rfl
    exact absurd block (by decide)
  obtain ⟨word, others, -⟩ := writeFields_effect r k v s.dev low.sh
  refine ⟨_, writeReg_fields present key job (plain v s.dev) row low.cnt, evOnly_writeFields r k v s.dev low.sh, ?_, others⟩
  rw [word, fieldsWord_low _ v low le]

theorem toWord_toNat {n : Nat} (h : n < 2 ^ 32) : (toWord n).toNat = n := Nat.mod_eq_of_lt h

theorem bits_low (w : Word) (n : Nat) : bits w n 0 = w.toNat % 2 ^ (n + 1) := rfl

/-- A number that fits the low bits of a word is read back from them. -/
theorem bits_toWord {n v : Nat} (hn : n < 32) (hv : v < 2 ^ (n + 1)) : bits (toWord v) n 0 = v := by
  rw [bits_low, toWord_toNat (hv.trans_le (Nat.pow_le_pow_right (by decide) hn))]
  exact Nat.mod_eq_of_lt hv

/-- A turn number written to its two registers is read back. -/
theorem writeReg_turn {lo hi n : Nat} (hlo : TqOperand 32 lo) (hhi : TqOperand 16 hi) (ne : lo ≠ hi) (s : State) (hn : n < 2 ^ 48) :
    ∃ d, writeReg hi (toWord (n % turnMod / 2 ^ 32)) (writeReg lo (toWord n) s) = withDev s d ∧ EvOnly s.dev d ∧ d.turnReg lo hi = n := by
  obtain ⟨d, wroteLo, evLo, lowWord, -⟩ := writeReg_operand (toWord n) s hlo
  obtain ⟨e, wroteHi, evHi, highWord, kept⟩ := writeReg_operand (toWord (n % turnMod / 2 ^ 32)) (withDev s d) hhi
  refine ⟨e, by rw [wroteLo, wroteHi]; rfl, evLo.trans evHi, ?_⟩
  have low : (e.reg lo).toNat = n % 2 ^ 32 := by
    have cut : (e.reg lo).toNat % 2 ^ 32 = (toWord n).toNat % 2 ^ 32 := by rw [kept lo ne]; exact lowWord
    rwa [Nat.mod_eq_of_lt (e.reg lo).isLt, Nat.mod_eq_of_lt (toWord n).isLt] at cut
  have high : bits (e.reg hi) 15 0 = n / 2 ^ 32 := by
    rw [bits_low, highWord, Nat.mod_eq_of_lt (show n < turnMod from hn), toWord_toNat (by omega)]
    omega
  rw [Dev.turnReg, high, low]
  omega

/-- A write of a command of the turn queues. -/
theorem writeReg_tqCommand {k : Nat} {v : Word} {s : State} {d : Dev} (block : k / 65536 = 8) (command : commandWrite k v s.dev = some d) :
    writeReg k v s = withDev s d := by
  obtain ⟨present, key⟩ := tqKey_reached s.dev block
  have job : (k == R.CMP_JOB_CMD) = false := by
    rw [beq_eq_false_iff_ne]
    rintro rfl
    exact absurd block (by decide)
  unfold writeReg
  simp only [present, key, job, command, Bool.false_eq_true, if_false]
  rfl

/-! ### Marks (R234) -/

section Mark

variable {d : Dev} {n : Nat}

/-- The block with a change of the mark that waits for the boundary. -/
def markWaits (m : Option Nat) (d : Dev) : Dev := { d.put F.TQ_MARK_STATUS_RESULT 0 with tq := { d.tq with markNext := some m } }

theorem markSet_near (low : d.clk.turn ≤ n + 32767) (high : n ≤ d.clk.turn + 32767) : markSet n d = (markWaits (some n) d, 0) := by
  unfold markSet
  simp only [low, high, decide_true, Bool.and_true, if_true]
  rfl

theorem markSet_far (far : ¬ (d.clk.turn ≤ n + 32767 ∧ n ≤ d.clk.turn + 32767)) : markSet n d = (d.put F.TQ_MARK_STATUS_RESULT 5, 5) := by
  have ok : (decide (d.clk.turn ≤ n + 32767) && decide (n ≤ d.clk.turn + 32767)) = false := by simpa using far
  unfold markSet
  simp only [ok, Bool.false_eq_true, if_false]

theorem markSet_clk (n : Nat) (d : Dev) : (markSet n d).1.clk = d.clk := by
  unfold markSet
  dsimp only
  split <;> rfl

end Mark

/-- The registers of MARK_SET: the target, then MARK_CMD. -/
theorem exec_markSet_regs {n : Nat} (s : State) (hn : n < 2 ^ 48) : ∃ d, EvOnly s.dev d ∧ exec (.markSet none n) s = .next (withDev s (markSet n d).1) := by
  obtain ⟨d, wrote, ev, target⟩ := writeReg_turn tqOperand_markLo tqOperand_markHi (by decide) s hn
  have run : exec (.markSet none n) s =
    .next (writeReg R.TQ_MARK_CMD 1 (writeReg R.TQ_MARK_TARGET_HI (toWord (n % turnMod / 2 ^ 32)) (writeReg R.TQ_MARK_TARGET_LO (toWord n) s))) := rfl
  have command : commandWrite R.TQ_MARK_CMD 1 d = some (markSet (d.turnReg R.TQ_MARK_TARGET_LO R.TQ_MARK_TARGET_HI) d).1 := rfl
  refine ⟨d, ev, ?_⟩
  rw [target] at command
  rw [run, wrote, writeReg_tqCommand rfl command]
  rfl

theorem exec_markSet_msg {c : MsgCtx} {n : Nat} {s : State} (hn : n < 2 ^ 48) (a : Accepted 0x0602 c (1 :: hiLo n) s) : exec (.markSet (some c) n) s =
    .next (answer 0x0602 c (markSet n s.dev).2 [] (withDev s (markSet n s.dev).1)) := by
  have run : exec (.markSet (some c) n) s = .next (direct 0x0602 c (1 :: hiLo (n % turnMod)) s) := rfl
  have marks : message 0x0602 c (1 :: hiLo n) s = plainMsg (markSet (turnOf (toWord (n / 2 ^ 32)) (toWord n))) s := rfl
  rw [turnOf_hiLo n hn] at marks
  rw [run, Nat.mod_eq_of_lt (show n < turnMod from hn)]
  exact congrArg Host.Outcome.next (direct_answer a rfl marks)

theorem exec_markClear_regs (s : State) : exec (.markClear none) s = .next (withDev s (markWaits none s.dev)) := by
  have command : commandWrite R.TQ_MARK_CMD 2 s.dev = some (markWaits none s.dev) := rfl
  exact congrArg Host.Outcome.next (writeReg_tqCommand rfl command)

theorem exec_markClear_msg {c : MsgCtx} {s : State} (a : Accepted 0x0602 c [2, 0, 0] s) : exec (.markClear (some c)) s =
    .next (answer 0x0602 c 0 [] (withDev s (markWaits none s.dev))) :=
  congrArg Host.Outcome.next (direct_answer a rfl rfl)

/-! ### Requests for a rewind (R238) -/

/-- COUNT of a rewind as it counts: 0 stands for 32 768. -/
def rewindTurns (k : Nat) : Nat := if k = 0 then 32768 else k

/-- Turns that a rewind may name: closed ones, no more and no older than the queues hold (R238). -/
def Dev.rewindable (d : Dev) (n turns : Nat) : Prop :=
  turns ≤ 32768 ∧ d.clk.turn ≤ n + 32767 ∧ ∃ m, d.tq.newestClosed = some m ∧ n + turns ≤ m + 1

section Rewind

variable {d : Dev} {n turns : Nat}

/-- The block with a rewind behind those that wait. -/
def rewindQueued (n turns : Nat) (d : Dev) : Dev :=
  { d.put F.TQ_REWIND_STATUS_RESULT 0 with tq := { d.tq with rewinds := d.tq.rewinds ++ [{ next := n, left := turns }] } }

theorem rewindRequest_outside (out : ¬ d.rewindable n turns) : rewindRequest n turns d = (d.put F.TQ_REWIND_STATUS_RESULT 5, 5) := by
  unfold rewindRequest
  cases newest : d.tq.newestClosed with
  | none => simp
  | some m =>
    have ok : (decide (1 ≤ turns) && decide (turns ≤ 32768) && decide (d.clk.turn ≤ n + 32767) && decide (n + turns ≤ m + 1)) = false := by
      rw [Bool.eq_false_iff]
      intro all
      simp only [Bool.and_eq_true, decide_eq_true_eq] at all
      obtain ⟨⟨⟨-, le⟩, near⟩, closed⟩ := all
      exact out ⟨le, near, m, newest, closed⟩
    simp only [ok]
    rfl

variable (pos : 1 ≤ turns) (ok : d.rewindable n turns)

include pos ok

theorem rewindRequest_queued (room : d.tq.rewinds.length < 4) : rewindRequest n turns d = (rewindQueued n turns d, 0) := by
  obtain ⟨le, near, m, newest, closed⟩ := ok
  unfold rewindRequest
  simp only [newest, pos, le, near, closed, Nat.not_le.2 room, decide_true, Bool.and_true, Bool.not_true, Bool.false_eq_true, if_false]
  rfl

theorem rewindRequest_busy (full : 4 ≤ d.tq.rewinds.length) : rewindRequest n turns d = (d.put F.TQ_REWIND_STATUS_RESULT 1, 1) := by
  obtain ⟨le, near, m, newest, closed⟩ := ok
  unfold rewindRequest
  simp only [newest, pos, le, near, closed, full, decide_true, Bool.and_true, Bool.not_true, Bool.false_eq_true, if_false, if_true]
  rfl

end Rewind

theorem rewindRequest_clk (n turns : Nat) (d : Dev) : (rewindRequest n turns d).1.clk = d.clk := by
  unfold rewindRequest
  exact (apply_ite Dev.clk _ _ _).trans (ite_self _)

theorem rewindTurns_pos (k : Nat) : 1 ≤ rewindTurns k := by
  unfold rewindTurns
  split <;> omega

/-- COUNT as its field holds it. -/
theorem rewindTurns_count {w : Word} {k : Nat} (count : bits w 15 0 = k) :
    (if bits w 15 0 == 0 then 32768 else bits w 15 0) = rewindTurns k := by
  rw [count]
  exact if_congr beq_iff_eq rfl rfl

/-- The registers of a REWIND: the first turn and the count, then REWIND_CMD. -/
theorem exec_rewind_regs {n k : Nat} (s : State) (hn : n < 2 ^ 48) (hk : k < 65536) :
    ∃ d, EvOnly s.dev d ∧ exec (.rewind none n k) s = .next (withDev s (rewindRequest n (rewindTurns k) d).1) := by
  obtain ⟨d, wrote, evFirst, first⟩ := writeReg_turn tqOperand_firstLo tqOperand_firstHi (by decide) s hn
  obtain ⟨e, counted, evCount, word, kept⟩ := writeReg_operand (toWord (k % 65536)) (withDev s d) tqOperand_count
  have run : exec (.rewind none n k) s = .next (writeReg R.TQ_REWIND_CMD 1 (writeReg R.TQ_REWIND_COUNT (toWord (k % 65536))
    (writeReg R.TQ_REWIND_FIRST_HI (toWord (n % turnMod / 2 ^ 32)) (writeReg R.TQ_REWIND_FIRST_LO (toWord n) s)))) := rfl
  have turn : e.turnReg R.TQ_REWIND_FIRST_LO R.TQ_REWIND_FIRST_HI = n := by
    rw [Dev.turnReg, kept _ (by decide), kept _ (by decide)]
    exact first
  have count : bits (e.reg R.TQ_REWIND_COUNT) 15 0 = k := by
    rw [bits_low, word, Nat.mod_eq_of_lt hk]
    exact bits_toWord (by decide) hk
  have command : commandWrite R.TQ_REWIND_CMD 1 e = some (rewindRequest (e.turnReg R.TQ_REWIND_FIRST_LO R.TQ_REWIND_FIRST_HI)
    (if bits (e.reg R.TQ_REWIND_COUNT) 15 0 == 0 then 32768 else bits (e.reg R.TQ_REWIND_COUNT) 15 0) e).1 := rfl
  rw [turn, rewindTurns_count count] at command
  refine ⟨e, evFirst.trans evCount, ?_⟩
  rw [run, wrote, counted, writeReg_tqCommand rfl command]
  rfl

theorem exec_rewind_msg {c : MsgCtx} {n k : Nat} {s : State} (hn : n < 2 ^ 48) (hk : k < 65536) (a : Accepted 0x0603 c (hiLo n ++ [toWord k]) s) :
    exec (.rewind (some c) n k) s = .next (answer 0x0603 c (rewindRequest n (rewindTurns k) s.dev).2 [] (withDev s (rewindRequest n (rewindTurns k) s.dev).1)) := by
  have run : exec (.rewind (some c) n k) s = .next (direct 0x0603 c (hiLo (n % turnMod) ++ [toWord (k % 65536)]) s) := rfl
  have asks : message 0x0603 c (hiLo n ++ [toWord k]) s = plainMsg (rewindRequest (turnOf (toWord (n / 2 ^ 32)) (toWord n))
    (if bits (toWord k) 15 0 == 0 then 32768 else bits (toWord k) 15 0)) s := rfl
  rw [turnOf_hiLo n hn, rewindTurns_count (bits_toWord (by decide) hk)] at asks
  rw [run, Nat.mod_eq_of_lt (show n < turnMod from hn), Nat.mod_eq_of_lt hk]
  exact congrArg Host.Outcome.next (direct_answer a rfl asks)

/-! ### Forced give-ups, by message and by register (R243) -/

theorem exec_giveUp_regs {f : Nat} (s : State) (hf : f < 4) : exec (.giveUp none f) s = .next (withDev s (forceGiveUp f s.dev)) := by
  have run : exec (.giveUp none f) s = .next (writeReg R.TQ_UP_CMD (toWord (f % 4)) s) := rfl
  have command (v : Word) : commandWrite R.TQ_UP_CMD v s.dev = some (forceGiveUp (bits v 1 0) s.dev) := rfl
  rw [run, Nat.mod_eq_of_lt hf, writeReg_tqCommand rfl (command _), bits_toWord (by decide) hf]

theorem exec_giveUp_msg {c : MsgCtx} {f : Nat} {s : State} (hf : f < 4) (a : Accepted 0x0605 c [toWord f] s) : exec (.giveUp (some c) f) s =
    .next (answer 0x0605 c 0 [] (withDev s (forceGiveUp f s.dev))) := by
  have run : exec (.giveUp (some c) f) s = .next (direct 0x0605 c [toWord (f % 4)] s) := rfl
  have forces : message 0x0605 c [toWord f] s = plainMsg (fun d => (forceGiveUp (bits (toWord f) 1 0) d, 0)) s := rfl
  rw [bits_toWord (by decide) hf] at forces
  rw [run, Nat.mod_eq_of_lt hf]
  exact congrArg Host.Outcome.next (direct_answer a rfl forces)

/-! ### A rewound turn leaves (R231, R238, R239, R267) -/

section RewindSend

variable {d : Dev} {r : RewindReq} {rest : List RewindReq} {x : TQueue}

/-- The requests that are left once a turn of the first has left. -/
def rewindLeft (r : RewindReq) (rest : List RewindReq) : List RewindReq :=
  if r.left ≤ 1 then rest else { next := turnAdd r.next 1, left := r.left - 1 } :: rest

/-- The block once the next rewound turn is taken up. -/
def rewindTaken (r : RewindReq) (rest : List RewindReq) (d : Dev) : Dev :=
  { d.put F.TQ_REWIND_STATUS_CURRENT r.next with tq := { d.tq with rewinds := rewindLeft r rest } }

/-- The words of a rewound frame as RW_VERIFY leaves them, its failures counted (R267). -/
def rewindChecked (ws : List Word64) (d : Dev) : List Word64 × Dev :=
  if d.is F.CMP_CFG_RW_VERIFY then
    ((verifyFrame d.jobCap ws).1, if (verifyFrame d.jobCap ws).2 == 0 then d
      else raiseOnce E.CMP_VERIFY_FAIL [] (count (R.CMP_COUNT 6) (verifyFrame d.jobCap ws).2 d))
  else (ws, d)

/-- The port with a job whose blocks are decoded as they leave. -/
def jobVerified (p : Nat) (d : Dev) : Dev :=
  d.setUpPort p { d.upPort p with job := (d.upPort p).job.map (fun j => { j with verify := d.is F.CMP_CFG_RW_VERIFY }) }

/-- The block once a rewound turn is INFLIGHT through port p and counted. -/
def rewindSent (p : Nat) (r : RewindReq) (rest : List RewindReq) (x : TQueue) (d : Dev) : Dev :=
  count1 (R.TQ_COUNT (sendCounter 2 x)) (rewindTaken r rest (d.putDesc (qIndex r.next) { x with inflight := true, sentOnce := true, viaUB := p == 1 }))

/-- The block with the words of a rewound frame as the job of a port. -/
def rewindStarted (p : Nat) (r : RewindReq) (rest : List RewindReq) (x : TQueue) (ws : List Word64) (d : Dev) : Dev :=
  jobVerified p (startJob p r.next .rewind ws (rewindSent p r rest x d))

/-- What port p does with the frame of a rewound turn once its pips are granted. -/
def rewindFrame (p : Nat) (r : RewindReq) (rest : List RewindReq) (x : TQueue) (d : Dev) : Dev :=
  let y := frameToSend x true d
  let v := rewindChecked y.1.1 y.2
  rewindStarted p r rest y.1.2 v.1 v.2

theorem rewindSend_nothing (h : d.tq.rewinds = []) : rewindSend d = d := by
  unfold rewindSend
  rw [h]

variable (waits : d.tq.rewinds = r :: rest)

include waits

theorem rewindSend_uncarried (h0 : d.carriesTurn 0 r.next = false) (h1 : d.carriesTurn 1 r.next = false) : rewindSend d = d := by
  unfold rewindSend
  simp [waits, h0, h1]

variable (carries : d.carriesTurn 0 r.next = true)

include carries

theorem rewindSend_behind (busy : (d.upPort 0).job.isSome = true ∨ (nextSend 0 d).isSome = true) : rewindSend d = d := by
  have first : ((d.upPort 0).job.isSome || (nextSend 0 d).isSome) = true := Bool.or_eq_true_iff.2 busy
  unfold rewindSend
  simp [waits, carries, first]

variable (idle : (d.upPort 0).job = none) (alone : nextSend 0 d = none)

include idle alone

theorem rewindSend_gone (free : d.holding r.next = none) :
    rewindSend d = startJob 0 r.next .gone (stubFrame r.next true d) (count1 (R.TQ_COUNT 3) (rewindTaken r rest d)) := by
  unfold rewindSend
  simp [waits, carries, idle, alone, free, rewindTaken, rewindLeft]

theorem rewindSend_held (held : d.holding r.next = some x) (closed : x.st ≠ .open_) : rewindSend d =
    withPips (if d.reservoir then 0 else 1) 5 (rewindPips (8 * x.words.length) d) (rewindFrame 0 r rest x) d := by
  have found : [0, 1].find? (fun p => d.carriesTurn p r.next) = some 0 := List.find?_cons_of_pos carries
  have shut : (x.st == .open_) = false := beq_eq_false_iff_ne.2 closed
  unfold rewindSend
  simp only [waits, found, idle, alone, held, shut, Option.isSome_none, Bool.or_self, Bool.false_eq_true, if_false]
  rfl

end RewindSend

/-! ### The job of a rewound turn (R225, R239, R267) -/

section RewindJob

variable {d : Dev} {p : Nat} {r : RewindReq} {rest : List RewindReq} {x : TQueue} {ws : List Word64}

theorem rewindChecked_words (ws : List Word64) (d : Dev) :
    (rewindChecked ws d).1 = if d.is F.CMP_CFG_RW_VERIFY then (verifyFrame d.jobCap ws).1 else ws := apply_ite Prod.fst _ _ _

/-- The check of a rewound frame touches what an event touches. -/
theorem evOnly_rewindChecked (ws : List Word64) (d : Dev) : EvOnly d (rewindChecked ws d).2 := by
  unfold rewindChecked
  split
  · dsimp only
    split
    · exact EvOnly.refl d
    · exact (evOnly_count _ _ _).trans (evOnly_raiseOnce _ _ _)
  · exact EvOnly.refl d

theorem rewindChecked_rwVerify (ws : List Word64) (d : Dev) : (rewindChecked ws d).2.get F.CMP_CFG_RW_VERIFY = d.get F.CMP_CFG_RW_VERIFY := by
  unfold rewindChecked
  split
  · dsimp only
    split
    · rfl
    · rw [raiseOnce_get _ _ _ _ (by decide) (by decide), count_get _ _ _ _ (by decide) (by decide)]
  · rfl

/-- The frame of a rewound turn without poisoned words leaves as it stands but for REPLAY and what RW_VERIFY does. -/
theorem rewindFrame_clean (clean : d.ram.faulty = []) (good : x.bad = []) : rewindFrame p r rest x d =
    rewindStarted p r rest x (rewindChecked (asReplay x.words) d).1 (rewindChecked (asReplay x.words) d).2 := by
  unfold rewindFrame
  rw [frameToSend_clean true clean good]
  rfl

theorem startJob_job (t : Nat) (k : SendKind) (ws : List Word64) (hp : p < d.tq.up.length) :
    ((startJob p t k ws d).upPort p).job = some { turn := t, kind := k, left := ws } := by
  unfold startJob
  rw [Dev.upPort_setUpPort_self _ _ hp]

theorem jobVerified_job {j : SendJob} (hp : p < d.tq.up.length) (sends : (d.upPort p).job = some j) :
    ((jobVerified p d).upPort p).job = some { j with verify := d.is F.CMP_CFG_RW_VERIFY } := by
  unfold jobVerified
  rw [Dev.upPort_setUpPort_self _ _ hp, sends]
  rfl

theorem rewindSent_tq : (rewindSent p r rest x d).tq = { d.tq with
    q := kset d.tq.q (qIndex r.next) { x with inflight := true, sentOnce := true, viaUB := p == 1 }, rewinds := rewindLeft r rest } := by
  unfold rewindSent rewindTaken
  rw [count1_tq, putDesc_tq]

/-- A send counts with its own counter or with GONE, number 3. -/
theorem sendCounter_le {i : Nat} (x : TQueue) (hi : i ≤ 3) : sendCounter i x ≤ 3 := by
  unfold sendCounter
  split <;> omega

theorem rewindSent_rwVerify : (rewindSent p r rest x d).get F.CMP_CFG_RW_VERIFY = d.get F.CMP_CFG_RW_VERIFY := by
  have block : R.TQ_COUNT (sendCounter 2 x) / 65536 = 8 := by
    have := sendCounter_le x (show 2 ≤ 3 by decide)
    unfold R.TQ_COUNT
    omega
  unfold rewindSent
  rw [count1_get _ _ _ (by rw [block]; decide) (by decide)]
  have taken (e : Dev) : (rewindTaken r rest e).get F.CMP_CFG_RW_VERIFY = e.get F.CMP_CFG_RW_VERIFY := Dev.get_put_ne e _ _ _ (by decide)
  rw [taken]
  exact descWritten_get _ _ (by decide)

theorem rewindStarted_job (hp : p < d.tq.up.length) : ((rewindStarted p r rest x ws d).upPort p).job =
    some { turn := r.next, kind := .rewind, left := ws, verify := d.is F.CMP_CFG_RW_VERIFY } := by
  have length : p < (rewindSent p r rest x d).tq.up.length := by rwa [rewindSent_tq]
  have same : (startJob p r.next .rewind ws (rewindSent p r rest x d)).is F.CMP_CFG_RW_VERIFY = d.is F.CMP_CFG_RW_VERIFY :=
    congrArg (· == 1) rewindSent_rwVerify
  unfold rewindStarted
  rw [jobVerified_job (by simpa [startJob] using length) (startJob_job _ _ _ length), same]

theorem rewindStarted_rewinds : (rewindStarted p r rest x ws d).tq.rewinds = rewindLeft r rest := by
  have rewinds : (rewindStarted p r rest x ws d).tq.rewinds = (rewindSent p r rest x d).tq.rewinds := rfl
  rw [rewinds, rewindSent_tq]

theorem rewindStarted_queue : (rewindStarted p r rest x ws d).queue (qIndex r.next) =
    some { x with inflight := true, sentOnce := true, viaUB := p == 1 } := by
  have queue : (rewindStarted p r rest x ws d).queue (qIndex r.next) = kfind (rewindSent p r rest x d).tq.q (qIndex r.next) := rfl
  rw [queue, rewindSent_tq, kfind_kset_self]

end RewindJob

/-- What an event touches does not decide on a rewind. -/
theorem Dev.rewindable_evOnly {d e : Dev} {n turns : Nat} (ev : EvOnly d e) : e.rewindable n turns ↔ d.rewindable n turns := by
  unfold Dev.rewindable
  rw [ev.clk, ev.tq]

/-- A field written with a value that fits reads as the value. -/
theorem Dev.get_put_fits (d : Dev) {f : FRef} {v : Nat} (h : f.hi < 32) (hl : f.lo ≤ f.hi) (hv : v < 2 ^ (f.hi + 1 - f.lo)) : (d.put f v).get f = v :=
  (Dev.get_put_self d f v h hl).trans (Nat.mod_eq_of_lt hv)

/-- Settles O44: a link control body by its kind; a turn by the queue that holds it and the time it has waited; a mark and a rewind by the one request
that message and registers make; a rewound turn by what else waits on its port, by its queue and by its pips. -/
theorem queueStates : Obligations.QueueStates := by
  refine ⟨?fromAbove, ?fromHere⟩
  case fromAbove =>
    intro s p t since body x hp two active
    have control {d : Dev} (h : controlBody p body s.dev = d) : onDev (controlIn p body true .none) s = .next (withDev s d) :=
      onDev_eq ((controlIn_good hp active two).trans h)
    refine ⟨⟨fun kind => control (controlBody_ack kind), fun kind => control (controlBody_accept kind), fun kind => control (controlBody_reject kind),
        fun kind => control (controlBody_giveUp hp kind), fun kind => control (controlBody_unknown kind), onDev_eq (controlIn_badCrc hp active)⟩,
      ?ack, ?released, ?free, ?verdict, fun enough => onDev_eq (reclaim_enough enough), fun short => onDev_eq (reclaim_short short),
      fun waits => onDev_eq (creditTimeout_waits hp waits), fun met => onDev_eq (creditTimeout_met hp met)⟩
    case ack =>
      intro held sent _
      exact ⟨ackTurn_sent held sent, fun last left => ⟨fun due => onDev_eq ((ackTimeout_sent held sent last left).trans (if_pos due)),
        fun early => onDev_eq ((ackTimeout_sent held sent last left).trans (if_neg (Nat.not_le.2 early)))⟩⟩
    case released =>
      rintro rfl
      refine ⟨?_, fun kept => ?_, fun retain pinned => ?_⟩
      · rw [releaseSent_up]
        exact not_mem_unreplayed x.turn s.dev
      · rw [releaseSent_held _ kept, queue_putDesc]
      · rw [releaseSent_free _ retain pinned, queue_freeQueue]
    case free =>
      intro free
      exact ⟨ackTurn_free free, fun v => verdictTurn_free v free, onDev_eq (ackTimeout_free free), onDev_eq (verdictTimeout_free free)⟩
    case verdict =>
      intro held policy closed none
      have timeout := verdictTimeout_closed held policy closed none
      refine ⟨(verdictTurn_closed held policy closed none 1).trans (actVerdict_accept _ _ rfl),
        fun pinned => (verdictTurn_closed held policy closed none 2).trans (actVerdict_reject _ closed rfl pinned),
        fun early => onDev_eq (timeout.trans (if_neg (Nat.not_le.2 early))), fun due send => onDev_eq ((timeout.trans (if_pos due)).trans ?_)⟩
      rw [defaultAction_send x send, actVerdict_accept _ _ rfl]
  case fromHere =>
    intro s c n k f p r rest x hn hf hp hk
    refine ⟨⟨?markNear, ?markFar, ?markRegs⟩, exec_markClear_regs s, exec_markClear_msg, ⟨?rewindMsg, ?rewindRegs⟩,
      fun h => onDev_eq (rewindSend_nothing h), fun waits h0 h1 => onDev_eq (rewindSend_uncarried waits h0 h1),
      fun waits carries busy => onDev_eq (rewindSend_behind waits carries busy), ?gone, ?held, exec_giveUp_regs s hf, exec_giveUp_msg hf, ?first, rfl⟩
    case markNear =>
      rintro ⟨low, high⟩ taken
      rw [exec_markSet_msg hn taken, markSet_near low high]
      rfl
    case markFar =>
      intro far taken
      rw [exec_markSet_msg hn taken, markSet_far far]
    case markRegs =>
      obtain ⟨d, ev, run⟩ := exec_markSet_regs s hn
      refine ⟨_, run, (markSet_clk n d).trans ev.clk, fun ⟨low, high⟩ => ?_, fun far => ?_⟩
      · rw [← ev.clk] at low high
        rw [markSet_near low high, ← ev.tq]
        exact ⟨rfl, Dev.get_put_fits d (by decide) (by decide) (by decide)⟩
      · rw [← ev.clk] at far
        rw [markSet_far far, ← ev.tq]
        exact ⟨rfl, Dev.get_put_fits d (by decide) (by decide) (by decide)⟩
    case rewindMsg =>
      intro taken
      rw [exec_rewind_msg hn hk taken]
      refine ⟨fun ok room => ?_, fun ok full => ?_, fun out => ?_⟩
      · rw [rewindRequest_queued (rewindTurns_pos k) ok room]
        rfl
      · rw [rewindRequest_busy (rewindTurns_pos k) ok full]
      · rw [rewindRequest_outside (turns := rewindTurns k) out]
    case rewindRegs =>
      obtain ⟨d, ev, run⟩ := exec_rewind_regs s hn hk
      have same : d.rewindable n (rewindTurns k) ↔ s.dev.rewindable n (rewindTurns k) := Dev.rewindable_evOnly ev
      refine ⟨_, run, (rewindRequest_clk _ _ d).trans ev.clk, fun ok room => ?_, fun ok full => ?_, fun out => ?_⟩
      · rw [← ev.tq] at room
        rw [rewindRequest_queued (rewindTurns_pos k) (same.2 ok) room, ← ev.tq]
        exact ⟨rfl, Dev.get_put_fits d (by decide) (by decide) (by decide)⟩
      · rw [← ev.tq] at full
        rw [rewindRequest_busy (rewindTurns_pos k) (same.2 ok) full, ← ev.tq]
        exact ⟨rfl, Dev.get_put_fits d (by decide) (by decide) (by decide)⟩
      · rw [rewindRequest_outside (fun ok => out (same.1 ok)), ← ev.tq]
        exact ⟨rfl, Dev.get_put_fits d (by decide) (by decide) (by decide)⟩
    case gone =>
      intro waits carries idle alone free last
      have left : rewindLeft r rest = rest := if_pos last.le
      refine onDev_eq ((rewindSend_gone waits carries idle alone free).trans ?_)
      rw [rewindTaken, left]
    case held =>
      intro waits carries idle alone held closed
      have sends := rewindSend_held waits carries idle alone held closed
      refine ⟨fun short => onDev_eq (sends.trans (withPips_waits short)), fun paid clean good port => ?_⟩
      have started := (sends.trans (withPips_paid paid)).trans (rewindFrame_clean clean good)
      exact ⟨_, _, onDev_eq started, rewindStarted_job (by rw [(evOnly_rewindChecked _ _).tq]; exact port), rfl, rfl,
        congrArg (· == 1) (rewindChecked_rwVerify _ _), rewindChecked_words _ _, rewindStarted_rewinds, rewindStarted_queue⟩
    case first =>
      intro state first port
      rw [forceGiveUp_port hp]
      exact portGiveUp_first state first port

end Sys2Proof.Machine

/-! Decompression: the commands of a job, by JOB_CMD and by DECOMPRESS, and what comes of the block that a running job reads (R7, R264 to R266). -/

namespace Sys2Proof.Machine

open Sys2Proof.Safety

/-! ### Commands of a job (R264, R266) -/

section JobCommand

variable {d : Dev} {k : Nat}

/-- The block with a job that runs from the beginning: no progress and nothing to pass over. -/
def jobStarted (d : Dev) : Dev :=
  ((((({ d with tq := { d.tq with skip := false } }.setReg R.CMP_JOB_IN_DONE 0).setReg R.CMP_JOB_OUT_DONE 0).setReg R.CMP_JOB_BLOCKS 0).put
    F.CMP_JOB_STATUS_CMD_RESULT 0).put F.CMP_JOB_STATUS_STATE 1).put F.CMP_JOB_STATUS_RESULT 0

/-- The block with a stopped job that runs on, its output anew. -/
def jobResumed (skip : Bool) (d : Dev) : Dev :=
  (({ d with tq := { d.tq with skip := skip } }.setReg R.CMP_JOB_OUT_DONE 0).put F.CMP_JOB_STATUS_CMD_RESULT 0).put F.CMP_JOB_STATUS_STATE 1

/-- CMD_RESULT stands beside STATE. -/
theorem jobState_put_cmdResult (v : Nat) (d : Dev) : (d.put F.CMP_JOB_STATUS_CMD_RESULT v).jobState = d.jobState :=
  Dev.get_put_field d _ _ v (by decide) (by decide) (by decide)

theorem jobStart_idle (idle : d.jobState = 0) : jobStart d = (jobStarted d, 0) := if_neg (by simp [idle])

theorem jobStart_busy (busy : d.jobState ≠ 0) : jobStart d = (d.put F.CMP_JOB_STATUS_CMD_RESULT 1, 1) := if_pos (by simpa using busy)

theorem jobResume_running (skip : Bool) (running : d.jobState = 1) : jobResume skip d = (d.put F.CMP_JOB_STATUS_CMD_RESULT 1, 1) :=
  if_pos (by simp [running])

theorem jobResume_idle (skip : Bool) (idle : d.jobState = 0) : jobResume skip d = (d.put F.CMP_JOB_STATUS_CMD_RESULT 0, 0) := by
  simp [jobResume, idle]

theorem jobResume_stopped (skip : Bool) (stopped : d.jobState = 2) : jobResume skip d = (jobResumed skip d, 0) := by
  simp [jobResume, jobResumed, stopped]

theorem jobAbort_running (running : d.jobState = 1) : jobAbort d = (jobStop 6 (d.put F.CMP_JOB_STATUS_CMD_RESULT 0), 0) := by
  simp [jobAbort, jobState_put_cmdResult, running]

theorem jobAbort_stopped (stopped : d.jobState = 2) :
    jobAbort d = (((d.put F.CMP_JOB_STATUS_CMD_RESULT 0).put F.CMP_JOB_STATUS_RESULT 6).put F.CMP_JOB_STATUS_STATE 0, 0) := by
  simp [jobAbort, jobState_put_cmdResult, stopped]

theorem jobAbort_idle (idle : d.jobState = 0) : jobAbort d = (d.put F.CMP_JOB_STATUS_CMD_RESULT 0, 0) := by
  simp [jobAbort, jobState_put_cmdResult, idle]

/-- The registers that a START or a RESUME writes. -/
def jobProgress : List Nat := [R.CMP_JOB_IN_DONE, R.CMP_JOB_OUT_DONE, R.CMP_JOB_BLOCKS, F.CMP_JOB_STATUS_STATE.key]

theorem jobStarted_reg (other : k ∉ jobProgress) : (jobStarted d).reg k = d.reg k := by
  simp only [jobProgress, List.mem_cons, List.not_mem_nil, or_false, not_or] at other
  obtain ⟨inDone, outDone, blocks, status⟩ := other
  unfold jobStarted
  rw [Dev.reg_put_ne _ F.CMP_JOB_STATUS_RESULT _ status, Dev.reg_put_ne _ _ _ status, Dev.reg_put_ne _ F.CMP_JOB_STATUS_CMD_RESULT _ status,
    Dev.reg_setReg_ne _ _ blocks, Dev.reg_setReg_ne _ _ outDone, Dev.reg_setReg_ne _ _ inDone]
  rfl

theorem jobResumed_reg (skip : Bool) (outDone : k ≠ R.CMP_JOB_OUT_DONE) (status : k ≠ F.CMP_JOB_STATUS_STATE.key) :
    (jobResumed skip d).reg k = d.reg k := by
  unfold jobResumed
  rw [Dev.reg_put_ne _ _ _ status, Dev.reg_put_ne _ F.CMP_JOB_STATUS_CMD_RESULT _ status, Dev.reg_setReg_ne _ _ outDone]
  rfl

/-- A job that was started runs, with OK as its results and no progress. -/
theorem jobStarted_progress (d : Dev) : (jobStarted d).jobState = 1 ∧ (jobStarted d).get F.CMP_JOB_STATUS_RESULT = 0 ∧
    (jobStarted d).get F.CMP_JOB_STATUS_CMD_RESULT = 0 ∧ (jobStarted d).reg R.CMP_JOB_IN_DONE = 0 ∧ (jobStarted d).reg R.CMP_JOB_OUT_DONE = 0 ∧
    (jobStarted d).reg R.CMP_JOB_BLOCKS = 0 := by
  unfold jobStarted
  refine ⟨?state, Dev.get_put_fits _ (by decide) (by decide) (by decide), ?cmdResult, ?inDone, ?outDone, ?blocks⟩
  case state =>
    rw [Dev.jobState, Dev.get_put_field _ _ _ _ (by decide) (by decide) (by decide)]
    exact Dev.get_put_fits _ (by decide) (by decide) (by decide)
  case cmdResult =>
    rw [Dev.get_put_field _ _ _ _ (by decide) (by decide) (by decide), Dev.get_put_field _ _ _ _ (by decide) (by decide) (by decide)]
    exact Dev.get_put_fits _ (by decide) (by decide) (by decide)
  all_goals rw [Dev.reg_put_ne _ _ _ (by decide), Dev.reg_put_ne _ _ _ (by decide), Dev.reg_put_ne _ _ _ (by decide)]
  case inDone => rw [Dev.reg_setReg_ne _ _ (by decide), Dev.reg_setReg_ne _ _ (by decide), Dev.reg_setReg_self]
  case outDone => rw [Dev.reg_setReg_ne _ _ (by decide), Dev.reg_setReg_self]
  case blocks => exact Dev.reg_setReg_self _ _ _

theorem jobResumed_state (skip : Bool) (d : Dev) : (jobResumed skip d).jobState = 1 := Dev.get_put_fits _ (by decide) (by decide) (by decide)

theorem jobResumed_outDone (skip : Bool) (d : Dev) : (jobResumed skip d).reg R.CMP_JOB_OUT_DONE = 0 := by
  unfold jobResumed
  rw [Dev.reg_put_ne _ _ _ (by decide), Dev.reg_put_ne _ _ _ (by decide), Dev.reg_setReg_self]

theorem jobStarted_keeps (d : Dev) : (jobStarted d).live = d.live ∧ (jobStarted d).ev = d.ev := ⟨rfl, rfl⟩

theorem jobResumed_keeps (skip : Bool) (d : Dev) :
    (jobResumed skip d).tq = { d.tq with skip := skip } ∧ (jobResumed skip d).live = d.live ∧ (jobResumed skip d).ev = d.ev := ⟨rfl, rfl, rfl⟩

/-- A write of JOB_CMD is the command of its fields. -/
theorem writeReg_jobCmd (v : Word) {s : State} (present : s.dev.absentKey R.CMP_JOB_CMD = false) :
    writeReg R.CMP_JOB_CMD v s = withDev s (jobCmd (bits v 1 0) (bit v 2) s.dev).1 := by
  have key : dmaKey R.CMP_JOB_CMD s.dev = some R.CMP_JOB_CMD := rfl
  unfold writeReg
  simp only [present, key, Bool.false_eq_true, if_false]
  rfl

/-- The JOB_CMD words are the commands that they name. -/
theorem jobCmd_start (d : Dev) : jobCmd (bits (toWord 1) 1 0) (bit (toWord 1) 2) d = jobStart d := rfl

theorem jobCmd_abort (d : Dev) : jobCmd (bits (toWord 3) 1 0) (bit (toWord 3) 2) d = jobAbort d := rfl

theorem jobCmd_resume (skip : Bool) (d : Dev) :
    jobCmd (bits (toWord (2 + 4 * b2n skip)) 1 0) (bit (toWord (2 + 4 * b2n skip)) 2) d = jobResume skip d := by
  cases skip <;> rfl

end JobCommand

/-! ### The commands by registers -/

section JobRegisters

variable {s t : State} {w : List Word}

theorem exec_jobStart_regs (written : putRegs (forRegs jobRegs w) s = t) (present : t.dev.absentKey R.CMP_JOB_CMD = false) :
    exec (.jobStart none w) s = .next (withDev t (jobStart t.dev).1) := by
  subst written
  exact congrArg Host.Outcome.next (writeReg_jobCmd (toWord 1) present)

theorem exec_jobResume_regs (skip : Bool) (written : putRegs (forRegs jobRegs w) s = t) (present : t.dev.absentKey R.CMP_JOB_CMD = false) :
    exec (.jobResume none w skip) s = .next (withDev t (jobResume skip t.dev).1) := by
  subst written
  have run := writeReg_jobCmd (toWord (2 + 4 * b2n skip)) present
  rw [jobCmd_resume] at run
  exact congrArg Host.Outcome.next run

theorem exec_jobAbort_regs (written : putRegs (forRegs jobRegs w) s = t) (present : t.dev.absentKey R.CMP_JOB_CMD = false) :
    exec (.jobAbort none w) s = .next (withDev t (jobAbort t.dev).1) := by
  subst written
  exact congrArg Host.Outcome.next (writeReg_jobCmd (toWord 3) present)

end JobRegisters

/-! ### The commands by DECOMPRESS (R7, R264) -/

section Decompress

variable {w : List Word} {d : Dev}

/-- Input and output address of a DECOMPRESS payload. -/
def jobSrc (w : List Word) : Nat := bits (wordAt w 0) 7 0 * 2 ^ 32 + (wordAt w 1).toNat / 8 * 8
def jobDst (w : List Word) : Nat := bits (wordAt w 3) 7 0 * 2 ^ 32 + (wordAt w 4).toNat / 8 * 8

/-- The payload names a secure address. -/
def Dev.jobSecure (d : Dev) (w : List Word) : Prop :=
  d.rangeSecure (jobSrc w) (wordAt w 2).toNat false = true ∨ d.rangeSecure (jobDst w) (wordAt w 5).toNat true = true

/-- The payload names an address in an SDRAM that does not work. -/
def Dev.jobMissing (d : Dev) (w : List Word) : Prop :=
  d.sdramMissing (jobSrc w) (wordAt w 2).toNat = true ∨ d.sdramMissing (jobDst w) (wordAt w 5).toNat = true

/-- A word written to a register that holds the bits of a mask. -/
def Dev.setMasked (d : Dev) (k m : Nat) (v : Word) : Dev := d.setReg k (toWord (v.toNat &&& m))

/-- The block with the job registers as a DECOMPRESS payload gives them. -/
def jobNamed (w : List Word) (d : Dev) : Dev :=
  ((((((d.setMasked R.CMP_JOB_IN_HI 0xFF (wordAt w 0)).setMasked R.CMP_JOB_IN_LO 0xFFFFFFF8 (wordAt w 1)).setMasked R.CMP_JOB_IN_LEN 0xFFFFFFF8
    (wordAt w 2)).setMasked R.CMP_JOB_OUT_HI 0xFF (wordAt w 3)).setMasked R.CMP_JOB_OUT_LO 0xFFFFFFF8 (wordAt w 4)).setMasked R.CMP_JOB_OUT_SPACE
    0xFFFFFFF8 (wordAt w 5)).setMasked R.CMP_JOB_CAP 0x1FFF (wordAt w 6)

theorem mDecompress_secure (secure : d.jobSecure w) : mDecompress w d = (d, 3) :=
  if_pos (Bool.or_eq_true _ _ ▸ secure)

theorem mDecompress_missing (plain : ¬ d.jobSecure w) (missing : d.jobMissing w) : mDecompress w d = (d, 4) :=
  (if_neg (Bool.or_eq_true _ _ ▸ plain)).trans (if_pos (Bool.or_eq_true _ _ ▸ missing))

/-- START and RESUME take the job registers from the payload where they have an effect. -/
theorem mDecompress_acts (plain : ¬ d.jobSecure w) (there : ¬ d.jobMissing w)
    (acts : bits (wordAt w 7) 1 0 = 1 ∧ d.jobState = 0 ∨ bits (wordAt w 7) 1 0 = 2 ∧ d.jobState = 2) :
    mDecompress w d = jobCmd (bits (wordAt w 7) 1 0) (bit (wordAt w 7) 2) (jobNamed w d) := by
  refine ((if_neg (Bool.or_eq_true _ _ ▸ plain)).trans (if_neg (Bool.or_eq_true _ _ ▸ there))).trans ?_
  exact congrArg (jobCmd _ _) (if_pos (by simpa using acts))

theorem mDecompress_inert (plain : ¬ d.jobSecure w) (there : ¬ d.jobMissing w)
    (inert : ¬ (bits (wordAt w 7) 1 0 = 1 ∧ d.jobState = 0 ∨ bits (wordAt w 7) 1 0 = 2 ∧ d.jobState = 2)) :
    mDecompress w d = jobCmd (bits (wordAt w 7) 1 0) (bit (wordAt w 7) 2) d := by
  refine ((if_neg (Bool.or_eq_true _ _ ▸ plain)).trans (if_neg (Bool.or_eq_true _ _ ▸ there))).trans ?_
  exact congrArg (jobCmd _ _) (if_neg (by simpa using inert))

end Decompress

/-! ### Job registers and their masks -/

section JobOperands

theorem toWord_masked (v : Word) (m : Nat) : (toWord (v.toNat &&& m)).toNat = v.toNat &&& m :=
  toWord_toNat (Nat.and_le_left.trans_lt v.isLt)

/-- The low byte of an address register. -/
theorem bits_masked_byte (v : Word) : bits (toWord (v.toNat &&& 0xFF)) 7 0 = bits v 7 0 := by
  rw [bits_low, bits_low, toWord_masked, Nat.and_two_pow_sub_one_eq_mod v.toNat 8, Nat.mod_mod]

/-- A register without its low three bits counts as many bytes in whole words. -/
theorem words_masked {x v : Word} (masked : x = toWord (v.toNat &&& 0xFFFFFFF8)) : x.toNat / 8 * 8 = v.toNat / 8 * 8 := by
  have shifted : (v.toNat &&& 0xFFFFFFF8) >>> 3 = v.toNat >>> 3 &&& (2 ^ 29 - 1) := Nat.shiftRight_and_distrib
  have fits := v.isLt
  rw [masked, toWord_masked, ← Nat.shiftRight_eq_div_pow _ 3, shifted, Nat.and_two_pow_sub_one_eq_mod, Nat.shiftRight_eq_div_pow]
  omega

/-- The job registers of `d` name what a DECOMPRESS payload names. -/
def Dev.JobOf (d : Dev) (w : List Word) : Prop :=
  d.jobIn = jobSrc w ∧ d.jobOut = jobDst w ∧ d.jobLen = (wordAt w 2).toNat / 8 * 8 ∧ d.jobSpace = (wordAt w 5).toNat / 8 * 8

variable {w : List Word} {d e : Dev}

/-- A job address held in registers that mask its two words. -/
theorem jobAddr_masked {lo hi : Nat} {a b : Word} (low : d.reg lo = toWord (a.toNat &&& 0xFFFFFFF8)) (high : d.reg hi = toWord (b.toNat &&& 0xFF)) :
    d.jobAddr lo hi = bits b 7 0 * 2 ^ 32 + a.toNat / 8 * 8 := by
  rw [Dev.jobAddr, high, bits_masked_byte, words_masked low]

theorem Dev.setMasked_self (d : Dev) (k m : Nat) (v : Word) : (d.setMasked k m v).reg k = toWord (v.toNat &&& m) := Dev.reg_setReg_self _ _ _

theorem Dev.setMasked_ne (d : Dev) {k j : Nat} (m : Nat) (v : Word) (h : j ≠ k) : (d.setMasked k m v).reg j = d.reg j := Dev.reg_setReg_ne _ _ h

theorem jobNamed_job (w : List Word) (d : Dev) : (jobNamed w d).JobOf w := by
  unfold jobNamed
  refine ⟨jobAddr_masked ?inLo ?inHi, jobAddr_masked ?outLo ?outHi, words_masked ?len, words_masked ?space⟩
  all_goals repeat rw [Dev.setMasked_ne _ _ _ (by decide)]
  all_goals exact Dev.setMasked_self _ _ _ _

/-- Registers other than those that a payload names stay. -/
theorem jobNamed_reg {k : Nat} (other : k ∉ jobRegs) : (jobNamed w d).reg k = d.reg k := by
  simp only [jobRegs, List.mem_cons, List.not_mem_nil, or_false, not_or] at other
  obtain ⟨inHi, inLo, len, outHi, outLo, space, cap⟩ := other
  unfold jobNamed
  rw [Dev.setMasked_ne _ _ _ cap, Dev.setMasked_ne _ _ _ space, Dev.setMasked_ne _ _ _ outLo, Dev.setMasked_ne _ _ _ outHi,
    Dev.setMasked_ne _ _ _ len, Dev.setMasked_ne _ _ _ inLo, Dev.setMasked_ne _ _ _ inHi]

theorem jobNamed_keeps (w : List Word) (d : Dev) : (jobNamed w d).tq = d.tq ∧ (jobNamed w d).live = d.live ∧ (jobNamed w d).ev = d.ev :=
  ⟨rfl, rfl, rfl⟩

theorem jobNamed_state (w : List Word) (d : Dev) : (jobNamed w d).jobState = d.jobState :=
  congrArg (bits · 31 30) (jobNamed_reg (by decide))

/-- A block that keeps the job registers keeps its job. -/
theorem Dev.JobOf.of_regs (job : d.JobOf w) (same : ∀ k ∈ jobRegs, e.reg k = d.reg k) : e.JobOf w := by
  unfold Dev.JobOf Dev.jobIn Dev.jobOut Dev.jobLen Dev.jobSpace Dev.jobAddr at *
  rwa [same _ (by decide), same _ (by decide), same _ (by decide), same _ (by decide), same _ (by decide), same _ (by decide)]

theorem jobStarted_job (job : d.JobOf w) : (jobStarted d).JobOf w :=
  job.of_regs fun k named => jobStarted_reg ((show ∀ k ∈ jobRegs, k ∉ jobProgress by decide) k named)

theorem jobResumed_job (skip : Bool) (job : d.JobOf w) : (jobResumed skip d).JobOf w :=
  job.of_regs fun k named => jobResumed_reg skip (fun h => absurd (h ▸ named) (by decide)) (fun h => absurd (h ▸ named) (by decide))

end JobOperands

/-! ### What a DECOMPRESS payload comes to -/

section JobMessages

variable {s : State} {c : MsgCtx} {w : List Word} {d : Dev} {k : Nat}

theorem wordAt_jobPayload (hw : w.length = 7) {i : Nat} (hi : i < 7) : wordAt (jobPayload w k) i = wordAt w i := by
  unfold jobPayload wordAt
  rw [List.take_of_length_le hw.le, List.getD_append _ _ _ _ (hw ▸ hi)]

theorem wordAt_jobPayload_cmd (hw : w.length = 7) : wordAt (jobPayload w k) 7 = toWord k := by
  unfold jobPayload wordAt
  rw [List.take_of_length_le hw.le, List.getD_append_right _ _ _ _ hw.le, hw]
  rfl

theorem jobSecure_jobPayload (hw : w.length = 7) : d.jobSecure (jobPayload w k) = d.jobSecure w := by
  simp only [Dev.jobSecure, jobSrc, jobDst, wordAt_jobPayload hw, Nat.reduceLT]

theorem jobMissing_jobPayload (hw : w.length = 7) : d.jobMissing (jobPayload w k) = d.jobMissing w := by
  simp only [Dev.jobMissing, jobSrc, jobDst, wordAt_jobPayload hw, Nat.reduceLT]

theorem jobNamed_jobPayload (hw : w.length = 7) : jobNamed (jobPayload w k) d = jobNamed w d := by
  simp only [jobNamed, wordAt_jobPayload hw, Nat.reduceLT]

theorem direct_decompress {st : Nat} (a : Accepted 0x0606 c (jobPayload w k) s) (h : mDecompress (jobPayload w k) s.dev = (d, st)) :
    direct 0x0606 c (jobPayload w k) s = answer 0x0606 c st [] (withDev s d) := by
  have run : message 0x0606 c (jobPayload w k) s = plainMsg (mDecompress (jobPayload w k)) s := rfl
  refine direct_answer a rfl ?_
  rw [run, plainMsg, devMsg, h]
  rfl

/-- OP of the three JOB_CMD words. -/
theorem bits_jobStart : bits (toWord 1) 1 0 = 1 := rfl
theorem bits_jobResume (skip : Bool) : bits (toWord (2 + 4 * b2n skip)) 1 0 = 2 := by cases skip <;> rfl
theorem bits_jobAbort : bits (toWord 3) 1 0 = 3 := rfl

section Payload

variable (hw : w.length = 7) (a : Accepted 0x0606 c (jobPayload w k) s)

include hw a

theorem direct_job_secure (secure : s.dev.jobSecure w) : direct 0x0606 c (jobPayload w k) s = answer 0x0606 c 3 [] s :=
  direct_decompress a (mDecompress_secure ((jobSecure_jobPayload hw).symm ▸ secure))

theorem direct_job_missing (plain : ¬ s.dev.jobSecure w) (missing : s.dev.jobMissing w) :
    direct 0x0606 c (jobPayload w k) s = answer 0x0606 c 4 [] s :=
  direct_decompress a (mDecompress_missing ((jobSecure_jobPayload hw).symm ▸ plain) ((jobMissing_jobPayload hw).symm ▸ missing))

variable {st : Nat} (plain : ¬ s.dev.jobSecure w) (there : ¬ s.dev.jobMissing w)

include plain there

theorem direct_job_acts (acts : bits (toWord k) 1 0 = 1 ∧ s.dev.jobState = 0 ∨ bits (toWord k) 1 0 = 2 ∧ s.dev.jobState = 2)
    (command : jobCmd (bits (toWord k) 1 0) (bit (toWord k) 2) (jobNamed w s.dev) = (d, st)) :
    direct 0x0606 c (jobPayload w k) s = answer 0x0606 c st [] (withDev s d) := by
  refine direct_decompress a ?_
  rw [← command, ← jobNamed_jobPayload hw, ← wordAt_jobPayload_cmd (k := k) hw]
  rw [← wordAt_jobPayload_cmd (k := k) hw] at acts
  exact mDecompress_acts ((jobSecure_jobPayload hw).symm ▸ plain) ((jobMissing_jobPayload hw).symm ▸ there) acts

theorem direct_job_inert (inert : ¬ (bits (toWord k) 1 0 = 1 ∧ s.dev.jobState = 0 ∨ bits (toWord k) 1 0 = 2 ∧ s.dev.jobState = 2))
    (command : jobCmd (bits (toWord k) 1 0) (bit (toWord k) 2) s.dev = (d, st)) :
    direct 0x0606 c (jobPayload w k) s = answer 0x0606 c st [] (withDev s d) := by
  refine direct_decompress a ?_
  rw [← command, ← wordAt_jobPayload_cmd (k := k) hw]
  rw [← wordAt_jobPayload_cmd (k := k) hw] at inert
  exact mDecompress_inert ((jobSecure_jobPayload hw).symm ▸ plain) ((jobMissing_jobPayload hw).symm ▸ there) inert

end Payload

section Commands

variable {st : Nat} {skip : Bool} (hw : w.length = 7) (plain : ¬ s.dev.jobSecure w) (there : ¬ s.dev.jobMissing w)

include hw plain there

theorem exec_jobStart_msg_idle (a : Accepted 0x0606 c (jobPayload w 1) s) (idle : s.dev.jobState = 0) :
    exec (.jobStart (some c) w) s = .next (answer 0x0606 c 0 [] (withDev s (jobStarted (jobNamed w s.dev)))) :=
  congrArg Host.Outcome.next (direct_job_acts hw a plain there (.inl ⟨bits_jobStart, idle⟩)
    ((jobCmd_start _).trans (jobStart_idle ((jobNamed_state w s.dev).trans idle))))

theorem exec_jobStart_msg_busy (a : Accepted 0x0606 c (jobPayload w 1) s) (busy : s.dev.jobState ≠ 0) :
    exec (.jobStart (some c) w) s = .next (answer 0x0606 c 1 [] (withDev s (s.dev.put F.CMP_JOB_STATUS_CMD_RESULT 1))) :=
  congrArg Host.Outcome.next (direct_job_inert hw a plain there (by simp [bits_jobStart, busy]) ((jobCmd_start _).trans (jobStart_busy busy)))

theorem exec_jobResume_msg_stopped (a : Accepted 0x0606 c (jobPayload w (2 + 4 * b2n skip)) s) (stopped : s.dev.jobState = 2) :
    exec (.jobResume (some c) w skip) s = .next (answer 0x0606 c 0 [] (withDev s (jobResumed skip (jobNamed w s.dev)))) :=
  congrArg Host.Outcome.next (direct_job_acts hw a plain there (.inr ⟨bits_jobResume skip, stopped⟩)
    ((jobCmd_resume skip _).trans (jobResume_stopped skip ((jobNamed_state w s.dev).trans stopped))))

theorem exec_jobResume_msg_other (a : Accepted 0x0606 c (jobPayload w (2 + 4 * b2n skip)) s) (other : s.dev.jobState ≠ 2)
    (command : jobResume skip s.dev = (d, st)) : exec (.jobResume (some c) w skip) s = .next (answer 0x0606 c st [] (withDev s d)) :=
  congrArg Host.Outcome.next (direct_job_inert hw a plain there (by simp [bits_jobResume, other]) ((jobCmd_resume skip _).trans command))

theorem exec_jobAbort_msg (a : Accepted 0x0606 c (jobPayload w 3) s) (command : jobAbort s.dev = (d, st)) :
    exec (.jobAbort (some c) w) s = .next (answer 0x0606 c st [] (withDev s d)) :=
  congrArg Host.Outcome.next (direct_job_inert hw a plain there (by simp [bits_jobAbort]) ((jobCmd_abort _).trans command))

end Commands

end JobMessages

/-! ### A block of a job (R264 to R266) -/

/-- Taking ct changes the budgets alone. -/
theorem takeAll_tq (a : Nat) (needs : List (Nat × Nat)) (d : Dev) : (takeAll a needs d).2.tq = d.tq := by
  have fold (f : Dev → Nat × Nat → BudAct) :
      ∀ (l : List (Nat × Nat)) (e : Dev), (l.foldl (fun e p => e.setBudAct p.1 a (f e p)) e).tq = e.tq := by
    intro l
    induction l with
    | nil => exact fun _ => rfl
    | cons p l ih => exact fun e => ih _
  unfold takeAll
  split
  · exact fold _ needs d
  · exact fold _ needs d

section JobBlock

variable {s : State} {corr unc : List Nat} {d d1 : Dev} {x src next raw : Nat} {full : Bool} {fail : Option BlockFail} {items out : List (List Word64)}

/-- What a running job reads next. -/
def jobRead (corr unc : List Nat) (s : State) : BlockRead × Dev :=
  readBlock s.mem corr unc (s.dev.jobIn + s.dev.jobLen) (s.dev.jobLen / 8 + 1) (s.dev.jobIn + s.dev.jobInDone) [] s.dev

/-- ct of reading the words up to `next` and writing n bytes behind the output of `d` so far. -/
def jobCost (s : State) (next : Nat) (d : Dev) (n : Nat) : List (Nat × Nat) :=
  jobNeeds (s.dev.jobIn + s.dev.jobInDone) (next - (s.dev.jobIn + s.dev.jobInDone)) (d.jobOut + d.jobOutDone) n s.dev

theorem jobEnds_waits {d0 : Dev} (waits : takeAll 4 (jobNeeds src (next - src) 0 0 d0) d0 = (false, d1)) : jobEnds x src next d0 d = d1 := by
  unfold jobEnds
  rw [waits]

theorem jobEnds_paid {d0 : Dev} (paid : takeAll 4 (jobNeeds src (next - src) 0 0 d0) d0 = (true, d1)) :
    jobEnds x src next d0 d = jobStop x { d with bud := d1.bud } := by
  unfold jobEnds
  rw [paid]

/-- The bytes that a decoded block stores: none where the space or a check before the CRC fails (R265). -/
def jobOutput (full : Bool) (fail : Option BlockFail) (out : List (List Word64)) : List Byte :=
  if full || !(fail == none || fail == some .crcFail) then [] else storedBytes out

/-- An address in each page that n bytes of output touch. -/
def jobPages (dst n : Nat) : List Nat := (List.range ((dst + n - 1) / 4096 - dst / 4096 + 1)).map (fun i => max dst ((dst / 4096 + i) * 4096))

/-- Whether the decompressor may write each of these pages; the first that it may not is reported. -/
def jobOpens (pages : List Nat) (d : Dev) : Bool × Dev :=
  pages.foldl (fun (acc : Bool × Dev) a => if acc.1 then jobAccess a true acc.2 else acc) (true, d)

/-- The block with one more block of the job counted (R266). -/
def jobCounted (next raw : Nat) (d : Dev) : Dev :=
  ((d.setReg R.CMP_JOB_IN_DONE (toWord (next - d.jobIn))).setReg R.CMP_JOB_OUT_DONE (toWord (d.jobOutDone + raw))).setReg
    R.CMP_JOB_BLOCKS (d.reg R.CMP_JOB_BLOCKS + 1)

/-- A block whose output stands in memory is kept with CRC_FAIL or counted; the last one ends the job. -/
def jobStored (stop next raw : Nat) (fail : Option BlockFail) (t : State) : State :=
  if fail == some .crcFail then withDev t (jobStop 3 t.dev)
  else withDev t (if stop ≤ next then jobStop 0 (jobCounted next raw t.dev) else jobCounted next raw t.dev)

/-- The output of a block that passed the checks before the CRC, in pages that may be written. -/
def jobStore (stop next raw dst : Nat) (fail : Option BlockFail) (bytes : List Byte) (s : State) (d : Dev) : State :=
  let opened := jobOpens (jobPages dst bytes.length) d
  if !opened.1 then withDev s (jobStop 7 opened.2)
  else jobStored stop next raw fail (writePages (bytes.length + 1) dst bytes (withDev s opened.2))

/-- The checks that stop the job on a block that was read and decoded, in their order, then its output (R265). -/
def jobDecoded (stop next raw dst : Nat) (full : Bool) (fail : Option BlockFail) (items : List (List Word64)) (bytes : List Byte) (s : State) (d : Dev) :
    State :=
  if !blockFraming items || fail == some .format then withDev s (jobStop 4 d)
  else if fail == some .expansion then withDev s (jobStop 2 d)
  else if full then withDev s (jobStop 1 d)
  else jobStore stop next raw dst fail bytes s d

/-- A block that was read, what it decodes to, and the state `d` after the reading: it waits for its ct, and is then checked. -/
def jobGranted (s : State) (items : List (List Word64)) (next : Nat) (d : Dev) (x : List (List Word64) × Nat × Bool × Option BlockFail) : State :=
  let bytes := jobOutput x.2.2.1 x.2.2.2 x.1
  let taken := takeAll 4 (jobCost s next d bytes.length) s.dev
  if taken.1 then
    jobDecoded (s.dev.jobIn + s.dev.jobLen) next x.2.1 (d.jobOut + d.jobOutDone) x.2.2.1 x.2.2.2 items bytes s { d with bud := taken.2.bud }
  else withDev s taken.2

/-- What a job does with what it read. -/
def jobActs (s : State) : BlockRead × Dev → State
  | (.end_ next, d) => withDev s (jobEnds 0 (s.dev.jobIn + s.dev.jobInDone) next s.dev d)
  | (.stop x next, d) => withDev s (jobEnds x (s.dev.jobIn + s.dev.jobInDone) next s.dev d)
  | (.block items next, d) => jobGranted s items next d (decodeBlock d.jobCap (d.jobSpace - d.jobOutDone) (blockBytes items))

/-- The reading of a block stands apart from what comes of it. The functions that compute are made variables first: to compare the two sides as they
stand, the kernel would run them. -/
theorem jobBlock_acts : jobBlock corr unc s = jobActs s (jobRead corr unc s) := by
  unfold jobRead
  conv_lhs => fun; fun; fun; delta jobBlock
  obtain ⟨reader, decoder, taker, upTo, isReader, isDecoder, isTaker, isUpTo⟩ :
      ∃ r d t u, r = readBlock ∧ d = decodeBlock ∧ t = takeAll ∧ u = List.range := ⟨_, _, _, _, rfl, rfl, rfl, rfl⟩
  rw [← isReader, ← isDecoder, ← isTaker, ← isUpTo]
  dsimp only
  generalize reader s.mem corr unc (s.dev.jobIn + s.dev.jobLen) (s.dev.jobLen / 8 + 1) (s.dev.jobIn + s.dev.jobInDone) [] s.dev = r
  obtain ⟨r, d⟩ := r
  cases r with
  | end_ next => rfl
  | stop x next => rfl
  | block items next =>
    unfold jobActs jobGranted jobDecoded jobStore jobStored jobOpens jobPages jobCost jobOutput
    rw [← isDecoder, ← isTaker, ← isUpTo]
    dsimp only
    generalize decoder d.jobCap (d.jobSpace - d.jobOutDone) (blockBytes items) = x
    generalize taker 4 _ s.dev = taken
    obtain ⟨granted, e⟩ := taken
    cases granted
    · rfl
    · rfl

/-- A job whose input is used up reads nothing. -/
theorem jobRead_used (used : s.dev.jobLen ≤ s.dev.jobInDone) : jobRead corr unc s = (.end_ (s.dev.jobIn + s.dev.jobInDone), s.dev) := by
  rw [jobRead, readBlock]
  exact if_pos (Nat.add_le_add_left used _)

theorem jobBlock_used (used : s.dev.jobLen ≤ s.dev.jobInDone) : jobBlock corr unc s = withDev s (jobStop 0 s.dev) := by
  have free : takeAll 4 (jobNeeds (s.dev.jobIn + s.dev.jobInDone) (s.dev.jobIn + s.dev.jobInDone - (s.dev.jobIn + s.dev.jobInDone)) 0 0 s.dev) s.dev =
      (true, s.dev) := by
    rw [Nat.sub_self]
    rfl
  rw [jobBlock_acts, jobRead_used used]
  exact congrArg (withDev s) (jobEnds_paid free)

section Granted

variable {bytes : List Byte} {stop dst : Nat} {d2 : Dev}

theorem jobGranted_waits (waits : takeAll 4 (jobCost s next d (jobOutput full fail out).length) s.dev = (false, d1)) :
    jobGranted s items next d (out, raw, full, fail) = withDev s d1 := by
  unfold jobGranted
  dsimp only
  rw [waits]
  rfl

theorem jobGranted_paid (paid : takeAll 4 (jobCost s next d (jobOutput full fail out).length) s.dev = (true, d1)) :
    jobGranted s items next d (out, raw, full, fail) = jobDecoded (s.dev.jobIn + s.dev.jobLen) next raw (d.jobOut + d.jobOutDone) full fail items
      (jobOutput full fail out) s { d with bud := d1.bud } := by
  unfold jobGranted
  dsimp only
  rw [paid]
  rfl

theorem jobDecoded_format (bad : blockFraming items = false ∨ fail = some .format) :
    jobDecoded stop next raw dst full fail items bytes s d = withDev s (jobStop 4 d) := if_pos (by simpa using bad)

theorem jobDecoded_expansion (framed : blockFraming items = true) :
    jobDecoded stop next raw dst full (some .expansion) items bytes s d = withDev s (jobStop 2 d) := by
  simp [jobDecoded, framed]

theorem jobDecoded_full (framed : blockFraming items = true) : jobDecoded stop next raw dst true none items bytes s d = withDev s (jobStop 1 d) := by
  simp [jobDecoded, framed]

theorem jobDecoded_kept (framed : blockFraming items = true) (kept : fail = none ∨ fail = some .crcFail) :
    jobDecoded stop next raw dst false fail items bytes s d = jobStore stop next raw dst fail bytes s d := by
  obtain rfl | rfl := kept
  · simp [jobDecoded, framed]
  · simp [jobDecoded, framed]

theorem jobStore_closed (closed : jobOpens (jobPages dst bytes.length) d = (false, d2)) :
    jobStore stop next raw dst fail bytes s d = withDev s (jobStop 7 d2) := by
  unfold jobStore
  rw [closed]
  rfl

theorem jobStore_open (opened : jobOpens (jobPages dst bytes.length) d = (true, d2)) :
    jobStore stop next raw dst fail bytes s d = jobStored stop next raw fail (writePages (bytes.length + 1) dst bytes (withDev s d2)) := by
  unfold jobStore
  rw [opened]
  rfl

theorem jobStored_crcFail (t : State) : jobStored stop next raw (some .crcFail) t = withDev t (jobStop 3 t.dev) := rfl

theorem jobStored_last (t : State) (last : stop ≤ next) :
    jobStored stop next raw none t = withDev t (jobStop 0 (jobCounted next raw t.dev)) := congrArg (withDev t) (if_pos last)

theorem jobStored_more (t : State) (more : next < stop) : jobStored stop next raw none t = withDev t (jobCounted next raw t.dev) :=
  congrArg (withDev t) (if_neg (Nat.not_le.2 more))

end Granted

/-- Nothing is stored where the space is short or a check fails that is not the CRC. -/
theorem jobOutput_eq (full : Bool) (fail : Option BlockFail) (out : List (List Word64)) :
    (if full = true ∨ (fail ≠ none ∧ fail ≠ some .crcFail) then [] else storedBytes out) = jobOutput full fail out :=
  if_congr (by simp [Option.isSome_iff_ne_none]) rfl rfl

/-! ### The failing block is passed over (R266) -/

/-- The address to which a RESUME with SKIP passes. -/
def jobPast (s : State) : Nat :=
  passBlock s.mem (s.dev.jobIn + s.dev.jobLen) (s.dev.jobLen / 8 + 1) (s.dev.jobIn + s.dev.jobInDone) false s.dev

/-- The block with the failing block of the job passed over and counted. -/
def jobPassed (next : Nat) (d : Dev) : Dev :=
  count1 (R.CMP_COUNT 7) ({ d with tq := { d.tq with skip := false } }.setReg R.CMP_JOB_IN_DONE (toWord (next - d.jobIn)))

theorem jobPassed_skip (next : Nat) (d : Dev) : (jobPassed next d).tq.skip = false := congrArg (fun q => q.skip) (count1_tq _ _)

/-- ct of reading the words up to `next`. -/
def jobReads (s : State) (next : Nat) : List (Nat × Nat) :=
  jobNeeds (s.dev.jobIn + s.dev.jobInDone) (next - (s.dev.jobIn + s.dev.jobInDone)) 0 0 s.dev

/-- Passing over waits for its ct. As in `jobBlock_acts`, the functions that compute are made variables first. -/
theorem jobSkip_past {granted : Bool} (past : jobPast s = next) (taken : takeAll 4 (jobReads s next) s.dev = (granted, d1)) :
    jobSkip s = withDev s (if granted then jobPassed next d1 else d1) := by
  unfold jobPast at past
  unfold jobReads at taken
  conv_lhs => fun; delta jobSkip
  obtain ⟨passer, taker, isPasser, isTaker⟩ : ∃ p t, p = passBlock ∧ t = takeAll := ⟨_, _, rfl, rfl⟩
  rw [← isPasser] at past
  rw [← isTaker] at taken
  rw [← isPasser, ← isTaker]
  dsimp only
  rw [past, taken]
  cases granted
  · rfl
  · rfl

/-! ### JOB_BLOCK_DONE -/

theorem jobBlockDone_idle (idle : s.dev.jobState ≠ 1) : jobBlockDone corr unc s = s := if_pos (by simpa using idle)

section Running

variable (running : s.dev.jobState = 1)

include running

theorem jobBlockDone_reads (skip : s.dev.tq.skip = false) : jobBlockDone corr unc s = jobBlock corr unc s := by
  unfold jobBlockDone
  rw [if_neg (by simp [running])]
  simp only [skip, Bool.false_eq_true, if_false]

theorem jobBlockDone_skips (skip : s.dev.tq.skip = true) :
    jobBlockDone corr unc s = if (jobSkip s).dev.tq.skip then jobSkip s else jobBlock corr unc (jobSkip s) := by
  unfold jobBlockDone
  rw [if_neg (by simp [running])]
  simp only [skip, if_true]

theorem jobBlockDone_acts {r : BlockRead × Dev} (skip : s.dev.tq.skip = false) (read : jobRead corr unc s = r) :
    jobBlockDone corr unc s = jobActs s r := by
  rw [jobBlockDone_reads running skip, jobBlock_acts, read]

/-- A job with a block to pass over reads no other before the budget grants that. -/
theorem jobBlockDone_skip_waits (skip : s.dev.tq.skip = true) (past : jobPast s = next) (waits : takeAll 4 (jobReads s next) s.dev = (false, d1)) :
    jobBlockDone corr unc s = withDev s d1 := by
  have still : d1.tq.skip = true := by rw [← skip, ← takeAll_tq 4 (jobReads s next) s.dev, waits]
  rw [jobBlockDone_skips running skip, jobSkip_past past waits]
  exact if_pos still

theorem jobBlockDone_skip_paid (skip : s.dev.tq.skip = true) (past : jobPast s = next) (paid : takeAll 4 (jobReads s next) s.dev = (true, d1)) :
    jobBlockDone corr unc s = jobBlock corr unc (withDev s (jobPassed next d1)) := by
  rw [jobBlockDone_skips running skip, jobSkip_past past paid]
  exact if_neg (by simp [withDev, jobPassed_skip])

end Running

end JobBlock

/-- Settles O45: a command by the state of the job, a message by the addresses that it names first; a block by what the job reads, by the ct that it is
granted, and by the first check that fails. -/
theorem decompression : Obligations.Decompression := by
  refine ⟨?commands, ?blocks⟩
  case commands =>
    intro s c w skip src dst
    refine ⟨?registers, ?message⟩
    case registers =>
      intro present
      have start := exec_jobStart_regs rfl present
      have resume := exec_jobResume_regs skip rfl present
      have abort := exec_jobAbort_regs rfl present
      refine ⟨fun idle => ?_, fun busy => ?_, fun running => ?_, fun idle => ?_, fun stopped => ?_, fun running => ?_, fun stopped => ?_, fun idle => ?_⟩
      · obtain ⟨state, result, cmdResult, inDone, outDone, blocks⟩ := jobStarted_progress (putRegs (forRegs jobRegs w) s).dev
        rw [jobStart_idle idle] at start
        exact ⟨_, start, state, result, cmdResult, inDone, outDone, blocks, rfl, rfl⟩
      · rwa [jobStart_busy busy] at start
      · rwa [jobResume_running skip running] at resume
      · rwa [jobResume_idle skip idle] at resume
      · rwa [jobResume_stopped skip stopped] at resume
      · rwa [jobAbort_running running] at abort
      · rwa [jobAbort_stopped stopped] at abort
      · rwa [jobAbort_idle idle] at abort
    case message =>
      intro d secure missing hw hsrc hdst taken
      subst hsrc hdst
      have start := taken 1 (by simp)
      have resume := taken (2 + 4 * b2n skip) (by simp)
      have abort := taken 3 (by simp)
      refine ⟨fun secure => ?_, fun plain missing => ?_, fun plain there => ?_⟩
      · have denied {k : Nat} (a : Accepted 0x0606 c (jobPayload w k) s) := direct_job_secure hw a secure
        exact ⟨congrArg Host.Outcome.next (denied start), congrArg Host.Outcome.next (denied resume), congrArg Host.Outcome.next (denied abort)⟩
      · have unsupported {k : Nat} (a : Accepted 0x0606 c (jobPayload w k) s) := direct_job_missing hw a plain missing
        exact ⟨congrArg Host.Outcome.next (unsupported start), congrArg Host.Outcome.next (unsupported resume),
          congrArg Host.Outcome.next (unsupported abort)⟩
      obtain ⟨namedTq, namedLive, namedEv⟩ := jobNamed_keeps w s.dev
      refine ⟨fun idle => ?_, fun busy => exec_jobStart_msg_busy hw plain there start busy, fun stopped => ?_,
        fun running => exec_jobResume_msg_other hw plain there resume (by simp [show s.dev.jobState = 1 from running]) (jobResume_running skip running),
        fun running => exec_jobAbort_msg hw plain there abort (jobAbort_running running),
        fun stopped => exec_jobAbort_msg hw plain there abort (jobAbort_stopped stopped),
        fun idle => ⟨exec_jobAbort_msg hw plain there abort (jobAbort_idle idle),
          exec_jobResume_msg_other hw plain there resume (by simp [show s.dev.jobState = 0 from idle]) (jobResume_idle skip idle)⟩⟩
      · obtain ⟨jobIn, jobOut, len, space⟩ := jobStarted_job (jobNamed_job w s.dev)
        obtain ⟨runs, -, -, inDone, outDone, -⟩ := jobStarted_progress (jobNamed w s.dev)
        obtain ⟨live, ev⟩ := jobStarted_keeps (jobNamed w s.dev)
        exact ⟨_, exec_jobStart_msg_idle hw plain there start idle, runs, jobIn, jobOut, len, space,
          congrArg BitVec.toNat inDone, congrArg BitVec.toNat outDone, live.trans namedLive, ev.trans namedEv⟩
      · obtain ⟨jobIn, jobOut, -, -⟩ := jobResumed_job skip (jobNamed_job w s.dev)
        have inDone : (jobResumed skip (jobNamed w s.dev)).reg R.CMP_JOB_IN_DONE = s.dev.reg R.CMP_JOB_IN_DONE :=
          (jobResumed_reg skip (by decide) (by decide)).trans (jobNamed_reg (by decide))
        obtain ⟨tq, live, ev⟩ := jobResumed_keeps skip (jobNamed w s.dev)
        rw [namedTq] at tq
        exact ⟨_, exec_jobResume_msg_stopped hw plain there resume stopped, jobResumed_state skip _, jobIn, jobOut,
          congrArg BitVec.toNat inDone, congrArg BitVec.toNat (jobResumed_outDone skip _), tq, live.trans namedLive, ev.trans namedEv⟩
  case blocks =>
    intro s corr unc x next raw full fail d d1 d2 items out
    refine ⟨fun idle => congrArg Host.Outcome.next (jobBlockDone_idle idle), ?_⟩
    intro src stop fuel reads running
    refine ⟨?skips, fun skip => ?reads⟩
    case skips =>
      intro skip past
      exact ⟨fun waits => congrArg Host.Outcome.next (jobBlockDone_skip_waits running skip past waits),
        fun paid => congrArg Host.Outcome.next (jobBlockDone_skip_paid running skip past paid)⟩
    case reads =>
      have acts {r : BlockRead × Dev} {t : State} (read : jobRead corr unc s = r) (h : jobActs s r = t) : exec (.jobBlockDone corr unc) s = .next t :=
        congrArg Host.Outcome.next ((jobBlockDone_acts running skip read).trans h)
      refine ⟨fun used => congrArg Host.Outcome.next ((jobBlockDone_reads running skip).trans (jobBlock_used used)), ?_, ?_, ?_⟩
      · exact fun read => ⟨fun waits => acts read (congrArg (withDev s) (jobEnds_waits waits)),
          fun paid => acts read (congrArg (withDev s) (jobEnds_paid paid))⟩
      · exact fun read => ⟨fun waits => acts read (congrArg (withDev s) (jobEnds_waits waits)),
          fun paid => acts read (congrArg (withDev s) (jobEnds_paid paid))⟩
      · intro read decoded bytes
        have output : bytes = jobOutput full fail out := jobOutput_eq full fail out
        clear_value bytes
        subst output
        intro dst e pages
        have granted {t : State} (h : jobGranted s items next d (out, raw, full, fail) = t) : exec (.jobBlockDone corr unc) s = .next t :=
          acts read ((congrArg (jobGranted s items next d) decoded).trans h)
        refine ⟨fun waits => granted (jobGranted_waits waits), fun paid => ?_⟩
        have checked {t : State} (h : jobDecoded stop next raw dst full fail items (jobOutput full fail out) s e = t) :
          exec (.jobBlockDone corr unc) s = .next t := granted ((jobGranted_paid paid).trans h)
        refine ⟨fun bad => checked (jobDecoded_format bad), ?_, ?_, ?_⟩
        · rintro framed rfl
          exact checked (jobDecoded_expansion framed)
        · rintro framed rfl rfl
          exact checked (jobDecoded_full framed)
        · rintro framed kept rfl
          have store {t : State} (h : jobStore stop next raw dst fail (jobOutput false fail out) s e = t) : exec (.jobBlockDone corr unc) s = .next t :=
            checked ((jobDecoded_kept framed kept).trans h)
          refine ⟨fun closed => store (jobStore_closed closed), fun opened => ?_⟩
          intro t e e3
          refine ⟨?_, ?_, ?_⟩
          · rintro rfl
            exact store ((jobStore_open opened).trans (jobStored_crcFail _))
          · rintro rfl last
            exact store ((jobStore_open opened).trans (jobStored_last _ last))
          · rintro rfl more
            exact store ((jobStore_open opened).trans (jobStored_more _ more))

end Sys2Proof.Machine

/-! Lanes: bring-up, retrains, LP_DEEP and the capability sets of a lane (R274 to R287, R295, R296). -/

namespace Sys2Proof.Machine

open Sys2Proof.Safety

/-! ### A lane in its stage (R274, R296) -/

section Stage

variable {l st : Nat} {d : Dev}

theorem Dev.inStage_iff : d.inStage l st = true ↔ d.stage l = st ∧ d.is (F.LNK_LANE_STATUS_PRBS_BUSY l) = false := by simp [Dev.inStage]

theorem Dev.inStage_of (stage : d.stage l = st) (free : d.is (F.LNK_LANE_STATUS_PRBS_BUSY l) = false) : d.inStage l st = true :=
  Dev.inStage_iff.2 ⟨stage, free⟩

theorem Dev.not_inStage (h : d.stage l ≠ st ∨ d.is (F.LNK_LANE_STATUS_PRBS_BUSY l) = true) : d.inStage l st = false := by
  rw [← Bool.not_eq_true, Dev.inStage_iff]
  rintro ⟨stage, free⟩
  rcases h with h | h
  · exact h stage
  · simp [free] at h

end Stage

@[simp] theorem Dev.stage_setLane (d : Dev) (l m : Nat) (x : Lane) : (d.setLane l x).stage m = d.stage m := rfl

theorem Dev.lane_setLane_self (d : Dev) {l : Nat} (x : Lane) (h : l < d.lnk.lanes.length) : (d.setLane l x).lane l = x := by
  simp [Dev.lane, h]

theorem Dev.port_setPort_self (d : Dev) {p : Nat} (x : LnkPort) (h : p < d.lnk.ports.length) : (d.setPort p x).port p = x := by
  simp [Dev.port, h]

theorem portOf_lt {l : Nat} (h : l < 18) : portOf l < 12 := by
  unfold portOf
  split <;> omega

/-- A counter of the links, counted, leaves the stages of lanes. -/
theorem Dev.stage_count1 (d : Dev) {k : Nat} (l : Nat) (links : k / 65536 = 10) : (count1 k d).stage l = d.stage l := by
  refine count1_get k d _ ?_ ?_
  · rw [links]
    show 0x0A1000 + 64 * l ≠ 0x0A0010
    omega
  · show 0x0A1000 + 64 * l ≠ 0x0B0020
    omega

/-! ### Leaving and entering a stage (R274) -/

section GoStage

variable (l st : Nat) (d : Dev)

/-- What entering a stage writes, before its events. -/
def stageSet : Dev :=
  let d := (d.put (F.LNK_LANE_STATUS_STAGE l) st).setLane l ((d.lane l).enter (isTiming (portOf l)) st)
  let d := if st < 3 || 5 < st then (d.put (F.LNK_LANE_STATUS_BIT_LOCK l) 0).put (F.LNK_LANE_STATUS_SYM_LOCK l) 0 else d
  let d := if st == 5 then d.put (F.LNK_LANE_STATUS_ATTEMPT l) 0 else d
  d.put (F.LNK_PORT_STATUS_LP_DEEP (portOf l)) (b2n ((lanesOf (portOf l)).all (fun m => d.stage m == 6)))

theorem goStage_eq : goStage l st d =
    if d.stage l == 5 && st != 5 then portDown (portOf l) (raise E.LNK_LANE_DOWN [] (stageSet l st d))
    else if d.stage l != 5 && st == 5 then raise E.LNK_LANE_ACTIVE [] (stageSet l st d)
    else stageSet l st d := rfl

theorem stageSet_keeps : (stageSet l st d).ev = d.ev ∧ (stageSet l st d).live = d.live ∧
    (stageSet l st d).lnk = { d.lnk with lanes := d.lnk.lanes.set l ((d.lane l).enter (isTiming (portOf l)) st) } := by
  unfold stageSet
  dsimp only
  split_ifs <;> exact ⟨rfl, rfl, rfl⟩

variable {l st d}

theorem stageSet_stage (hst : st < 8) : (stageSet l st d).stage l = st := by
  have field (e : Dev) {f : FRef} (v : Nat) (h : f.hi < 29) (hf : f.lo ≤ f.hi) : (e.put f v).stage l = e.stage l :=
    Dev.get_put_field e f _ v (h.trans (by decide)) hf (.inr h)
  have port (e : Dev) (v : Nat) : (e.put (F.LNK_PORT_STATUS_LP_DEEP (portOf l)) v).stage l = e.stage l := field e v (Nat.lt_of_sub_eq_succ rfl) le_rfl
  have stage : (d.put (F.LNK_LANE_STATUS_STAGE l) st).stage l = st := Dev.get_put_fits d (Nat.lt_of_sub_eq_succ rfl) (Nat.le_of_sub_eq_zero rfl) hst
  unfold stageSet
  dsimp only
  rw [port]
  split_ifs <;> simp [field, stage, F.LNK_LANE_STATUS_ATTEMPT, F.LNK_LANE_STATUS_BIT_LOCK, F.LNK_LANE_STATUS_SYM_LOCK]

theorem goStage_quiet (h : d.stage l ≠ 5) (hst : st ≠ 5) : goStage l st d = stageSet l st d := by simp [goStage_eq, h, hst]

theorem goStage_leaves (h : d.stage l = 5) (hst : st ≠ 5) : goStage l st d = portDown (portOf l) (raise E.LNK_LANE_DOWN [] (stageSet l st d)) := by
  simp [goStage_eq, h, hst]

end GoStage

/-! ### A port goes down (R60, R209, R243, R287) -/

/-- The links stand alike in two states of the block: the registers of their block, their ports and their lanes. -/
def LnkSame (d e : Dev) : Prop := (∀ k, k / 65536 = 10 → e.reg k = d.reg k) ∧ e.lnk = d.lnk

theorem LnkSame.refl (d : Dev) : LnkSame d d := ⟨fun _ _ => rfl, rfl⟩

theorem LnkSame.trans {a b c : Dev} (h : LnkSame a b) (k : LnkSame b c) : LnkSame a c :=
  ⟨fun i hi => (k.1 i hi).trans (h.1 i hi), k.2.trans h.2⟩

theorem LnkSame.get {d e : Dev} (h : LnkSame d e) {f : FRef} (hf : f.key / 65536 = 10) : e.get f = d.get f := by
  simp [Dev.get, h.1 f.key hf]

theorem lnkSame_setReg (d : Dev) {k : Nat} (w : Word) (h : k / 65536 ≠ 10) : LnkSame d (d.setReg k w) :=
  ⟨fun j hj => Dev.reg_setReg_ne d w (by rintro rfl; exact h hj), rfl⟩

/-- An event of another block, raised, leaves the links. -/
theorem lnkSame_raise (e : Nat) (p : List Word) (d : Dev) (h : eventKey e / 65536 ≠ 10) : LnkSame d (raise e p d) :=
  ⟨fun _ hj => raise_reg e p d (by rintro rfl; exact h hj) (by rintro rfl; exact absurd hj (by decide)), raise_lnk e p d⟩

/-- A counter of the cascade or of the turn queues, counted, leaves the links. -/
theorem lnkSame_count1 {k : Nat} (d : Dev) (h : k / 65536 = 7 ∨ k / 65536 = 8) : LnkSame d (count1 k d) := by
  refine ⟨fun j hj => count_reg k 1 d ?_ (by rintro rfl; exact absurd hj (by decide)), count1_lnk k d⟩
  rcases h with h | h <;> rw [h] <;> rintro rfl <;> exact absurd hj (by decide)

theorem lnkSame_portGiveUp {p : Nat} (d : Dev) (hp : p < 2) : LnkSame d (portGiveUp p d) := by
  unfold portGiveUp
  dsimp only
  split
  · exact lnkSame_count1 (Dev.setUpPort _ p _) (.inr (by unfold R.TQ_COUNT; omega))
  · exact LnkSame.refl _

theorem lnkSame_truncateRx {j : Nat} (d : Dev) (hj : j < 8) : LnkSame d (truncateRx j d) := by
  have drop : LnkSame d (dropRx j d) := by
    unfold dropRx
    split <;> exact LnkSame.refl _
  unfold truncateRx
  split
  · exact drop.trans (lnkSame_count1 _ (.inl (by unfold R.CAS_PORT_COUNT; omega)))
  · exact LnkSame.refl _

theorem lnkSame_portLost (p : Nat) (d : Dev) : LnkSame d (portLost p d) := by
  have time (f : FRef) (h : f.key / 65536 = 1) (e : Dev) (v : Nat) : LnkSame e (e.put f v) := lnkSame_setReg e _ (by omega)
  have up : (upField p).key / 65536 = 1 := by unfold upField; split <;> rfl
  have valid : (delayValidField p).key / 65536 = 1 := by unfold delayValidField; split <;> rfl
  have lost : LnkSame d ((d.put (upField p) 0).put (delayValidField p) 0) := (time _ up d 0).trans (time _ valid _ 0)
  unfold portLost
  dsimp only
  generalize hd : Dev.setTport _ p _ = e
  have ports : LnkSame d e := hd ▸ lost
  have said : LnkSame d (if d.is (upField p) = true then raise E.TIME_PORT_LOST [] e else e) := by
    split
    · exact ports.trans (lnkSame_raise _ _ e (by decide))
    · exact ports
  generalize (if d.is (upField p) = true then raise E.TIME_PORT_LOST [] e else e) = g at said ⊢
  refine said.trans ?_
  split_ifs
  · exact LnkSame.refl g
  · exact time F.TIME_STATUS_PT_STATE rfl g 3
  · exact time F.TIME_STATUS_AT_STATE rfl g 0
  · exact LnkSame.refl g

/-- A port that goes down is no longer ACTIVE; nothing else of the links changes but what its message in transit was. -/
theorem lnkSame_portDown {p : Nat} (d : Dev) (hp : p < 12) :
    LnkSame ((d.put (F.LNK_PORT_STATUS_ACTIVE p) 0).setPort p { d.port p with txMsg := none }) (portDown p d) := by
  unfold portDown
  dsimp only
  split
  · exact lnkSame_portGiveUp _ ‹_›
  · split
    · exact lnkSame_truncateRx _ (by omega)
    · exact lnkSame_portLost _ _

theorem portDown_stage {p : Nat} (d : Dev) (hp : p < 12) (l : Nat) (hl : l < 18) : (portDown p d).stage l = d.stage l := by
  refine ((lnkSame_portDown d hp).get (f := F.LNK_LANE_STATUS_STAGE l) ?_).trans (Dev.get_put_ne d _ _ 0 ?_)
  · show (0x0A1000 + 64 * l) / 65536 = 10
    omega
  · show 0x0A1000 + 64 * l ≠ 0x0A0108 + 16 * p
    omega

theorem portDown_active {p : Nat} (d : Dev) (hp : p < 12) : (portDown p d).get (F.LNK_PORT_STATUS_ACTIVE p) = 0 := by
  refine ((lnkSame_portDown d hp).get ?_).trans (Dev.get_put_fits d ?_ le_rfl Nat.two_pos)
  · show (0x0A0108 + 16 * p) / 65536 = 10
    omega
  · exact Nat.lt_of_sub_eq_succ rfl

/-! ### A warm retrain (R287) -/

section Retrain

variable {l : Nat} {d : Dev}

theorem goStage_stage (active : d.stage l = 5) {st : Nat} (hl : l < 18) (hst : st < 5) : (goStage l st d).stage l = st := by
  rw [goStage_leaves active (by omega), portDown_stage _ (portOf_lt hl) l hl]
  refine (raise_get _ _ _ _ ?_ ?_).trans (stageSet_stage (by omega))
  · show 0x0A1000 + 64 * l ≠ 0x0A0010
    omega
  · show 0x0A1000 + 64 * l ≠ 0x0B0020
    omega

theorem goStage_lanes (active : d.stage l = 5) {st : Nat} (hl : l < 18) (hst : st < 5) :
    (goStage l st d).lnk.lanes = d.lnk.lanes.set l ((d.lane l).enter (isTiming (portOf l)) st) := by
  rw [goStage_leaves active (by omega), (lnkSame_portDown _ (portOf_lt hl)).2]
  simp [(stageSet_keeps l st d).2.2]

theorem laneRetrain_active (active : d.stage l = 5) (hl : l < 18) (held : l < d.lnk.lanes.length) :
    (laneRetrain l d).stage l = 2 ∧ ((laneRetrain l d).lane l).warm = true ∧ (laneRetrain l d).get (F.LNK_PORT_STATUS_ACTIVE (portOf l)) = 0 := by
  have counted : (count1 (R.LNK_LANE_COUNT l 5) d).stage l = 5 := by
    rw [Dev.stage_count1 d l (by unfold R.LNK_LANE_COUNT; omega), active]
  refine ⟨goStage_stage counted hl (by decide), ?_, ?_⟩
  · unfold laneRetrain
    dsimp only
    rw [Dev.lane_setLane_self _ _ (by rw [goStage_lanes counted hl (by decide)]; simpa using held)]
  · have left := goStage_leaves counted (st := 2) (by decide)
    exact (congrArg (Dev.get · (F.LNK_PORT_STATUS_ACTIVE (portOf l))) left).trans (portDown_active _ (portOf_lt hl))

end Retrain

/-! ### Bring-up (R275 to R281) -/

section BringUp

variable {l : Nat} {d : Dev}

theorem detectProbe_rests (found : Bool) (h : d.inStage l 1 = false) : detectProbe l found d = d := by simp [detectProbe, h]

theorem detectProbe_missed (h : d.inStage l 1 = true) :
    detectProbe l false d = (d.put (F.LNK_LANE_STATUS_RX_DETECTED l) 0).setLane l { d.lane l with probe := false } := by
  simp only [detectProbe, h, Bool.not_true, Bool.not_false, Bool.false_eq_true, if_false, if_true]

theorem detectProbe_first (h : d.inStage l 1 = true) (probe : (d.lane l).probe = false) :
    detectProbe l true d = d.setLane l { d.lane l with probe := true } := by simp [detectProbe, h, probe]

theorem detectProbe_second (h : d.inStage l 1 = true) (probe : (d.lane l).probe = true) :
    detectProbe l true d = goStage l 2 (d.put (F.LNK_LANE_STATUS_RX_DETECTED l) 1) := by simp [detectProbe, h, probe]

/-- Characters that TRAIN takes (R276, R287). -/
def trainNeed (x : Lane) : Nat := if x.warm then 2 ^ 14 else 2 ^ 17

theorem trainDone_rests (adapt : List Nat) {chars calm : Nat}
    (h : d.inStage l 2 = false ∨ (d.lane l).idle = true ∨ chars < trainNeed (d.lane l) ∨ calm < 4) : trainDone l adapt chars calm d = d := by
  refine if_pos ?_
  rw [trainNeed] at h
  simpa [or_assoc] using h

theorem trainDone_trained (adapt : List Nat) {chars calm : Nat} (h : d.inStage l 2 = true) (sends : (d.lane l).idle = false)
    (enough : trainNeed (d.lane l) ≤ chars) (windows : 4 ≤ calm) :
    trainDone l adapt chars calm d = goStage l 3 ((d.setReg (R.LNK_LANE_ADAPT l) (adaptWord adapt)).put (F.LNK_LANE_STATUS_FROZEN l) 0) := by
  refine if_neg ?_
  rw [trainNeed] at enough
  simpa [h, sends] using ⟨enough, windows⟩

theorem trainTimeout_rests (h : d.inStage l 2 = false ∨ (d.lane l).idle = true) : trainTimeout l d = d := by
  refine if_neg ?_
  rcases h with h | h <;> simp [h]

theorem trainTimeout_fails (h : d.inStage l 2 = true) (sends : (d.lane l).idle = false) : trainTimeout l d = failedAttempt l d := if_pos (by simp [h, sends])

theorem laneRetry_rests (h : d.inStage l 2 = false ∨ (d.lane l).idle = false) : laneRetry l d = d := by
  refine if_neg ?_
  rcases h with h | h <;> simp [h]

/-- A lane that waits out its electrical idle starts TRAIN again, without an event. -/
theorem laneRetry_wakes (h : d.inStage l 2 = true) (idle : (d.lane l).idle = true) (held : l < d.lnk.lanes.length) :
    (laneRetry l d).stage l = 2 ∧ ((laneRetry l d).lane l).idle = false ∧ (laneRetry l d).ev = d.ev ∧ (laneRetry l d).live = d.live := by
  obtain ⟨stage, -⟩ := Dev.inStage_iff.1 h
  obtain ⟨ev, live, lnk⟩ := stageSet_keeps l 2 d
  have wakes : laneRetry l d = (stageSet l 2 d).setLane l { (stageSet l 2 d).lane l with idle := false } := by
    rw [← goStage_quiet (by omega) (by decide), laneRetry, if_pos (by simp [h, idle])]
  rw [wakes]
  refine ⟨(Dev.stage_setLane _ _ _ _).trans (stageSet_stage (by decide)), ?_, (Dev.setLane_ev _ _ _).trans ev, (Dev.setLane_live _ _ _).trans live⟩
  rw [Dev.lane_setLane_self _ _ (by simpa [lnk] using held)]

theorem symbolLock_rests (h : d.inStage l 3 = false) : symbolLock l d = d := if_neg (by simp [h])

theorem symbolLock_locks (h : d.inStage l 3 = true) :
    symbolLock l d = (d.put (F.LNK_LANE_STATUS_BIT_LOCK l) 1).put (F.LNK_LANE_STATUS_SYM_LOCK l) 1 := if_pos h

theorem lockTimeout_rests (h : d.inStage l 3 = false) : lockTimeout l d = d := if_neg (by simp [h])

theorem lockTimeout_fails (h : d.inStage l 3 = true) : lockTimeout l d = failedAttempt l d := if_pos h

theorem lockDone_rests (h : d.inStage l 3 = false ∨ d.is (F.LNK_LANE_STATUS_SYM_LOCK l) = false) : lockDone l d = d := by
  refine if_neg ?_
  rcases h with h | h <;> simp [h]

/-- With symbol lock LOCK ends in EXCHANGE, without an event and with no capability set received yet. -/
theorem lockDone_exchange (h : d.inStage l 3 = true) (locked : d.is (F.LNK_LANE_STATUS_SYM_LOCK l) = true) (held : l < d.lnk.lanes.length) :
    (lockDone l d).stage l = 4 ∧ ((lockDone l d).lane l).caps = none ∧ (lockDone l d).ev = d.ev ∧ (lockDone l d).live = d.live := by
  obtain ⟨stage, -⟩ := Dev.inStage_iff.1 h
  obtain ⟨ev, live, lnk⟩ := stageSet_keeps l 4 d
  have ends : lockDone l d = (stageSet l 4 d).setLane l { (stageSet l 4 d).lane l with caps := none } := by
    rw [← goStage_quiet (by omega) (by decide), lockDone, if_pos (by simp [h, locked])]
  rw [ends]
  refine ⟨(Dev.stage_setLane _ _ _ _).trans (stageSet_stage (by decide)), ?_, (Dev.setLane_ev _ _ _).trans ev, (Dev.setLane_live _ _ _).trans live⟩
  rw [Dev.lane_setLane_self _ _ (by simpa [lnk] using held)]

theorem linkFail_rests (h : isTiming (portOf l) = true ∨ (d.port (portOf l)).rate ≠ 0 ∨ (d.stage l ≠ 2 ∧ d.stage l ≠ 3)) : linkFail l d = d := by
  refine if_pos ?_
  simpa [or_assoc] using h

theorem linkFail_fails (serial : isTiming (portOf l) = false) (lowest : (d.port (portOf l)).rate = 0) (stage : d.stage l = 2 ∨ d.stage l = 3) :
    linkFail l d = raise E.LNK_LINK_FAIL [] (report (0x100 + l) 0x0E 0 0 0 (some (.lane l))
      ((lanesOf (portOf l)).foldl (fun d m => if d.stage m == 0 || d.stage m == 6 then d else goStage m 7 d) d)) := by
  refine if_neg ?_
  rcases stage with h | h <;> simp [serial, lowest, h]

theorem failedRestart_rests (h : d.stage l ≠ 7) : failedRestart l d = d := if_neg (by simpa using h)
theorem failedRestart_cold (h : d.stage l = 7) : failedRestart l d = coldStart (portOf l) d := if_pos (by simpa using h)

theorem exchangeFailTick_rests (h : d.stage l ≠ 4) : exchangeFailTick l d = d := if_neg (by simpa using h)
theorem exchangeFailTick_counts (h : d.stage l = 4) : exchangeFailTick l d = count1 (R.LNK_LANE_COUNT l 8) d := if_pos (by simpa using h)

/-! ### Lanes in ACTIVE and LP_DEEP (R284, R287, R295) -/

theorem lockLoss_rests (h : d.stage l ≠ 5) : lockLoss l d = d := if_pos (by simpa using h)

theorem lockLoss_retrains (h : d.stage l = 5) :
    lockLoss l d = laneRetrain l (report (0x100 + l) 0x0F 0 0 0 (some (.lane l)) (count1 (R.LNK_LANE_COUNT l 4) d)) := if_neg (by simpa using h)

theorem tsActive_rests (h : d.stage l ≠ 5) : tsActive l d = d := if_neg (by simpa using h)
theorem tsActive_retrains (h : d.stage l = 5) : tsActive l d = laneRetrain l d := if_pos (by simpa using h)

theorem lpEntry_rests (h : isTiming (portOf l) = true ∨ d.stage l < 3 ∨ 5 < d.stage l) : lpEntry l d = d := if_pos (by simpa [or_assoc] using h)

theorem lpEntry_follows (serial : isTiming (portOf l) = false) (low : 3 ≤ d.stage l) (high : d.stage l ≤ 5) : lpEntry l d = goStage l 6 d :=
  if_neg (by simpa [serial] using ⟨low, high⟩)

theorem lpWake_rests (h : d.stage l ≠ 6) : lpWake l d = d := if_neg (by simpa using h)

theorem lpWake_retrains (h : d.stage l = 6) : lpWake l d = (laneRetrain l d).setLane l { (laneRetrain l d).lane l with lpExit := true } :=
  if_pos (by simpa using h)

/-! ### Capability sets (R271, R278, R279, R282) -/

theorem countCharErr_none (l : Nat) (d : Dev) : countCharErr l .none d = d := rfl

variable {bytes : List Byte}

theorem capabilityReceive_ignored (h : (d.stage l ≠ 4 ∧ d.stage l ≠ 5) ∨ isTiming (portOf l) = true ∨ bytes.length ≠ 14 ∨
    crc16 (bytes.take 12) ≠ bytesNat (bytes.drop 12)) : capabilityReceive l bytes d = d := by
  refine if_pos ?_
  simpa [or_assoc] using h

/-- The set as the lane's run of identical ones has it, kept with the lane. -/
def capNoted (l : Nat) (bytes : List Byte) (d : Dev) : Dev :=
  d.setLane l { d.lane l with caps := some (match (d.lane l).caps with
    | some c => if c.bytes == bytes then { c with n := min (c.n + 1) 4 } else { bytes := bytes, n := 1 }
    | none => { bytes := bytes, n := 1 }) }

/-- A retrain is asked for at the next boundary (R282). -/
def retrainAsked (p : Nat) (d : Dev) : Dev := d.setPort p { d.port p with retrain := true }

/-- In ACTIVE a set that no longer matches the running values asks for a retrain (R282). -/
def capAsking (p : Nat) (bytes : List Byte) (d : Dev) : Dev := if d.is (F.LNK_PORT_STATUS_ACTIVE p) && capMoved p bytes d then retrainAsked p d else d

/-- The lane of index i has had 4 sets that agree with this one but in its lane index (R282). -/
def capAgrees (p : Nat) (bytes : List Byte) (d : Dev) (i : Nat) : Bool := match (d.lane (laneOf p i)).caps with
  | some c => 4 ≤ c.n && c.bytes.take 3 == bytes.take 3 && capBits c.bytes 3 7 3 == capBits bytes 3 7 3 && (c.bytes.drop 4).take 8 == (bytes.drop 4).take 8
  | none => false

/-- In ACTIVE new values that every lane has had wait for their adoption at the next boundary (R282). -/
def capAdopting (p : Nat) (bytes : List Byte) (d : Dev) : Dev :=
  if d.is (F.LNK_PORT_STATUS_ACTIVE p) && (List.range (d.runWidth p)).all (capAgrees p bytes d) && newValues p bytes d then
    d.setPort p { d.port p with adopt := some bytes }
  else d

/-- Values that wait for adoption leave a request for a retrain standing, and no register moves. -/
theorem capAdopting_keeps (p : Nat) (bytes : List Byte) (d : Dev) (held : p < d.lnk.ports.length) :
    ((capAdopting p bytes d).port p).retrain = (d.port p).retrain ∧ (capAdopting p bytes d).regs = d.regs ∧ (capAdopting p bytes d).live = d.live := by
  unfold capAdopting
  split
  · exact ⟨by rw [Dev.port_setPort_self d _ held], rfl, rfl⟩
  · exact ⟨rfl, rfl, rfl⟩

theorem capAsking_moved {p : Nat} (up : d.is (F.LNK_PORT_STATUS_ACTIVE p) = true) (moved : capMoved p bytes d = true) :
    capAsking p bytes d = retrainAsked p d := if_pos (by simp [up, moved])

theorem retrainAsked_retrain {p : Nat} {d : Dev} (held : p < d.lnk.ports.length) : ((retrainAsked p d).port p).retrain = true := by
  rw [retrainAsked, Dev.port_setPort_self d _ held]

section Good

variable (serial : isTiming (portOf l) = false) (size : bytes.length = 14) (crc : crc16 (bytes.take 12) = bytesNat (bytes.drop 12))

include serial size crc

theorem capabilityReceive_good (stage : d.stage l = 4 ∨ d.stage l = 5) : capabilityReceive l bytes d =
    if d.stage l == 4 then tryExchange (portOf l) (capNoted l bytes d)
    else capAdopting (portOf l) bytes (capAsking (portOf l) bytes (capNoted l bytes d)) := by
  refine if_neg ?_
  rcases stage with h | h <;> simp [h, serial, size, crc]

/-- The first capability set in EXCHANGE may end it. -/
theorem capabilityReceive_first (stage : d.stage l = 4) (first : (d.lane l).caps = none) : capabilityReceive l bytes d =
    tryExchange (portOf l) (d.setLane l { d.lane l with caps := some { bytes := bytes, n := 1 } }) := by
  rw [capabilityReceive_good serial size crc (.inl stage), if_pos (by simpa using stage), capNoted, first]

/-- A set in ACTIVE with another LANES, RATE or PORT asks for a retrain, and changes no register. -/
theorem capabilityReceive_moved (stage : d.stage l = 5) (up : d.is (F.LNK_PORT_STATUS_ACTIVE (portOf l)) = true)
    (moved : capMoved (portOf l) bytes d = true) (held : portOf l < d.lnk.ports.length) :
    ((capabilityReceive l bytes d).port (portOf l)).retrain = true ∧ (capabilityReceive l bytes d).regs = d.regs ∧
      (capabilityReceive l bytes d).live = d.live := by
  have noted : portOf l < (capNoted l bytes d).lnk.ports.length := held
  have asked : portOf l < (retrainAsked (portOf l) (capNoted l bytes d)).lnk.ports.length := by simpa [retrainAsked] using noted
  rw [capabilityReceive_good serial size crc (.inr stage), if_neg (by simp [stage]), capAsking_moved (d := capNoted l bytes d) up moved]
  obtain ⟨retrain, regs, live⟩ := capAdopting_keeps (portOf l) bytes _ asked
  exact ⟨retrain.trans (retrainAsked_retrain noted), regs, live⟩

end Good

end BringUp

/-! ### The commands of a lane -/

/-- CAPABILITY_RECEIVE with a character error only counts it (R271). -/
theorem exec_capabilityReceive_error {l : Nat} {bytes : List Byte} {err : CharErr} {s : State} (hl : l < 18) (bad : err ≠ .none) :
    exec (.capabilityReceive l bytes err) s = .next (withDev s (countCharErr l err s.dev)) := by
  refine onDev_port (fun l d => if err == .none then capabilityReceive l bytes (countCharErr l err d) else countCharErr l err d) hl (if_neg ?_)
  simpa using bad

theorem exec_capabilityReceive {l : Nat} {bytes : List Byte} {s : State} {d : Dev} (hl : l < 18) (h : capabilityReceive l bytes s.dev = d) :
    exec (.capabilityReceive l bytes .none) s = .next (withDev s d) :=
  onDev_port (fun l => capabilityReceive l bytes) hl h

/-- Settles O46: each command of a lane is one function on the block, and each clause is the case of that function that its stage, its
electrical idle and a loopback test choose. -/
theorem lanes : Obligations.Lanes := by
  refine ⟨?bringUp, ?active⟩
  case bringUp =>
    intro s l chars calm found adapt hl d st need
    have run {f : Nat → Dev → Dev} {e : Dev} (h : f l d = e) : onDev (f (l % 18)) s = .next (withDev s e) := onDev_port f hl h
    have probes {found : Bool} {e : Dev} (h : detectProbe l found d = e) : exec (.laneDetectProbe l found) s = .next (withDev s e) :=
      run (f := fun l => detectProbe l found) h
    have trains {e : Dev} (h : trainDone l adapt chars calm d = e) : exec (.laneTrainDone l ⟨adapt, chars, calm⟩) s = .next (withDev s e) :=
      run (f := fun l => trainDone l adapt chars calm) h
    refine ⟨fun away => probes (detectProbe_rests found (Dev.not_inStage away)), ?_, ?_, ?_, ?_, ?_, fun h => run (failedRestart_rests h),
      fun h => run (failedRestart_cold h), fun h => run (exchangeFailTick_counts h), fun h => run (exchangeFailTick_rests h),
      fun h => run (linkFail_rests h), fun serial lowest h => run (linkFail_fails serial lowest h)⟩
    · intro away
      have rests : d.inStage l 2 = false ∨ (d.lane l).idle = true := by
        rcases away with h | h | h
        · exact .inl (Dev.not_inStage (.inl h))
        · exact .inr h
        · exact .inl (Dev.not_inStage (.inr h))
      exact ⟨trains (trainDone_rests adapt (rests.imp_right .inl)), run (trainTimeout_rests rests)⟩
    · exact fun short => trains (trainDone_rests adapt (.inr (.inr short)))
    · intro away
      have rests := Dev.not_inStage away
      exact ⟨run (symbolLock_rests rests), run (lockDone_rests (.inl rests)), run (lockTimeout_rests rests)⟩
    · rintro (h | h | h)
      · exact run (laneRetry_rests (.inl (Dev.not_inStage (.inl h))))
      · exact run (laneRetry_rests (.inr h))
      · exact run (laneRetry_rests (.inl (Dev.not_inStage (.inr h))))
    · intro free
      have there {n : Nat} (h : st = n) : d.inStage l n = true := Dev.inStage_of h free
      refine ⟨fun h => probes (detectProbe_missed (there h)), fun h first => probes (detectProbe_first (there h) first),
        fun h second => probes (detectProbe_second (there h) second),
        fun h sends enough windows => trains (trainDone_trained adapt (there h) sends enough windows),
        fun h sends => run (trainTimeout_fails (there h) sends), ?_, ?_⟩
      · intro h
        exact ⟨run (symbolLock_locks (there h)), run (lockTimeout_fails (there h)), fun unlocked => run (lockDone_rests (.inr unlocked)),
          fun locked held => ⟨_, run rfl, lockDone_exchange (there h) locked held⟩⟩
      · exact fun h idle held => ⟨_, run rfl, laneRetry_wakes (there h) idle held⟩
  case active =>
    intro s l bytes err hl d p
    have run {f : Nat → Dev → Dev} {e : Dev} (h : f l d = e) : onDev (f (l % 18)) s = .next (withDev s e) := onDev_port f hl h
    refine ⟨fun h => ⟨run (lockLoss_rests h), run (tsActive_rests h)⟩,
      fun h => ⟨run (lockLoss_retrains h), run (tsActive_retrains h), laneRetrain_active h hl⟩, fun h => run (lpEntry_rests h),
      fun serial low high => run (lpEntry_follows serial low high), fun h => run (lpWake_retrains h), fun h => run (lpWake_rests h),
      exec_capabilityReceive_error hl, fun h => exec_capabilityReceive hl (capabilityReceive_ignored h), ?_⟩
    intro serial size crc
    exact ⟨fun h first => exec_capabilityReceive hl (capabilityReceive_first serial size crc h first),
      fun h up moved held => ⟨_, exec_capabilityReceive hl rfl, capabilityReceive_moved serial size crc h up moved held⟩⟩

end Sys2Proof.Machine

/-! Blocks and credits on a lane, the commands of LINK_CMD and LNK_CMD, and loopback tests (R271, R280, R281, R283, R287 to R296). -/

namespace Sys2Proof.Machine

open Sys2Proof.Safety

/-! ### Blocks delivered in their order (R289, R291, R292) -/

theorem Dev.port_congr {d e : Dev} (p : Nat) (h : e.lnk = d.lnk) : e.port p = d.port p := by simp [Dev.port, h]

theorem Dev.ports_setPort (d : Dev) (p : Nat) (x : LnkPort) : (d.setPort p x).lnk.ports.length = d.lnk.ports.length := by simp

section Deliver

variable {p : Nat} {d : Dev} {b : RxBlock}

theorem deliverHeld_empty {two : Bool} (f : Nat) (empty : ((d.port p).vl two).early = []) : deliverHeld f p two d = d := by
  cases f <;> simp [deliverHeld, empty]

theorem loseOld_empty {two : Bool} (f : Nat) (empty : ((d.port p).vl two).early = []) : loseOld f p two d = d := by
  cases f <;> simp [loseOld, empty]

/-- The one block held is next: it is delivered. -/
theorem deliverHeld_next {two : Bool} (f : Nat) (held : ((d.port p).vl two).early = [b]) (next : b.seq = ((d.port p).vl two).rxNext) :
    deliverHeld (f + 1) p two d =
      deliverHeld f p two (deliverBlock p two b (d.setPort p ((d.port p).setVl two { (d.port p).vl two with early := [] }))) := by
  simp [deliverHeld, held, next]

/-- VL_1 after one SEQ more, delivered or lost. -/
def LnkVl.past (v : LnkVl) : LnkVl := { v with rxNext := (v.rxNext + 1) % 1024, retired := v.retired + 1 }

/-- A port after one SEQ more of VL_1. -/
def LnkPort.pastSeq (x : LnkPort) : LnkPort := { x with vl1 := x.vl1.past }

/-- A port after a SEQ of VL_1 that is lost or aborted: the message under way goes, and blocks are discarded up to the next MARK (R292). -/
def LnkPort.lostSeq (x : LnkPort) : LnkPort := { x with vl1 := { x.vl1.past with skip := true }, rxMsg := [] }

@[simp] theorem LnkPort.pastSeq_skip (x : LnkPort) : x.pastSeq.vl1.skip = x.vl1.skip := rfl

/-- A port with these blocks of VL_1 held. -/
def LnkPort.holding (x : LnkPort) (bs : List RxBlock) : LnkPort := { x with vl1 := { x.vl1 with early := bs } }

theorem LnkPort.holding_holding (x : LnkPort) (as bs : List RxBlock) : (x.holding as).holding bs = x.holding bs := rfl

theorem LnkPort.holding_none {x : LnkPort} (h : x.vl1.early = []) : x.holding [] = x := by rw [LnkPort.holding, ← h]

/-- A port after a block of VL_1 is delivered (R289, R291, R292). -/
def LnkPort.delivered (x : LnkPort) (b : RxBlock) : LnkPort :=
  if b.aborted then x.lostSeq
  else if x.vl1.skip then { x with vl1 := { x.vl1.past with skip := !b.mark } }
  else if b.mark then { x.pastSeq with rxMsg := [], msgs := x.msgs ++ [splitWords (x.rxMsg ++ b.words)] }
  else { x.pastSeq with rxMsg := x.rxMsg ++ b.words }

theorem breakVl_vl1 (p : Nat) (d : Dev) : breakVl p false d = d.setPort p { d.port p with vl1 := { (d.port p).vl1 with skip := true }, rxMsg := [] } := rfl

theorem Dev.setPort_setPort (d : Dev) (p : Nat) (x y : LnkPort) : (d.setPort p x).setPort p y = d.setPort p y := by
  simp [Dev.setPort]

theorem deliverBlock_vl1 (b : RxBlock) (held : p < d.lnk.ports.length) : deliverBlock p false b d = d.setPort p ((d.port p).delivered b) := by
  have past : (d.setPort p (d.port p).pastSeq).port p = (d.port p).pastSeq := Dev.port_setPort_self d _ held
  have stepped : (d.setPort p ((d.port p).setVl false { (d.port p).vl false with
    rxNext := (((d.port p).vl false).rxNext + 1) % 1024, retired := ((d.port p).vl false).retired + 1 })) =
      d.setPort p (d.port p).pastSeq := rfl
  unfold deliverBlock LnkPort.delivered
  dsimp only
  rw [stepped, breakVl_vl1, past]
  simp only [LnkPort.vl, LnkPort.setVl, Bool.false_eq_true, if_false, Dev.setPort_setPort, LnkPort.pastSeq_skip]
  split_ifs <;> rfl

theorem delivered_vl1 (x : LnkPort) (b : RxBlock) : (x.delivered b).vl1.early = x.vl1.early ∧ (x.delivered b).vl1.rxNext = (x.vl1.rxNext + 1) % 1024 ∧
    (x.delivered b).vl1.retired = x.vl1.retired + 1 := by
  unfold LnkPort.delivered
  split_ifs <;> exact ⟨rfl, rfl, rfl⟩

/-- A block that is not discarded joins the message under way, which is whole with MARK (R291). -/
theorem delivered_joins {x : LnkPort} {b : RxBlock} (whole : b.aborted = false) (taken : x.vl1.skip = false) :
    (b.mark = true → (x.delivered b).msgs = x.msgs ++ [splitWords (x.rxMsg ++ b.words)] ∧ (x.delivered b).rxMsg = []) ∧
      (b.mark = false → (x.delivered b).msgs = x.msgs ∧ (x.delivered b).rxMsg = x.rxMsg ++ b.words) := by
  constructor <;> intro mark <;> simp [LnkPort.delivered, LnkPort.pastSeq, whole, taken, mark]

/-- The one VL_1 block held is next: it is delivered, and none is held any more. -/
theorem deliverHeld_vl1 (f : Nat) (ports : p < d.lnk.ports.length) (held : (d.port p).vl1.early = [b]) (next : b.seq = (d.port p).vl1.rxNext) :
    deliverHeld (f + 1) p false d = d.setPort p (((d.port p).holding []).delivered b) := by
  have taken : (d.setPort p ((d.port p).setVl false { (d.port p).vl false with early := [] })).port p = (d.port p).holding [] :=
    Dev.port_setPort_self d _ ports
  rw [deliverHeld_next (two := false) f held next, deliverBlock_vl1 b (by rwa [Dev.ports_setPort]), taken, Dev.setPort_setPort]
  refine deliverHeld_empty f ?_
  rw [Dev.port_setPort_self d _ ports]
  exact (delivered_vl1 _ b).1

/-! ### Blocks declared lost (R289) -/

theorem blockLostTimeout_waits {two : Bool} (f : Nat) (young : ∀ x ∈ ((d.port p).vl two).early, d.nowCt < x.at_ + 256) :
    blockLostTimeout f p two d = d := by
  cases f with
  | zero => rfl
  | succ f =>
    refine if_neg ?_
    simpa using young

theorem blockLostTimeout_due {two : Bool} (f : Nat) (old : ∃ x ∈ ((d.port p).vl two).early, x.at_ + 256 ≤ d.nowCt) :
    blockLostTimeout (f + 1) p two d = blockLostTimeout f p two (deliverHeld 1024 p two (loseSeq p two d)) := by
  refine if_pos ?_
  simpa using old

theorem loseSeq_vl1 (ports : p < d.lnk.ports.length) : (loseSeq p false d).lnk.ports.length = d.lnk.ports.length ∧
    (loseSeq p false d).port p = (d.port p).lostSeq := by
  have lnk : (loseSeq p false d).lnk = (breakVl p false (d.setPort p (d.port p).pastSeq)).lnk := by
    unfold loseSeq
    rw [raiseOnce_lnk, count1_lnk]
    rfl
  rw [breakVl_vl1, Dev.setPort_setPort, Dev.port_setPort_self d _ ports] at lnk
  exact ⟨by rw [lnk, Dev.ports_setPort], (Dev.port_congr p lnk).trans (Dev.port_setPort_self d _ ports)⟩

/-- The SEQ missing before the one block held is lost, and the block is delivered. -/
theorem blockLostTimeout_one {x : RxBlock} (f : Nat) (ports : p < d.lnk.ports.length) (held : (d.port p).vl1.early = [x]) (old : x.at_ + 256 ≤ d.nowCt)
    (next : x.seq = ((d.port p).vl1.rxNext + 1) % 1024) :
    ((blockLostTimeout (f + 1) p false d).port p).vl1.early = [] ∧
      ((blockLostTimeout (f + 1) p false d).port p).vl1.rxNext = ((d.port p).vl1.rxNext + 2) % 1024 ∧
      ((blockLostTimeout (f + 1) p false d).port p).vl1.retired = (d.port p).vl1.retired + 2 := by
  obtain ⟨count, lost⟩ := loseSeq_vl1 ports
  have room : p < (loseSeq p false d).lnk.ports.length := by rwa [count]
  have after : (deliverHeld 1024 p false (loseSeq p false d)).port p = ((d.port p).lostSeq.holding []).delivered x := by
    rw [deliverHeld_vl1 1023 room (by rw [lost]; exact held) (by rw [lost]; exact next), Dev.port_setPort_self _ _ room, lost]
  obtain ⟨early, rxNext, retired⟩ := delivered_vl1 ((d.port p).lostSeq.holding []) x
  rw [← after] at early rxNext retired
  have ends : blockLostTimeout (f + 1) p false d = deliverHeld 1024 p false (loseSeq p false d) := by
    rw [blockLostTimeout_due (two := false) f ⟨x, List.mem_of_mem_head? (congrArg List.head? held), old⟩]
    exact blockLostTimeout_waits f fun y hy => absurd (early ▸ hy) List.not_mem_nil
  rw [ends]
  refine ⟨early, rxNext.trans ?_, retired⟩
  show (((d.port p).vl1.rxNext + 1) % 1024 + 1) % 1024 = ((d.port p).vl1.rxNext + 2) % 1024
  omega

end Deliver

/-! ### Blocks that arrive (R271, R288 to R290) -/

section Receive

variable {l : Nat} {hdr : Word} {payload : List Word64} {d : Dev}

/-- What is counted of a whole block, and the credit that it brings (R290). -/
def blockCredited (p : Nat) (hdr : Word) (d : Dev) : Dev := creditIn p (bit hdr 12) (bits hdr 9 0) (count1 (R.LNK_PORT_COUNT p 1) d)

theorem creditIn_lnk (p : Nat) (two : Bool) (c : Nat) (d : Dev) : (creditIn p two c d).lnk = d.lnk ∨
    (creditIn p two c d).lnk = (d.setPort p ((d.port p).setVl two { (d.port p).vl two with limit := c })).lnk := by
  unfold creditIn
  dsimp only
  split
  · refine .inr ?_
    split <;> rfl
  · exact .inl rfl

/-- A port with other limits of its two VLs (R290). -/
def LnkPort.credited (x : LnkPort) (a b : Nat) : LnkPort := { x with vl1 := { x.vl1 with limit := a }, vl2 := { x.vl2 with limit := b } }

/-- Credit that arrives moves nothing of a port but its two limits. -/
theorem blockCredited_port {p : Nat} (hdr : Word) {d : Dev} (ports : p < d.lnk.ports.length) :
    (blockCredited p hdr d).lnk.ports.length = d.lnk.ports.length ∧ ∃ a b, (blockCredited p hdr d).port p = (d.port p).credited a b := by
  have counted : (count1 (R.LNK_PORT_COUNT p 1) d).lnk = d.lnk := count1_lnk _ d
  have port := Dev.port_congr p counted
  rcases creditIn_lnk p (bit hdr 12) (bits hdr 9 0) (count1 (R.LNK_PORT_COUNT p 1) d) with same | moved
  · have lnk : (blockCredited p hdr d).lnk = d.lnk := same.trans counted
    exact ⟨by rw [lnk], _, _, Dev.port_congr p lnk⟩
  · rw [port] at moved
    have room : p < (count1 (R.LNK_PORT_COUNT p 1) d).lnk.ports.length := by rwa [counted]
    refine ⟨(congrArg (·.ports.length) moved).trans ((Dev.ports_setPort _ p _).trans (by rw [counted])), ?_⟩
    have after := (Dev.port_congr p moved).trans (Dev.port_setPort_self _ _ room)
    rw [blockCredited, after]
    cases bit hdr 12
    · exact ⟨bits hdr 9 0, _, rfl⟩
    · exact ⟨_, bits hdr 9 0, rfl⟩

/-- The block that a header and its payload make. -/
def arrivedBlock (hdr : Word) (payload : List Word64) (d : Dev) : RxBlock :=
  { seq := bits hdr 28 19, mark := bit hdr 29, aborted := false, words := payload, at_ := d.nowCt }

theorem blockReceive_inactive (crcOk : Bool) (err : CharErr) (aborted : Bool) (h : d.stage l ≠ 5) : blockReceive l hdr payload crcOk err aborted d = d :=
  if_pos (by simpa using h)

/-- A whole VL_1 block in the window, of which no copy is held, is held, and delivered as soon as its turn is there (R289). -/
def holdBlock (p : Nat) (b : RxBlock) (d : Dev) : Dev :=
  let v := (d.port p).vl1
  if 512 ≤ ahead v b.seq || v.early.any (fun x => x.seq == b.seq) then d
  else loseOld 1024 p false (deliverHeld 1024 p false (d.setPort p ((d.port p).holding (v.early ++ [b]))))

theorem holdBlock_next {p : Nat} {b : RxBlock} (ports : p < d.lnk.ports.length) (early : (d.port p).vl1.early = [])
    (next : b.seq = (d.port p).vl1.rxNext) : holdBlock p b d = d.setPort p ((d.port p).delivered b) := by
  have now : ahead (d.port p).vl1 b.seq = 0 := by
    rw [ahead, next, Nat.add_sub_cancel_left]
  have held := Dev.port_setPort_self d ((d.port p).holding [b]) ports
  have delivers := deliverHeld_vl1 (b := b) 1023 ((Dev.ports_setPort d p _).symm ▸ ports) (by rw [held]; rfl) (by rw [held]; exact next)
  rw [held, Dev.setPort_setPort, LnkPort.holding_holding, LnkPort.holding_none early] at delivers
  refine (if_neg (by simp [now, early])).trans ?_
  rw [early, List.nil_append, delivers]
  refine loseOld_empty 1024 ?_
  rw [Dev.port_setPort_self d _ ports]
  exact (delivered_vl1 _ b).1.trans early

section Serial

variable (active : d.stage l = 5) (serial : isTiming (portOf l) = false)

include active serial

theorem blockReceive_badCrc : blockReceive l hdr payload false .none false d = noteBlockCrc l d := by
  simp [blockReceive, active, serial, countCharErr_none]

theorem blockReceive_empty (len : bits hdr 18 13 = 0) : blockReceive l hdr [] true .none false d = blockCredited (portOf l) hdr d := by
  simp [blockReceive, active, serial, countCharErr_none, len, blockCredited]

theorem blockReceive_vl1 (vl : bits hdr 31 30 = 1) (len : bits hdr 18 13 = payload.length) (words : payload ≠ []) (fits : payload.length ≤ 32) :
    blockReceive l hdr payload true .none false d =
      holdBlock (portOf l) (arrivedBlock hdr payload (blockCredited (portOf l) hdr d)) (blockCredited (portOf l) hdr d) := by
  have off : (d.stage l != 5) = false := by simp [active]
  have nonempty : (payload.length == 0) = false := by simpa using words
  have good : (true && CharErr.none == CharErr.none && decide (payload.length ≤ 32) && payload.length == payload.length) = true := by simp [fits]
  have lane1 : ((1 : Nat) == 0) = false ∧ ((1 : Nat) == 2) = false ∧ ((1 : Nat) == 3) = false := ⟨rfl, rfl, rfl⟩
  simp only [blockReceive, off, serial, countCharErr_none, vl, len, good, nonempty, lane1, Bool.not_true, Bool.and_false, Bool.or_false, Bool.false_and,
    Bool.false_eq_true, if_false]
  rfl

/-- A whole block of VL_1, the next in SEQ order while none is held: the port has it delivered. -/
theorem blockReceive_next (ports : portOf l < d.lnk.ports.length) (vl : bits hdr 31 30 = 1) (len : bits hdr 18 13 = payload.length)
    (words : payload ≠ []) (fits : payload.length ≤ 32) (next : bits hdr 28 19 = (d.port (portOf l)).vl1.rxNext)
    (early : (d.port (portOf l)).vl1.early = []) : ∃ a b e,
      (blockReceive l hdr payload true .none false d).port (portOf l) = ((d.port (portOf l)).credited a b).delivered (arrivedBlock hdr payload e) := by
  obtain ⟨count, a, b, port⟩ := blockCredited_port hdr ports
  have room : portOf l < (blockCredited (portOf l) hdr d).lnk.ports.length := by rwa [count]
  refine ⟨a, b, blockCredited (portOf l) hdr d, ?_⟩
  rw [blockReceive_vl1 active serial vl len words fits, holdBlock_next room (by rw [port]; exact early) (by rw [port]; exact next),
    Dev.port_setPort_self _ _ room, port]

end Serial

end Receive

/-! ### Units that a free lane sends (R274, R277, R281, R283, R291 to R295) -/

theorem b2n_is (d : Dev) {f : FRef} (one : f.hi + 1 - f.lo = 1) : b2n (d.is f) = d.get f := by
  have small : d.get f < 2 ^ (f.hi + 1 - f.lo) := bits_lt _ _ _
  rw [one] at small
  have binary : d.get f = 0 ∨ d.get f = 1 := by omega
  rcases binary with h | h <;> simp [Dev.is, b2n, h]

section Send

variable {l : Nat} (fb : Nat) {d : Dev}

theorem blockSend_nothing (h : d.is (F.LNK_LANE_STATUS_PRBS_BUSY l) = true ∨ d.stage l < 2 ∨ d.stage l = 7 ∨
    (d.stage l = 2 ∧ (d.lane l).idle = true) ∨ (d.stage l = 6 ∧ (d.lane l).lpOut = 0)) : blockSend l fb d = d := by
  unfold blockSend
  rcases h with h | h | h | ⟨h, idle⟩ | ⟨h, none⟩
  · simp [h]
  · have low : d.stage l = 0 ∨ d.stage l = 1 := by omega
    rcases low with h | h <;> simp [h]
  · simp [h]
  · simp [h, idle]
  · simp [h, none]

section Free

variable (free : d.is (F.LNK_LANE_STATUS_PRBS_BUSY l) = false)

include free

theorem blockSend_train (stage : d.stage l = 2) (sends : (d.lane l).idle = false) : blockSend l fb d = emitFilled l 12
    (.training (if isTiming (portOf l) then 3 else (d.port (portOf l)).rate) (2 * b2n (d.lane l).warm + 4 * b2n (d.lane l).lpExit)) d := by
  simp [blockSend, free, stage, sends, b2n]

theorem blockSend_lock (stage : d.stage l = 3) : blockSend l fb d = emitFilled l 12
    (.training (if isTiming (portOf l) then 3 else (d.port (portOf l)).rate)
      (d.get (F.LNK_LANE_STATUS_SYM_LOCK l) + 2 * b2n (d.lane l).warm + 4 * b2n (d.lane l).lpExit)) d := by
  rw [← b2n_is d (f := F.LNK_LANE_STATUS_SYM_LOCK l) rfl]
  simp [blockSend, free, stage]

theorem blockSend_sets (stage : d.stage l = 4) (due : isTiming (portOf l) = false ∨ (d.lane l).capOut ≠ 0) : blockSend l fb d = sendCaps l d := by
  rcases due with h | h <;> simp [blockSend, free, stage, h]

theorem blockSend_setsSent (stage : d.stage l = 4) (timing : isTiming (portOf l) = true) (sent : (d.lane l).capOut = 0) :
    blockSend l fb d = emitIdle l d := by simp [blockSend, free, stage, timing, sent]

theorem blockSend_lpEntry (stage : d.stage l = 6) (left : 0 < (d.lane l).lpOut) :
    blockSend l fb d = emitFilled l 14 .lpEntry (d.setLane l { d.lane l with lpOut := (d.lane l).lpOut - 1 }) := by
  simp [blockSend, free, stage, left]

theorem blockSend_active (stage : d.stage l = 5) : blockSend l fb d =
    if idleInTime (d.lane l).sinceIdle (activeUnit l fb d).lnk.sent.2 = true then activeUnit l fb d else emitIdle l d := by
  simp [blockSend, free, stage]

end Free

/-! ### The units of R291 -/

theorem activeUnit_shut (shut : isTiming (portOf l) = true ∨ d.runWidth (portOf l) ≤ laneIdx l ∨ d.is (F.LNK_PORT_STATUS_ACTIVE (portOf l)) = false)
    (noSets : (d.lane l).capOut = 0) : activeUnit l fb d = emitIdle l d := by
  rcases shut with h | h | h <;> simp [activeUnit, h, noSets]

/-- The blocks of a port in ACTIVE, in the order of R291, and IDLE where none may go. -/
def sendBlocks (l fb : Nat) (d : Dev) : Dev :=
  let p := portOf l
  let x := d.port p
  let w1 := x.txMsg.isSome || (nextMsg p d).isSome
  let w2 := vl2Waits p d
  let d := if (w1 && !maySend x.vl1) || (w2 && !maySend x.vl2) then d.setPort p { x with waited := true } else d
  if w1 && maySend x.vl1 && (!w2 || 3 ≤ x.sinceVl1) then sendVl1 l fb d
  else if w2 && maySend x.vl2 then sendVl2 l d
  else emitIdle l d

section Open

variable (serial : isTiming (portOf l) = false) (inside : laneIdx l < d.runWidth (portOf l)) (up : d.is (F.LNK_PORT_STATUS_ACTIVE (portOf l)) = true)

include serial inside up

theorem activeUnit_short {m : OutShort} (first : laneIdx l = 0) (short : d.outShort.find? (fun x => x.port == portOf l) = some m) :
    activeUnit l fb d = count1 (R.LNK_PORT_COUNT (portOf l) 7) (emitUnit l (.short m.body) { d with outShort := d.outShort.erase m }) := by
  have inside : ¬ d.runWidth (portOf l) ≤ 0 := by omega
  simp [activeUnit, serial, up, first, short, inside]

variable (noShort : laneIdx l ≠ 0 ∨ d.outShort = [])

include noShort

theorem activeUnit_control {b : Nat × Word64} (control : d.outCtl.find? (fun c => c.1 == portOf l) = some b) :
    activeUnit l fb d = emitUnit l (.control b.2) { d with outCtl := d.outCtl.erase b } := by
  have inside : ¬ d.runWidth (portOf l) ≤ laneIdx l := by omega
  rcases noShort with h | h <;> simp [activeUnit, serial, up, inside, h, control]

theorem activeUnit_sets (noControl : d.outCtl = []) (due : 0 < (d.lane l).capOut) : activeUnit l fb d = sendCaps l d := by
  have inside : ¬ d.runWidth (portOf l) ≤ laneIdx l := by omega
  rcases noShort with h | h <;> simp [activeUnit, serial, up, inside, h, noControl, due]

theorem activeUnit_blocks (noControl : d.outCtl = []) (noSets : (d.lane l).capOut = 0) : activeUnit l fb d = sendBlocks l fb d := by
  have inside : ¬ d.runWidth (portOf l) ≤ laneIdx l := by omega
  rcases noShort with h | h <;> simp [activeUnit, sendBlocks, serial, up, inside, h, noControl, noSets]

end Open

theorem sendBlocks_nothing (noLeft : (d.port (portOf l)).txMsg = none) (noMsg : nextMsg (portOf l) d = none) (noVl2 : vl2Waits (portOf l) d = false) :
    sendBlocks l fb d = emitIdle l d := by simp [sendBlocks, noLeft, noMsg, noVl2]

theorem sendBlocks_uncredited (noLeft : (d.port (portOf l)).txMsg = none) (noMsg : nextMsg (portOf l) d = none) (waits : vl2Waits (portOf l) d = true)
    (credit : maySend (d.port (portOf l)).vl2 = false) :
    sendBlocks l fb d = emitIdle l (d.setPort (portOf l) { d.port (portOf l) with waited := true }) := by
  simp [sendBlocks, noLeft, noMsg, waits, credit]

theorem sendBlocks_vl2 {job : SendJob} (noLeft : (d.port (portOf l)).txMsg = none) (noMsg : nextMsg (portOf l) d = none)
    (waits : vl2Waits (portOf l) d = true) (credit : maySend (d.port (portOf l)).vl2 = true) (whole : (d.port (portOf l)).abort = false)
    (sends : (d.upPort (portOf l)).job = some job) : sendBlocks l fb d = sendBlock l true job.fresh false (job.left.take 32)
      (d.setUpPort (portOf l) { d.upPort (portOf l) with job := some { job with left := job.left.drop 32, fresh := false } }) := by
  simp [sendBlocks, sendVl2, noLeft, noMsg, waits, credit, whole, sends]

theorem sendBlocks_vl1 (message : (d.port (portOf l)).txMsg.isSome = true ∨ (nextMsg (portOf l) d).isSome = true)
    (credit : maySend (d.port (portOf l)).vl1 = true) (credit2 : vl2Waits (portOf l) d = false ∨ maySend (d.port (portOf l)).vl2 = true)
    (turn : vl2Waits (portOf l) d = false ∨ 3 ≤ (d.port (portOf l)).sinceVl1) : sendBlocks l fb d = sendVl1 l fb d := by
  have due : ((d.port (portOf l)).txMsg.isSome || (nextMsg (portOf l) d).isSome) = true := by simpa using message
  have go : (!vl2Waits (portOf l) d || decide (3 ≤ (d.port (portOf l)).sinceVl1)) = true := by simpa using turn
  have paid : (vl2Waits (portOf l) d && !maySend (d.port (portOf l)).vl2) = false := by rcases credit2 with h | h <;> simp [h]
  simp [sendBlocks, due, credit, go, paid]

end Send

theorem creditReturn_shut {p : Nat} (two : Bool) {d : Dev} (h : isTiming p = true ∨ d.is (F.LNK_PORT_STATUS_ACTIVE p) = false) : creditReturn p two d = d :=
  if_pos (by simpa using h)

theorem creditReturn_sends {p : Nat} (two : Bool) {d : Dev} (serial : isTiming p = false) (up : d.is (F.LNK_PORT_STATUS_ACTIVE p) = true) :
    creditReturn p two d = count1 (R.LNK_PORT_COUNT p 0)
      (emitUnit (laneOf p 0) (.block (pack32 [(31, 30, 1), (12, 12, b2n two), (9, 0, creditOut p two d)]) [] false) d) := if_neg (by simp [serial, up])

/-! ### The commands of LINK_CMD and LNK_CMD (R2, R280, R287, R296) -/

theorem writeReg_lnkCmd (w : Word) (s : State) : writeReg R.LNK_CMD w s = withDev s (lnkCmd w s.dev).1 := by
  have present : s.dev.absentKey R.LNK_CMD = false := by
    unfold Dev.absentKey
    rfl
  have key : dmaKey R.LNK_CMD s.dev = some R.LNK_CMD := rfl
  unfold writeReg
  simp only [present, key, Bool.false_eq_true, if_false]
  rfl

/-- A command of the links by LNK_CMD and by LINK_CMD alike: the result is shown in LNK_CMD_STATUS, and is the status of the response. -/
theorem lnkCmd_both {i : Option MsgCtx → Instr} {w : Word} {s : State} {c : MsgCtx} {st : Nat} {e : Dev}
    (regs : exec (i none) s = .next (writeReg R.LNK_CMD w s)) (msg : exec (i (some c)) s = .next (direct 0x0701 c [w] s))
    (h : lnkCmd w s.dev = lnkResult st e) : exec (i none) s = .next (withDev s (e.put F.LNK_CMD_STATUS_RESULT st)) ∧
      (Accepted 0x0701 c [w] s → exec (i (some c)) s = .next (answer 0x0701 c st [] (withDev s (e.put F.LNK_CMD_STATUS_RESULT st)))) := by
  refine ⟨by rw [regs, writeReg_lnkCmd, h]; rfl, fun a => ?_⟩
  have asks : message 0x0701 c [w] s = plainMsg (lnkCmd w) s := rfl
  rw [msg, direct_answer a rfl (asks.trans (by rw [plainMsg, devMsg, h]))]
  rfl

/-! ### Retrain and restart of a port (R280, R287) -/

section PortCommand

variable {p : Nat} {d : Dev}

theorem bits_portWord {op : Nat} (hp : p < 16) (hop : op < 8) :
    bits (pack32 [(19, 16, p), (2, 0, op)]) 2 0 = op ∧ bits (pack32 [(19, 16, p), (2, 0, op)]) 19 16 = p := by
  constructor <;> simp [bits, nbits, pack32, Nat.shiftRight_eq_div_pow] <;> omega

theorem lnkCmd_retrain (hp : p < 16) : lnkCmd (pack32 [(19, 16, p), (2, 0, 1)]) d = linkRetrain p d := by
  obtain ⟨op, port⟩ := bits_portWord hp (op := 1) (by decide)
  simp only [lnkCmd, op, port]

theorem lnkCmd_restart (hp : p < 16) : lnkCmd (pack32 [(19, 16, p), (2, 0, 2)]) d = linkRestart p d := by
  obtain ⟨op, port⟩ := bits_portWord hp (op := 2) (by decide)
  simp only [lnkCmd, op, port]

theorem linkRetrain_unbonded (h : portLanes p = 0) : linkRetrain p d = lnkResult 4 d := by simp [linkRetrain, h]
theorem linkRestart_unbonded (h : portLanes p = 0) : linkRestart p d = lnkResult 4 d := by simp [linkRestart, h]

theorem linkRetrain_rest (bonded : portLanes p ≠ 0) (rest : retrainRuns p d = false) :
    linkRetrain p d = lnkResult 0 (d.setPort p { d.port p with retrain := true }) := by
  rw [linkRetrain, if_neg (by simpa using bonded), if_neg (by simp [rest])]

theorem linkRetrain_busy (bonded : portLanes p ≠ 0) (runs : retrainRuns p d = true) : linkRetrain p d = lnkResult 1 d := by
  simp [linkRetrain, bonded, runs]

theorem linkRestart_waits (bonded : portLanes p ≠ 0) : linkRestart p d = lnkResult 0 (d.setPort p { d.port p with restart := true }) :=
  if_neg (by simpa using bonded)

end PortCommand

/-! ### Loopback tests (R296) -/

section Loopback

variable {l len : Nat} {d : Dev}

theorem bits_prbsStartWord (hl : l < 32) (hlen : len < 16) : bits (pack32 [(27, 24, len), (12, 8, l), (2, 0, 3)]) 2 0 = 3 ∧
    bits (pack32 [(27, 24, len), (12, 8, l), (2, 0, 3)]) 12 8 = l ∧ bits (pack32 [(27, 24, len), (12, 8, l), (2, 0, 3)]) 27 24 = len := by
  refine ⟨?_, ?_, ?_⟩ <;> simp [bits, nbits, pack32, Nat.shiftRight_eq_div_pow] <;> omega

theorem bits_prbsStopWord (hl : l < 32) : bits (pack32 [(12, 8, l), (2, 0, 4)]) 2 0 = 4 ∧ bits (pack32 [(12, 8, l), (2, 0, 4)]) 12 8 = l := by
  constructor <;> simp [bits, nbits, pack32, Nat.shiftRight_eq_div_pow] <;> omega

theorem lnkCmd_prbsStart (hl : l < 32) (hlen : len < 16) : lnkCmd (pack32 [(27, 24, len), (12, 8, l), (2, 0, 3)]) d = prbsStart l len d := by
  obtain ⟨op, lane, size⟩ := bits_prbsStartWord hl hlen
  simp only [lnkCmd, op, lane, size]

theorem lnkCmd_prbsStop (hl : l < 32) : lnkCmd (pack32 [(12, 8, l), (2, 0, 4)]) d = prbsStop l d := by
  obtain ⟨op, lane⟩ := bits_prbsStopWord hl
  simp only [lnkCmd, op, lane]

theorem prbsStart_unbonded (h : laneBonded l = false) : prbsStart l len d = lnkResult 4 d := by simp [prbsStart, h]
theorem prbsStop_unbonded (h : laneBonded l = false) : prbsStop l d = lnkResult 4 d := by simp [prbsStop, h]

section Bonded

variable (bonded : laneBonded l = true)

include bonded

theorem prbsStart_long (long : 12 < len) : prbsStart l len d = lnkResult 5 d := by simp [prbsStart, bonded, long]

theorem prbsStart_active (short : len ≤ 12) (active : d.stage l = 5) : prbsStart l len d = lnkResult 3 d := by
  simp [prbsStart, bonded, Nat.not_lt.2 short, active]

theorem prbsStart_busy (short : len ≤ 12) (other : d.stage l ≠ 5) (busy : d.is (F.LNK_LANE_STATUS_PRBS_BUSY l) = true) :
    prbsStart l len d = lnkResult 1 d := by simp [prbsStart, bonded, Nat.not_lt.2 short, other, busy]

theorem prbsStart_runs (short : len ≤ 12) (other : d.stage l ≠ 5) (free : d.is (F.LNK_LANE_STATUS_PRBS_BUSY l) = false) :
    prbsStart l len d = lnkResult 0 ((d.put (F.LNK_LANE_STATUS_PRBS_BUSY l) 1).setLane l { d.lane l with prbsLen := len }) := by
  simp only [prbsStart, bonded, Nat.not_lt.2 short, other, free, Bool.not_true, Bool.false_eq_true, if_false, beq_iff_eq]

theorem prbsStop_idle (free : d.is (F.LNK_LANE_STATUS_PRBS_BUSY l) = false) : prbsStop l d = lnkResult 0 d := by simp [prbsStop, bonded, free]

/-- A test stopped ends with free numbers of units checked and of errors, drawn from nothing that a statement rests on (R296, log entry 76). -/
theorem prbsStop_ends (busy : d.is (F.LNK_LANE_STATUS_PRBS_BUSY l) = true) : ∃ units errs e, prbsStop l d = lnkResult 0 (prbsEnd l 3 errs units e) ∧
    e.regs = d.regs ∧ e.lnk = d.lnk ∧ e.ev = d.ev :=
  ⟨_, _, { d with free := d.free + 1 + 1 }, by simp only [prbsStop, bonded, busy, Bool.not_true, Bool.false_eq_true, if_false]; rfl, rfl, rfl, rfl⟩

end Bonded

theorem prbsDone_none (errors : Nat) (free : d.is (F.LNK_LANE_STATUS_PRBS_BUSY l) = false) : prbsDone l errors d = d := by simp [prbsDone, free]

theorem prbsDone_ends (errors : Nat) (busy : d.is (F.LNK_LANE_STATUS_PRBS_BUSY l) = true) :
    prbsDone l errors d = prbsEnd l (if errors = 0 then 1 else 2) errors (2 ^ (4 + (d.lane l).prbsLen)) d := by simp [prbsDone, busy]

end Loopback

/-! ### The commands -/

theorem exec_blockSend {l fb : Nat} {s : State} {e : Dev} (hl : l < 18) (hfb : fb < 2048) (h : blockSend l fb s.dev = e) :
    exec (.blockSend l fb) s = .next (withDev s e) :=
  onDev_port (fun l => blockSend l (fb % 2048)) hl (by rw [Nat.mod_eq_of_lt hfb]; exact h)

theorem exec_creditReturn {p vl : Nat} {s : State} {e : Dev} (hp : p < 12) (h : creditReturn p (vl == 2) s.dev = e) :
    exec (.creditReturn p vl) s = .next (withDev s e) := onDev_port (fun p => creditReturn p (vl == 2)) hp h

theorem exec_blockLostTimeout {p vl : Nat} {s : State} {e : Dev} (hp : p < 12) (h : blockLostTimeout 1024 p (vl == 2) s.dev = e) :
    exec (.blockLostTimeout p vl) s = .next (withDev s e) := onDev_port (fun p => blockLostTimeout 1024 p (vl == 2)) hp h

/-- Settles O47: a block that arrives is followed through its credit and its place in SEQ order, a unit that leaves through the order of R291,
and a command of the links is its function's case, by message and by register alike. -/
theorem blocksAndLinkCommands : Obligations.BlocksAndLinkCommands := by
  refine ⟨?blocks, ?commands⟩
  case blocks =>
    intro s l p vl fb hdr payload m b job hl hp hfb d q x
    have arrives {crcOk : Bool} {ws : List Word64} {e : Dev} (h : blockReceive l hdr ws crcOk .none false d = e) :
      exec (.blockReceive l hdr ws crcOk .none false) s = .next (withDev s e) := onDev_port (fun l => blockReceive l hdr ws crcOk .none false) hl h
    refine ⟨fun h => arrives (blockReceive_inactive true .none false h), ?_, fun h => exec_blockSend hl hfb (blockSend_nothing fb h), ?_,
      activeUnit_shut fb, ?_, fun h => exec_creditReturn hp (creditReturn_shut _ h), fun serial up => exec_creditReturn hp (creditReturn_sends _ serial up),
      fun young => exec_blockLostTimeout hp (blockLostTimeout_waits 1024 young), ?_⟩
    · intro active serial
      refine ⟨arrives (blockReceive_badCrc active serial), ?_, ?_⟩
      · rintro len rfl
        exact arrives (blockReceive_empty active serial len)
      · intro v vl1 len words fits next early taken ports
        obtain ⟨a, c, e, port⟩ := blockReceive_next active serial ports vl1 len words fits next early
        refine ⟨_, arrives rfl, ?_⟩
        rw [port]
        obtain ⟨-, rxNext, retired⟩ := delivered_vl1 ((d.port q).credited a c) (arrivedBlock hdr payload e)
        exact ⟨rxNext, retired, delivered_joins (x := (d.port q).credited a c) (b := arrivedBlock hdr payload e) rfl taken⟩
    · intro free
      refine ⟨fun stage sends => exec_blockSend hl hfb (blockSend_train fb free stage sends),
        fun stage => exec_blockSend hl hfb (blockSend_lock fb free stage),
        fun stage due => exec_blockSend hl hfb (blockSend_sets fb free stage due),
        fun stage timing sent => exec_blockSend hl hfb (blockSend_setsSent fb free stage timing sent),
        fun stage left => exec_blockSend hl hfb (blockSend_lpEntry fb free stage left), fun stage => exec_blockSend hl hfb (blockSend_active fb free stage)⟩
    · intro serial inside up
      refine ⟨activeUnit_short fb serial inside up, fun noShort => activeUnit_control fb serial inside up noShort,
        activeUnit_sets fb serial inside up, fun noShort noControl noSets => ?_⟩
      rw [activeUnit_blocks fb serial inside up noShort noControl noSets]
      exact ⟨fun noLeft noMsg => ⟨sendBlocks_nothing fb noLeft noMsg, sendBlocks_uncredited fb noLeft noMsg, sendBlocks_vl2 fb noLeft noMsg⟩,
        sendBlocks_vl1 fb⟩
    · rintro ports ⟨y, held, old, next⟩ rfl
      exact ⟨_, exec_blockLostTimeout hp rfl, blockLostTimeout_one 1023 ports held old next⟩
  case commands =>
    intro s c p l len errors hp hl hlen d w1 w2 w3 w4 gives
    have both (i : Option MsgCtx → Instr) (w : Word) {st : Nat} {e : Dev} (regs : exec (i none) s = .next (writeReg R.LNK_CMD w s))
      (msg : exec (i (some c)) s = .next (direct 0x0701 c [w] s)) (h : lnkCmd w d = lnkResult st e) : gives i w st e := lnkCmd_both regs msg h
    have retrains {st : Nat} {e : Dev} (h : linkRetrain p d = lnkResult st e) : gives (.linkRetrain · p) w1 st e :=
      both (.linkRetrain · p) w1 rfl rfl ((lnkCmd_retrain hp).trans h)
    have restarts {st : Nat} {e : Dev} (h : linkRestart p d = lnkResult st e) : gives (.linkRestart · p) w2 st e :=
      both (.linkRestart · p) w2 rfl rfl ((lnkCmd_restart hp).trans h)
    have starts {st : Nat} {e : Dev} (h : prbsStart l len d = lnkResult st e) : gives (.prbsStart · l len) w3 st e :=
      both (.prbsStart · l len) w3 rfl rfl ((lnkCmd_prbsStart hl hlen).trans h)
    have stops {st : Nat} {e : Dev} (h : prbsStop l d = lnkResult st e) : gives (.prbsStop · l) w4 st e :=
      both (.prbsStop · l) w4 rfl rfl ((lnkCmd_prbsStop hl).trans h)
    refine ⟨fun h => ⟨retrains (linkRetrain_unbonded h), restarts (linkRestart_unbonded h)⟩, ?_,
      fun h => ⟨starts (prbsStart_unbonded h), stops (prbsStop_unbonded h)⟩, ?_,
      fun lane free => onDev_port (prbsDone · errors) lane (prbsDone_none errors free),
      fun lane busy => onDev_port (prbsDone · errors) lane (prbsDone_ends errors busy)⟩
    · intro bonded
      exact ⟨fun rest => retrains (linkRetrain_rest bonded rest), fun runs => retrains (linkRetrain_busy bonded runs),
        restarts (linkRestart_waits bonded)⟩
    · intro bonded
      refine ⟨fun long => starts (prbsStart_long bonded long), fun short active => starts (prbsStart_active bonded short active),
        fun short other busy => starts (prbsStart_busy bonded short other busy), fun short other free => starts (prbsStart_runs bonded short other free),
        fun free => stops (prbsStop_idle bonded free), fun busy => ?_⟩
      obtain ⟨units, errs, e, ends, keeps⟩ := prbsStop_ends bonded busy
      exact ⟨units, errs, e, stops ends, keeps⟩

end Sys2Proof.Machine
